-- ==== Sys2Proof/Word.lean ====
section
/-! DEFINITION. The word and byte types, the sparse arrays and saturating counts that every other file uses. -/

namespace Sys2Proof

/-- A 64-bit register or memory word (R87, R208). -/
abbrev Word := BitVec 64

/-- A memory byte (R23). -/
abbrev Byte := BitVec 8

/-- A vector register of 128 bytes (R152). -/
abbrev VecReg := BitVec 1024

/-- An array indexed by number, most of whose entries hold one default value: the entries that differ from it,
in ascending order of index. `Ops` reads and writes it and keeps that form. -/
abbrev Sparse (α : Type) := List (Nat × α)

/-- A count that saturates at the largest value of a `width`-bit field. -/
def satAdd (width n k : Nat) : Nat := min (n + k) (2 ^ width - 1)

/-- The field of `width` bits of `w` whose lowest bit is `lo`, as a number. -/
def field {n : Nat} (w : BitVec n) (lo width : Nat) : Nat := (w.toNat >>> lo) % 2 ^ width

/-- Bit `i` of `w`. -/
def bit {n : Nat} (w : BitVec n) (i : Nat) : Bool := w.toNat.testBit i

/-- A Bool as a one-bit number. -/
def b2n (b : Bool) : Nat := if b then 1 else 0

end Sys2Proof
end

