-- ==== Sys2Proof/Syntax.lean ====
section
/-! DEFINITION. The commands of the LM1 (one constructor of `Instr` for each row of the opcode table) and the
operands they carry. An instruction of the Evoaro instruction set arrives as a command with its operands already
named and its immediates already scaled and extended. -/

namespace Sys2Proof

/-- A general register g0 to g31 (R87). -/
abbrev Reg := BitVec 5
/-- A vector register v0 to v31 (R152). -/
abbrev VReg := BitVec 5
/-- A tile register t0 to t15 (R165). -/
abbrev TReg := BitVec 4

/-- A thread: the logical core 0 to 1,023 and its context 0 to 7 (R12, R124), or Culm core k as unit 1,024 + k
with context 0 (R123, R369). -/
structure Tid where
  unit : Nat
  ctx : Nat
deriving DecidableEq, Repr

/-- The two halves of the die (R9). -/
inductive Half | west | east
deriving DecidableEq, Repr

/-- The traffic classes (R15). -/
inductive TClass | control | request | response | bulk
deriving DecidableEq, Repr

/-- A mesh output direction (Table 3 of chapter 1). -/
inductive Dir | north | east | south | west
deriving DecidableEq, Repr

/-- What a router finds in a received flit (R402). -/
inductive FlitErr | none | single | other
deriving DecidableEq, Repr

/-- Privilege levels (R16). -/
inductive Lvl | machine | supervisor | task
deriving DecidableEq, Repr

/-- Length of an instruction form (R94). -/
inductive Len | short | long
deriving DecidableEq, Repr

/-- Register operations of Tables 6 and 9 of chapter 3. -/
inductive AluOp
  | add | sub | and | or | xor | andn | sll | srl | sra | ror | seq | sne | slt | sltu | min | max | minu | maxu
  | clz | ctz | popc | bswap | csel | addw | subw | mov | neg | not | zxw
deriving DecidableEq, Repr

/-- Short ALU forms (Table 6 of chapter 3). -/
inductive ShortAlu
  | rr (op : AluOp) (rd rs : BitVec 4)
  | addi (rd : BitVec 4) (imm : BitVec 6)
  | li (rd : BitVec 4) (imm : BitVec 6)
  | slli (rd : BitVec 4) (imm : BitVec 6)
  | srli (rd : BitVec 4) (imm : BitVec 6)
  | srai (rd : BitVec 4) (imm : BitVec 6)
  | andi (rd : BitVec 4) (imm : BitVec 6)
deriving DecidableEq, Repr

/-- Long immediate operations, majors 0x02 to 0x07 (Table 8 of chapter 3). -/
inductive ImmOp | addi | andi | ori | xori | slti | sltiu
deriving DecidableEq, Repr

/-- Shift kinds of SHI (Table 8 of chapter 3). -/
inductive ShiftOp | sll | srl | sra | ror
deriving DecidableEq, Repr

/-- Long ALU forms (R97, R98). -/
inductive LongAlu
  | rrr (op : AluOp) (rd ra rb : Reg)
  | imm (op : ImmOp) (rd ra : Reg) (imm : BitVec 15)
  | shi (op : ShiftOp) (rd ra : Reg) (amt : BitVec 6)
  | li (rd : Reg) (imm : BitVec 20)
deriving DecidableEq, Repr

/-- MULDIV functions (Table 9 of chapter 3). -/
inductive MulDivOp | mul | mulh | mulhu | mulhsu | div | divu | rem | remu
deriving DecidableEq, Repr

/-- Access sizes 1, 2, 4 and 8 bytes. -/
inductive Size | b1 | b2 | b4 | b8
deriving DecidableEq, Repr

/-- A scalar load or store: its length, data register, base register, segment, size, sign extension (loads) and
displacement, already scaled and sign-extended (R95, R99). -/
structure MemOp where
  len : Len
  reg : Reg
  base : Reg
  seg : BitVec 2
  size : Size
  signed : Bool
  disp : Word
deriving DecidableEq, Repr

/-- Branch conditions (Tables 6 and 8 of chapter 3). -/
inductive Cond | eq | ne | lt | ge | ltu | geu | always
deriving DecidableEq, Repr

/-- A branch: length, condition, the registers compared, and the byte distance from the branch itself. -/
structure BranchOp where
  len : Len
  cond : Cond
  ra : Reg
  rb : Reg
  off : Word
deriving DecidableEq, Repr

/-- CALL with a byte distance, or CALLR through a register (R88, R89). -/
inductive CallOp
  | rel (len : Len) (off : Word)
  | reg (len : Len) (rs : Reg)
deriving DecidableEq, Repr

/-- Element types (Table 1 of chapter 6). -/
inductive ElemTy | i64 | i32 | i16 | i8 | f64 | f32 | bf16 | f16
deriving DecidableEq, Repr

/-- The fields of format V (R156): destination, masking, element type, sources. -/
structure VFmt where
  vd : VReg
  masked : Bool
  et : ElemTy
  va : VReg
  vb : VReg
deriving DecidableEq, Repr

/-- VEC0 arithmetic, logic, shift and move functions (Table 3 of chapter 6). -/
inductive VArith
  | add | sub | mul | fma | fnma | div | sqrt | min | max | abs | neg | and | or | xor | sll | srl | sra | mv | bcg | iota
deriving DecidableEq, Repr

/-- VEC0 compares (Table 3 of chapter 6). -/
inductive VCmp | eq | lt | le | un
deriving DecidableEq, Repr

/-- VEC1 operands (format VM, R156): `v` is VD or VS, `rb` the stride register or the index vector. -/
structure VMem where
  v : VReg
  masked : Bool
  et : ElemTy
  ra : Reg
  seg : BitVec 2
  rb : BitVec 5
deriving DecidableEq, Repr

/-- VEC2 reductions (Table 6 of chapter 6). -/
inductive VRed | sum | max | min | and | or | xor
deriving DecidableEq, Repr

/-- VEC2 special functions (Table 6 of chapter 6). -/
inductive VSpec | exp2 | log2 | rcp | rsqrt | sin | cos | tanh
deriving DecidableEq, Repr

/-- MX types of VQMX and VDQMX (R163). -/
inductive MxTy | e4m3 | e5m2 | e2m3 | e3m2 | e2m1 | int8
deriving DecidableEq, Repr

/-- MMA operands (format T, R170). -/
structure MmaOp where
  td : TReg
  ta : TReg
  tb : TReg
  reuseA : Bool
  reuseB : Bool
  shape : BitVec 6
  fmt : BitVec 5
deriving DecidableEq, Repr

/-- Accumulate-on-write operations (Table 4 of chapter 8). -/
inductive AowOp | add64 | add2f32 | add4bf16 | max64 | min64 | max2f32 | min2f32 | max4bf16 | min4bf16
deriving DecidableEq, Repr

/-- An access to CTX_DATA by MFS (into rd) or MTS (from ra) (R134). -/
inductive CtxAccess
  | read (rd : Reg)
  | write (ra : Reg)
deriving DecidableEq, Repr

/-- A store instance (Table 1 of chapter 8): engine buffers or local memory of a logical core, memory of a tiller,
common store slice. -/
inductive StoreRef
  | eb (core : Nat)
  | clm (core : Nat)
  | tm (tiller : Nat)
  | cs (slice : Nat)
deriving DecidableEq, Repr

/-- A DMA channel: core channel 0 to 7 of a logical core, or channel 0 to 31 of a tiller (R233). -/
inductive ChanRef
  | core (core ch : Nat)
  | tiller (tiller ch : Nat)
deriving DecidableEq, Repr

/-- A DMA engine: of a logical core, or of a tiller (R233). -/
inductive EngRef
  | core (core : Nat)
  | tiller (tiller : Nat)
deriving DecidableEq, Repr

/-- A step fault as it reaches the sequencer: its source (Table 7 of chapter 10) and the core concerned. -/
inductive StepFault
  | sentinel (core : Nat)
  | coreFault (core : Nat)
  | uncorrectable (addr : Nat)
  | dmaError
  | dupMismatch
deriving DecidableEq, Repr

/-- A fault in a Thallus array and the unit it is attributed to (R311). -/
inductive WaveFault
  | sentinel (unit : BitVec 16)
  | coreFault (unit : BitVec 16)
  | uncorrectable (unit : BitVec 16)
  | dmaError (unit : BitVec 16)
  | access (detail : Nat)
deriving DecidableEq, Repr

/-- The outcome of boot stage MEMORY (R474, R478): every check passed, a stack failed training twice, or the
self-test failed beyond the spares. -/
inductive MemoryResult
  | ok
  | stackFailed (stack : Nat)
  | selfTestFailed
deriving DecidableEq, Repr

/-- A command of the flash window (R479): erase the 4 KiB block at an offset of device 0 or 1, or program it from
the buffer. -/
inductive FlashCmd
  | erase (dev : Bool) (offset : Nat)
  | program (dev : Bool) (offset : Nat)
deriving DecidableEq, Repr

/-- The outcome of a region's CHECKING (R79, R407): read-back, self-test and probes passed; one of them failed; or
the self-test failed on one core. -/
inductive CheckResult
  | pass
  | fail
  | failCore (core : Nat)
deriving DecidableEq, Repr

/-- What a peer's IDENT flit carries (R343). -/
structure Ident where
  ident : Word
  module : BitVec 14
  port : BitVec 5
  bond : Bool
deriving DecidableEq, Repr

/-- A tag of a port node's pool (R352). -/
structure Tag where
  node : Nat
  num : Nat
deriving DecidableEq, Repr

/-- A packet that ends in an arriving flit (Tables 3 to 5 of chapter 13): its destination, class, HOPS, TYPE, and for a
request its origin and tag. -/
structure FlitPkt where
  dest : BitVec 14
  cls : TClass
  hops : BitVec 5
  type : BitVec 4
  origin : BitVec 14
  tag : Tag
deriving DecidableEq, Repr

/-- What a receiver finds of an arriving DATA or CTRL flit (R339, R340): its SEQ, whether its CRC and FEC codewords
are good, whether a protocol error shows, and the packets that end in it. -/
structure FlitIn where
  seq : BitVec 12
  good : Bool
  protocolError : Bool
  packets : List FlitPkt
deriving DecidableEq, Repr

/-- A request under a session, as it reaches the session's home (R351). -/
inductive SessKind
  | read
  | write (data : List Byte)
  | aow (op : AowOp) (data : List Byte)
deriving DecidableEq, Repr

/-- Who made a session request: an access in flight by number, a DMA channel's burst, a Thallus P-unit's block by wave
and number, or the mirror and withdrawal copies of the module itself. -/
inductive Requester
  | access (req : Nat)
  | dma (c : ChanRef) (burst : Nat)
  | unit (handle : BitVec 16) (wave n : Nat)
  | module
deriving DecidableEq, Repr

/-- A session request (R351). -/
structure SessReq where
  sess : Nat
  dest : BitVec 14
  offset : Nat
  length : Nat
  kind : SessKind
  from' : Requester
deriving DecidableEq, Repr

/-- A request packet from the fabric (R337): origin, tag, module-local offset, credit generation and data (reads:
only the length counts). -/
structure RemoteReq where
  origin : Nat
  tag : Tag
  hops : Nat
  offset : Nat
  gen : Nat
  length : Nat
  data : List Byte
deriving DecidableEq, Repr

/-- Errors found in a Culm cache (Table 6 of chapter 14). -/
inductive CacheErr | single | uncorrectable | tagParity | l1iParity | dataParity
deriving DecidableEq, Repr

/-- A report to the health log (R420, Table 7 of chapter 15). -/
structure Report where
  source : Nat
  cause : Nat
  action : Nat
  masked : Bool
  persistent : Bool
  lost : Bool
  node : Nat
  unit : Nat
  stepId : Nat
  detail : Nat
deriving DecidableEq, Repr

/-- The commands: one constructor for each row of the opcode table, in the table's order but for `wfi`. -/
inductive Instr where
  /-- POWER_EN_RISE (R453): POWER_EN rises with VIN at or above 39.0 V and the rails start, PWR_GOOD rising once they are in regulation. -/
  | powerEnRise (vin : Nat)
  /-- POWER_EN_FALL (R453): POWER_EN low for 50 µs or more turns the module off at once, with no drain and no withdrawal. -/
  | powerEnFall (lowUs : Nat)
  /-- PRESENT_L_CHANGE (R452): PRESENT_L mates or breaks, and the carrier gates POWER_EN on it. -/
  | presentLChange (mated : Bool)
  /-- UNDERVOLTAGE_OFF (R451): VIN below 37.0 V for 10 µs causes an electrical trip. -/
  | undervoltageOff
  /-- OVERVOLTAGE_OFF (R451): VIN above 57.0 V for 10 µs causes an electrical trip. -/
  | overvoltageOff
  /-- OVERCURRENT_OFF (R451): Input current above 85 A for 5 µs causes an electrical trip. -/
  | overcurrentOff
  /-- RAIL_OUT_OF_REGULATION (R453): A rail leaves regulation, PWR_GOOD falls and the module turns off as an electrical trip. -/
  | railOutOfRegulation
  /-- THERMAL_TRIP (R459): A die sensor above 115 °C, or a stack above 105 °C, for 10 µs switches the rails off and drives THERMTRIP_L low. -/
  | thermalTrip
  /-- MOD_RESET_L_LOW (R462): MOD_RESET_L low for 10 µs or more starts a module reset within 1 µs, overriding anything in progress. -/
  | modResetLLow (lowUs : Nat)
  /-- REFCLK_LOST (R461): REFCLK is absent for 1 µs, so every PLL switches to the on-module oscillator and LOCALCLK and REFCLK_LOST are set. -/
  | refclkLost
  /-- GOVERNOR_SAMPLE (R455): Every 1 µs the governor measures VIN and input current and updates PAVG. -/
  | governorSample (vin iin : Nat)
  /-- GOVERNOR_LOWER (R455): Every 20 µs while PAVG exceeds Pcap, the governor lowers the core limit, then the mesh limit, by 100 MHz. -/
  | governorLower
  /-- GOVERNOR_RAISE (R455): Every 1 ms while PAVG is below Pcap − 150 W, the governor raises the mesh limit, then the core limit, by 100 MHz. -/
  | governorRaise
  /-- FAST_THROTTLE (R456): An input current over the limit applies the fast throttle within 2 µs, pairing every busy engine cycle with an idle one. -/
  | fastThrottle
  /-- FAST_THROTTLE_END (R456): The 50 µs fast throttle expires unless the condition has renewed it. -/
  | fastThrottleEnd
  /-- DIE_SENSOR_READ (R457): Every 100 µs the Keeper reads the die and inlet sensors and sets DIE_WARN or COOLANT_WARN. -/
  | dieSensorRead (tdie tinlet : Nat)
  /-- I3C_READ (R467): The carrier writes an index byte and reads 8 bytes of a management bus register. -/
  | i3cRead (addr : BitVec 7) (index : BitVec 8)
  /-- I3C_CARRIER_CAP_WRITE (R454): The carrier writes CARRIER_CAP, which enters Pcap. -/
  | i3cCarrierCapWrite (w : Word)
  /-- I3C_ALERT_CLEAR (R458): The carrier clears bits of its alert copy with W1C. -/
  | i3cAlertClear (w : Word)
  /-- I3C_WITHDRAW (R467): The carrier's CMD WITHDRAW acts as REL_CMD WITHDRAW, serialised with Holrid's commands. -/
  | i3cWithdraw (w : Word)
  /-- I3C_DYNAMIC_ADDRESS (R467): SETDASA or ENTDAA assigns the module a dynamic I3C address. -/
  | i3cDynamicAddress (addr : BitVec 7)
  /-- RESET_END (R474): At reset end the straps are sampled and the Keeper starts from mask ROM. -/
  | resetEnd (rackId : BitVec 8) (slotId : BitVec 6)
  /-- BOOT_IMAGE_VERIFY (R475): The mask ROM checks an image header, its key, signature, SVN and KEEPER hash, then starts the Keeper firmware. -/
  | bootImageVerify
  /-- BOOT_MEMORY_DONE (R474): HBM training and zeroing and the SRAM self-test end, the retirement table and spare mapping are applied, and MEAS[5] is extended. -/
  | bootMemoryDone (r : MemoryResult)
  /-- BOOT_THATCH_DONE (R475): The base image is staged from flash, loaded and its INTERLEAVE applied, and the HOLRID copy begins. -/
  | bootThatchDone
  /-- BOOT_HOLRID_COPY_DONE (R475): The HOLRID component is copied, hash-checked and measured, and the Culm nodes are started. -/
  | bootHolridCopyDone
  /-- HOLRID_READY (R474): Holrid writes BOOT_CMD.HOLRID_READY, ending stage HOLRID and starting the chain insertion. -/
  | holridReady
  /-- HOLRID_READY_TIMEOUT (R477): Without HOLRID_READY for 60 s, the Keeper starts Holrid on the other node once, or stops boot with HOLRID_FAIL. -/
  | holridReadyTimeout
  /-- KEEPER_WATCHDOG_EXPIRE (R486): Keeper firmware silent for 1 s triggers a module reset. -/
  | keeperWatchdogExpire
  /-- BYPASS_OPEN (R464): After 500 ns of idle, the repeater joins in phase and the bypass switch opens. -/
  | bypassOpen
  /-- BYPASS_CLOSE_PLANNED (R465): On withdrawal or module reset, the bypass closes within the next idle gap. -/
  | bypassClosePlanned
  /-- CLAIM_SEND (R484): A module in stage CHAIN sends a CLAIM with TRY 1, 2 or 3 at 1 ms intervals. -/
  | claimSend
  /-- CHAIN_FRAME_RECEIVE (R483): An inserted module repeats a chain frame, removes its own returning frame, or drops a frame with a bad CRC. -/
  | chainFrameReceive (bytes : List Byte)
  /-- CLAIM_RECEIVE (R484): A CLAIM for the module's own ID makes it answer with OBJECT or become DUPLICATE. -/
  | claimReceive (id : BitVec 14) (serial : Word)
  /-- OBJECT_RECEIVE (R484): An OBJECT naming the claimant's serial makes it DUPLICATE. -/
  | objectReceive (target : Word)
  /-- CLAIM_WINDOW_END (R484): 1 ms after the third claim, a claimant whose claim returned and that met no OBJECT becomes JOINED and enters stage FABRIC. -/
  | claimWindowEnd
  /-- ROLL_CALL_RETRY (R484): A claimant that saw none of its claims return retries every 1 s, and becomes FAILED after 60 s. -/
  | rollCallRetry
  /-- FUSE_REQUEST (R473): A write of FUSE_REQ makes the Keeper check a signed fuse request and burn fuses within 200 ms. -/
  | fuseRequest (w : Word)
  /-- ATTESTATION_REQUEST (R481): A write of ATT_CMD makes the Keeper write a signed attestation report into the buffer. -/
  | attestationRequest (w : Word)
  /-- MEAS_EXTEND (R480): A write of MEAS_EXT extends measurement register 8 to 15 with a 32-byte digest. -/
  | measExtend (w : Word)
  /-- FLASH_WINDOW_COMMAND (R479): The flash-window command word erases or programs boot flash through the 4 KiB buffer. -/
  | flashWindowCommand (c : FlashCmd)
  /-- RST_MODULE (R486): RST_CMD MODULE resets every function of the die and boots again from mask ROM. -/
  | rstModule
  /-- RST_REGION (R487): RST_CMD REGION reloads the named regions with PURGE = 1 from the image that last defined them. -/
  | rstRegion (mask : BitVec 16)
  /-- RST_CORE (R486): RST_CMD CORE kills contexts 1 to 7 of a logical core, restarts context 0 and resets its tiles, credits and core DMA. -/
  | rstCore (core : Nat)
  /-- RST_LINK (R486): RST_CMD LINK disables a port and re-enables it, retraining every lane. -/
  | rstLink (port : Nat)
  /-- TAP_ACCESS (R440): An Update-DR with GO = 1 in the ACCESS register starts an 8-byte access under the debug policy. -/
  | tapAccess (dr : BitVec 112)
  /-- TAP_RESET (R440): Test-Logic-Reset selects IDCODE. -/
  | tapReset
  /-- HALF_PARK (R40): HALF_REQ PARK is checked and, if accepted, closes the Rachis into the half and starts the drain. -/
  | halfPark (h : Half)
  /-- HALF_UNPARK (R42): HALF_REQ UNPARK moves a parked half to UNPARKING and locks its PLLs at the recorded targets. -/
  | halfUnpark (h : Half)
  /-- HALF_SETCLK (R38): HALF_REQ SETCLK sets a half's core and mesh targets, or records them if the half is parked. -/
  | halfSetclk (h : Half) (coreF meshF : BitVec 8)
  /-- CLOCK_RAISE_SUPPLY_READY (R38): Once the supply reaches the voltage of the new frequency, a raised clock takes effect within 2 µs. -/
  | clockRaiseSupplyReady (h : Half)
  /-- PARK_DRAIN_DONE (R40): The Rachis outstanding counts reach zero, the HBM stacks enter self-refresh and the half's clocks stop, making it PARKED. -/
  | parkDrainDone (h : Half)
  /-- PARK_DRAIN_TIMEOUT (R40): A drain unfinished after 100 µs reopens the Rachis and records DRAIN_TIMEOUT. -/
  | parkDrainTimeout (h : Half)
  /-- UNPARK_PLL_LOCKED (R42): The half's PLLs lock, its clocks restart, the TB copies resynchronise and HBM leaves self-refresh. -/
  | unparkPllLocked (h : Half)
  /-- UNPARK_DONE (R43): The Rachis reopens, the state becomes RUNNING or SLOWED and one unpark increment is sent to every tiller. -/
  | unparkDone (h : Half)
  /-- RACHIS_PARKED_ANSWER (R41): Traffic addressed into a parked half is answered PARKED at once, or discarded if it is class 0. -/
  | rachisParkedAnswer (h : Half) (row : Nat) (cls : TClass) (req : Option Nat)
  /-- MESH_SLOT_WRITE (R30): A write of MESH_SLOT that leaves fewer than two CTRL slots forces slots 0 and 16 to CTRL and sets SLOTFIX. -/
  | meshSlotWrite (node : Nat) (w : Word)
  /-- MESH_FRAME_START (R29): At each multiple of 32 mesh cycles, the per-frame class-0 counts restart. -/
  | meshFrameStart (h : Half)
  /-- C0_TOKEN_ADD (R31): At its scheduled mesh cycles in a frame, a local port's class-0 bucket gains one token up to C0_BURST. -/
  | c0TokenAdd (node : Nat)
  /-- MESH_FLIT_RECEIVE (R402): A router receives a flit, corrects a single-bit error, or discards it and requests a resend 6 mesh cycles later. -/
  | meshFlitReceive (node : Nat) (out : Dir) (plane : Nat) (cls : TClass) (err : FlitErr)
  /-- BEACON_TIMER (R366): Every BEACON_PER µs, a child module sends BEACON_REQ to its time parent. -/
  | beaconTimer
  /-- BEACON_REQ_RECEIVE (R366): A parent stamps t2 on a BEACON_REQ and replies with BEACON_RSP carrying t1, t2 and t3. -/
  | beaconReqReceive (port : Nat) (t1 : Word)
  /-- BEACON_RSP_RECEIVE (R366): The child stamps t4, computes the offset and slews TB, or aligns it. -/
  | beaconRspReceive (t1 t2 t3 : Word)
  /-- TB_HOLD_END (R49): A held TB resumes counting when the parent's time reaches it. -/
  | tbHoldEnd
  /-- TB_HOLDOVER (R50): With no beacon for four periods, the module uses TIME_ALT or sets HOLDOVER and runs free. -/
  | tbHoldover
  /-- THL_DRAIN (R76): THL_CMD DRAIN stops the named regions issuing steps, moving them to DRAINING. -/
  | thlDrain (mask : BitVec 16)
  /-- THL_RESUME (R74): THL_CMD RESUME returns draining or quiescent regions to SERVING. -/
  | thlResume (mask : BitVec 16)
  /-- THL_LOAD (R81): THL_CMD LOAD checks, verifies and structurally checks an image, then purges and moves the masked regions to LOADING. -/
  | thlLoad (mask : BitVec 16) (purge : Bool)
  /-- THL_PURGE (R77): THL_CMD PURGE aborts schedules, disables DMA, kills contexts 1 to 7 and makes the named regions QUIESCENT. -/
  | thlPurge (mask : BitVec 16)
  /-- REGION_QUIESCENT (R75): A draining region meets R75 and becomes QUIESCENT. -/
  | regionQuiescent (r : Nat)
  /-- REGION_DRAIN_TIMEOUT (R76): A region not quiescent within THL_DRAIN_LIM stays DRAINING with code DRAIN_TIMEOUT. -/
  | regionDrainTimeout (r : Nat)
  /-- REGION_WRITE_DONE (R79): Every section for a region is written, its hash rechecked, and the region moves to CHECKING. -/
  | regionWriteDone (r : Nat)
  /-- REGION_CHECK_DONE (R79): Read-back and self-test end, and the region becomes SERVING, or QUIESCENT with mode IDLE if the load failed. -/
  | regionCheckDone (r : Nat) (res : CheckResult)
  /-- SHORT_ALU (R95): A short ALU form such as MOV, ADD, ADDI, LI, shift or compare computes rd. -/
  | shortAlu (t : Tid) (op : ShortAlu)
  /-- LONG_ALU (R98): A long ALU or immediate form computes rd from RA and RB or an immediate. -/
  | longAlu (t : Tid) (op : LongAlu)
  /-- MULDIV (R98): MUL, MULH, DIV or REM computes rd without any exception. -/
  | muldiv (t : Tid) (op : MulDivOp) (rd ra rb : Reg)
  /-- INS16 (R97): INS16 inserts a 16-bit immediate into one quarter of rd. -/
  | ins16 (t : Tid) (rd : Reg) (k : BitVec 2) (imm : BitVec 16)
  /-- LOAD (R90): A scalar load checks alignment, segment and window, then reads its target. -/
  | load (t : Tid) (m : MemOp)
  /-- STORE (R86): A scalar store is checked and performed, or posted when its target lies outside the core's own stores. -/
  | store (t : Tid) (m : MemOp)
  /-- BRANCH (R97): A conditional branch, BR or J changes the PC when taken. -/
  | branch (t : Tid) (b : BranchOp)
  /-- CALL (R88): CALL or CALLR checks the stack, pushes the return address and jumps. -/
  | call (t : Tid) (c : CallOp)
  /-- JR (R89): JR checks its target's alignment and jumps. -/
  | jr (t : Tid) (len : Len) (rs : Reg)
  /-- RET (R89): RET checks the stack, pops the target and checks its alignment. -/
  | ret (t : Tid) (len : Len)
  /-- PUSH (R88): PUSH checks the stack, decrements sp and stores the register. -/
  | push (t : Tid) (rs : Reg)
  /-- POP (R88): POP checks the stack, loads the register and increments sp. -/
  | pop (t : Tid) (rd : Reg)
  /-- ADDSP (R95): ADDSP adds a scaled immediate to sp without a stack check. -/
  | addsp (t : Tid) (imm : BitVec 10)
  /-- NOP (R95): NOP does nothing. -/
  | nop (t : Tid)
  /-- ILLEGAL (R102): A reserved or illegal encoding raises ILLEGAL precisely. -/
  | illegal (t : Tid) (w : BitVec 32)
  /-- FENCE_L (R54): FENCE.L retires when the thread's prior accesses to its own core's stores are complete. -/
  | fenceL (t : Tid)
  /-- FENCE_T (R54): FENCE.T retires when the thread's prior accesses to its own tiller's stores are complete. -/
  | fenceT (t : Tid)
  /-- FENCE_G (R54): FENCE.G retires when every prior access of the thread is complete. -/
  | fenceG (t : Tid)
  /-- SYNC_I (R100): SYNC.I refills the thread's fetch buffer from memory as it now stands. -/
  | syncI (t : Tid)
  /-- MFS (R101): MFS reads a special register, subject to its read level. -/
  | mfs (t : Tid) (rd : Reg) (x : BitVec 11)
  /-- MTS (R101): MTS writes a special register without behaviour of its own, subject to its write level. -/
  | mts (t : Tid) (x : BitVec 11) (ra : Reg)
  /-- RETX (R118): RETX checks the save set and limits, then restores the PC, sp, level and segments. -/
  | retx (t : Tid)
  /-- BRK (R444): BRK raises BREAK, or halts the context when BRK_HALT is set. -/
  | brk (t : Tid) (len : Len)
  /-- WFI (R377): WFI waits until an interrupt source or TIMER is pending. -/
  | wfi (t : Tid)
  /-- GATE (R121): GATE #n checks the gate descriptor and arguments and enters the target level. -/
  | gate (t : Tid) (n : BitVec 8)
  /-- INTERRUPT_TAKE (R122): A pending interrupt is taken at an instruction boundary, or while its context waits, under R111 order. -/
  | interruptTake (t : Tid)
  /-- LOAD_DATA_RETURN (R86): Data for an outstanding load or fetch refill returns, or an error response raises ACCESS_ERROR. -/
  | loadDataReturn (t : Tid)
  /-- POSTED_STORE_ACK (R86): A posted store completes, or its error response raises DEFERRED_STORE at the next boundary. -/
  | postedStoreAck (req : Nat)
  /-- SLOT_START (R139): At the start of each 256-cycle slot, the core chooses the next thread under R139. -/
  | slotStart (core : Nat)
  /-- FORK (R128): FORK takes the lowest free pool context and starts it at level 2. -/
  | fork (t : Tid) (rd ra rb : Reg)
  /-- JOIN (R129): JOIN resolves a handle and returns an exit code, −1, or waits for the context to exit. -/
  | join (t : Tid) (rd ra : Reg)
  /-- EXIT (R130): EXIT waits for posted stores and MMAs, records the exit code, releases resources and frees the context. -/
  | exit (t : Tid) (ra : Reg)
  /-- CTX_KILL (R135): CTX_CTL KILL frees a context without resuming it. -/
  | ctxKill (t : Tid) (w : Word)
  /-- CTX_RETURN (R135): CTX_CTL RETURN performs RETX for a FAULTED context. -/
  | ctxReturn (t : Tid) (w : Word)
  /-- CTX_ENTER (R135): CTX_CTL ENTER starts a FAULTED context at its handler. -/
  | ctxEnter (t : Tid) (w : Word)
  /-- CTX_CONTINUE (R135): CTX_CTL CONTINUE resumes a FENCED or HALTED context at its held PC. -/
  | ctxContinue (t : Tid) (w : Word)
  /-- CTX_DATA_ACCESS (R134): A CTX_DATA access reads or writes a register of a FAULTED, FENCED or HALTED context, or sets ERR. -/
  | ctxDataAccess (t : Tid) (a : CtxAccess)
  /-- WAITEV (R143): WAITEV waits for a pending event bit, consumes the lowest one and returns its number. -/
  | waitev (t : Tid) (rd ra : Reg)
  /-- EVPOST (R141): EVPOST pulses event bits on the core's own event unit. -/
  | evpost (t : Tid) (ra : Reg)
  /-- EVINC (R144): EVINC sends a posted class-0 increment to an event counter. -/
  | evinc (t : Tid) (ra rb : Reg)
  /-- WAITC (R142): WAITC waits until a counter of the own tiller has reached a value. -/
  | waitc (t : Tid) (ra rb : Reg)
  /-- TWDOG_EXPIRE (R145): The wait watchdog reaches 2^EXP, raises DEADLOCK_SUSPECT and sets FIRED. -/
  | twdogExpire (core : Nat)
  /-- CHPUT (R147): CHPUT writes a word of the staging buffer. -/
  | chput (t : Tid) (ra : Reg) (i : BitVec 3)
  /-- CHSEND (R148): CHSEND requests a credit and, once it is granted, sends the staged message as one flit. -/
  | chsend (t : Tid) (ra rb : Reg)
  /-- CHRECV (R147): CHRECV takes the oldest message at an endpoint into the receive buffer, waiting while the queue is empty. -/
  | chrecv (t : Tid) (rd ra : Reg)
  /-- CHSEND_NB (R147): CHSEND.NB sends, or returns −1 if the endpoint is full or owned by another thread. -/
  | chsendNb (t : Tid) (rd ra rb : Reg)
  /-- CHRECV_NB (R147): CHRECV.NB receives, or returns −1 if the queue is empty. -/
  | chrecvNb (t : Tid) (rd ra : Reg)
  /-- CHOWN (R149): CHOWN takes exclusive send ownership of an endpoint, waiting while another thread owns it. -/
  | chown (t : Tid) (ra : Reg)
  /-- CHREL (R149): CHREL releases ownership of an endpoint. -/
  | chrel (t : Tid) (ra : Reg)
  /-- CHANNEL_CREDIT_REQUEST (R148): A tiller's channel unit grants a channel credit, or lists the request in arrival order. -/
  | channelCreditRequest (t : Tid)
  /-- CHANNEL_CREDIT_GRANT (R148): A channel credit grant reaches the sender, which sends its message flit. -/
  | channelCreditGrant (t : Tid)
  /-- CHANNEL_MESSAGE_ARRIVE (R148): A message flit is written whole to its queue slot and becomes visible to CHRECV. -/
  | channelMessageArrive (tiller ep : Nat)
  /-- CHEP_WRITE (R150): A write of CHEP configures an endpoint, and VALID = 0 discards its queue and fails its waiters. -/
  | chepWrite (lvl : Lvl) (tiller ep : Nat) (w : Word)
  /-- VEC_ARITH (R157): A VEC0 arithmetic, logic, shift or move function computes vd element by element. -/
  | vecArith (t : Tid) (op : VArith) (f : VFmt)
  /-- VEC_COMPARE (R157): VCEQ, VCLT, VCLE or VCUN writes a mask into vd. -/
  | vecCompare (t : Tid) (op : VCmp) (f : VFmt)
  /-- VSEL (R157): VSEL selects each element from va or vb by v0. -/
  | vsel (t : Tid) (f : VFmt)
  /-- VCVT (R157): VCVT converts elements between types. -/
  | vcvt (t : Tid) (f : VFmt) (src : ElemTy)
  /-- VLD (R158): VLD loads consecutive elements. -/
  | vld (t : Tid) (m : VMem)
  /-- VST (R158): VST stores consecutive elements. -/
  | vst (t : Tid) (m : VMem)
  /-- VLDS (R158): VLDS loads strided elements. -/
  | vlds (t : Tid) (m : VMem)
  /-- VSTS (R158): VSTS stores strided elements. -/
  | vsts (t : Tid) (m : VMem)
  /-- VGATH (R158): VGATH loads elements at indexed offsets. -/
  | vgath (t : Tid) (m : VMem)
  /-- VSCAT (R159): VSCAT stores elements at indexed offsets in ascending order. -/
  | vscat (t : Tid) (m : VMem)
  /-- VEC_REDUCE (R161): A VEC2 reduction writes element 0 of vd. -/
  | vecReduce (t : Tid) (op : VRed) (f : VFmt)
  /-- VEC_SPECIAL (R162): A special function computes 32 FP32 elements within its bounds. -/
  | vecSpecial (t : Tid) (op : VSpec) (f : VFmt)
  /-- VMVG (R161): VMVG moves one element of va to a general register. -/
  | vmvg (t : Tid) (f : VFmt)
  /-- VINS (R161): VINS inserts a general register into one element of vd. -/
  | vins (t : Tid) (f : VFmt)
  /-- VQMX (R201): VQMX chooses scales and quantises two blocks of 32 FP32 values into an MX format. -/
  | vqmx (t : Tid) (mx : MxTy) (vd va vb : VReg)
  /-- VDQMX (R204): VDQMX decodes one MX block into 32 FP32 values. -/
  | vdqmx (t : Tid) (mx : MxTy) (vd va : VReg) (blk : Bool)
  /-- VSPLIT (R164): VSPLIT splits FP32 values into BF16 pieces by truncation. -/
  | vsplit (t : Tid) (piece : Fin 3) (vd va vb : VReg)
  /-- VCVT8 (R193): VCVT8 converts 64 FP32 values to FP8. -/
  | vcvt8 (t : Tid) (e5m2 : Bool) (vd va vb : VReg)
  /-- VCVTF8 (R193): VCVTF8 converts 32 FP8 values to FP32 exactly. -/
  | vcvtf8 (t : Tid) (e5m2 : Bool) (vd va : VReg) (upper : Bool)
  /-- MMA (R169): MMA is checked at issue and retires when the tile engine accepts it into its queue. -/
  | mma (t : Tid) (m : MmaOp)
  /-- MMA_ACCEPT (R171): A waiting MMA is accepted once the engine queue has room. -/
  | mmaAccept (core : Nat)
  /-- MMA_START (R171): The next accepted MMA starts on the array in acceptance order. -/
  | mmaStart (core : Nat)
  /-- MMA_COMPLETE (R171): D is written 24 core cycles after the array time, MXS and FPS.INV are updated, and a TINV trap follows. -/
  | mmaComplete (core : Nat) (sentinel : Bool)
  /-- MMA_G (R177): MMA.G starts once every gang member has issued it, computing fragments over the quad bus. -/
  | mmaG (t : Tid) (m : MmaOp)
  /-- TLD (R174): TLD loads tile rows in ascending order, leaving the tile PARTIAL if interrupted or faulted. -/
  | tld (t : Tid) (tt : TReg) (seg : BitVec 2) (ra rb : Reg)
  /-- TLDX (R170): TLDX loads the scale area and sets SCALE. -/
  | tldx (t : Tid) (tt : TReg) (seg : BitVec 2) (ra : Reg)
  /-- TST (R174): TST stores tile rows in ascending order, restartably. -/
  | tst (t : Tid) (tt : TReg) (seg : BitVec 2) (ra rb : Reg)
  /-- TSTX (R170): TSTX stores the scale area. -/
  | tstx (t : Tid) (tt : TReg) (seg : BitVec 2) (ra : Reg)
  /-- TZERO (R170): TZERO zeroes a tile and sets its tag from a layout word. -/
  | tzero (t : Tid) (tt : TReg) (rb : Reg)
  /-- TCAST (R170): TCAST changes a tile's tag without touching its data. -/
  | tcast (t : Tid) (tt : TReg) (rb : Reg)
  /-- TRDV (R170): TRDV copies one tile row into a vector register. -/
  | trdv (t : Tid) (tt : TReg) (ra : Reg) (v : VReg)
  /-- TWRV (R170): TWRV copies a vector register into one tile row. -/
  | twrv (t : Tid) (tt : TReg) (ra : Reg) (v : VReg)
  /-- GANG (R176): GANG waits until every named core has a thread in GANG with the same mask, then the gang forms. -/
  | gang (t : Tid) (ra : Reg)
  /-- UNGANG (R178): UNGANG leaves and dissolves the gang. -/
  | ungang (t : Tid)
  /-- TSYNC (R170): TSYNC waits until every tile instruction of the thread is complete. -/
  | tsync (t : Tid)
  /-- AOW (R216): An AOW instruction is checked and sent as a posted accumulate-on-write. -/
  | aow (t : Tid) (op : AowOp) (rs ra : Reg) (seg : BitVec 2) (disp : BitVec 9)
  /-- AOW_BANK_PERFORM (R217): A bank performs an AOW as one indivisible read-modify-write, counting floating exceptions in AOW_STAT. -/
  | aowBankPerform (req : Nat)
  /-- CRQ (R227): CRQ requests credits on an inbox into a credit slot without waiting. -/
  | crq (t : Tid) (rd ra : Reg) (n : BitVec 11)
  /-- CRRET (R227): CRRET adds credits to an inbox's AVAIL, from the owner core only. -/
  | crret (t : Tid) (ra : Reg) (n : BitVec 11)
  /-- CRREL (R227): CRREL returns a slot's held credits and frees the slot. -/
  | crrel (t : Tid) (ra : Reg)
  /-- CRSTAT (R227): CRSTAT returns HELD of the slot naming an inbox, or −1. -/
  | crstat (t : Tid) (rd ra : Reg)
  /-- INBOX_CREDIT_REQUEST (R228): An inbox grants min(n, AVAIL) credits, or lists the request and answers with a range notice. -/
  | inboxCreditRequest (t : Tid) (slot : BitVec 2)
  /-- INBOX_CREDIT_GRANT (R228): A grant or notice reaches a credit slot, adding to HELD, setting GEN and caching the range. -/
  | inboxCreditGrant (t : Tid) (slot : BitVec 2)
  /-- CREDITED_WRITE_ARRIVE (R223): A write arrives at a store and is refused with DENIED if it lacks a valid credit or GEN. -/
  | creditedWriteArrive (req : Nat)
  /-- CRG_AVAIL_WRITE (R224): A level-1 write of CRG AVAIL serves waiting credit requests from the new value. -/
  | crgAvailWrite (tiller inbox : Nat) (w : Word)
  /-- SRAM_READ (R212): An SRAM read corrects a single-bit error and writes it back, or returns UNCORRECTABLE. -/
  | sramRead (addr : Nat)
  /-- SRAM_SCRUB (R214): In idle bank cycles, the scrubber reads and corrects the next word. -/
  | sramScrub (st : StoreRef)
  /-- SRAM_BANK_FAIL (R400): A failed bank is copied into the spare bank within 10 µs and redirected. -/
  | sramBankFail (st : StoreRef) (bank : Nat)
  /-- DMSTART (R240): DMSTART checks a channel and its descriptor and starts the channel. -/
  | dmstart (t : Tid) (ra rb : Reg)
  /-- DMSTAT (R239): DMSTAT returns a channel's DCH. -/
  | dmstat (t : Tid) (rd rb : Reg)
  /-- DMEN (R241): DMEN enables or disables a channel. -/
  | dmen (t : Tid) (ra rb : Reg)
  /-- DMARM (R240): DMARM loads a descriptor address into a channel without starting it. -/
  | dmarm (t : Tid) (ra rb : Reg)
  /-- DCH_DESC_START (R244): A write of DCH_DESC START = 1 starts a tiller channel at ADDR, with R240's checks. -/
  | dchDescStart (tiller ch : Nat) (w : Word)
  /-- DCH_EN_WRITE (R255): Writing DCH.EN ← 0 stops the channel, drops queued data and enters DRAINING. -/
  | dchEnWrite (c : ChanRef) (w : Word)
  /-- DMA_BURST_ISSUE (R248): A freed funnel takes the next ready burst from the highest-priority channel. -/
  | dmaBurstIssue (e : EngRef)
  /-- DMA_READ_RETURN (R247): Read data returns into the funnel, freeing its read tag. -/
  | dmaReadReturn (c : ChanRef)
  /-- DMA_WRITE_ACK (R250): A write acknowledgement returns and frees its tag, and completion actions fire as arrival allows. -/
  | dmaWriteAck (c : ChanRef)
  /-- DMA_DRAIN_END (R255): A disabled channel's last tag returns and the channel goes IDLE. -/
  | dmaDrainEnd (c : ChanRef)
  /-- DMA_CREDIT_GRANT (R249): Credits arrive for a channel in WAIT_CREDIT, which resumes reading. -/
  | dmaCreditGrant (c : ChanRef)
  /-- STEP_ISSUE (R273): An eligible record issues, fixing halves, pre-granting credits, starting DMA and forking threads. -/
  | stepIssue (tiller s : Nat)
  /-- STEP_COMMIT (R278): A complete step commits in order, flipping pairs and sending INCs. -/
  | stepCommit (tiller s : Nat)
  /-- COMMIT_FLIP_ARRIVE (R278): A FLIP from another tiller inverts LIVE of its pair. -/
  | commitFlipArrive (tiller pair : Nat)
  /-- EVC_INCREMENT (R260): A class-0 increment adds its amount to an event counter modulo 2^32. -/
  | evcIncrement (tiller ctr : Nat)
  /-- EVC_WRITE (R260): A level-1 write sets an event counter. -/
  | evcWrite (tiller ctr : Nat) (w : Word)
  /-- SQ_START (R271): SQ_CTL START resets NEXT, ITER, REPLAYS and ERR and makes the context RUNNING. -/
  | sqStart (tiller s : Nat) (w : Word)
  /-- SQ_STOP (R271): SQ_CTL STOP stops issue, and steps in flight commit. -/
  | sqStop (tiller s : Nat)
  /-- SQ_RESUME (R271): SQ_CTL RESUME makes a stopped context RUNNING at NEXT. -/
  | sqResume (tiller s : Nat)
  /-- SQ_ABORT (R285): SQ_CTL ABORT aborts a context, and no step in flight commits. -/
  | sqAbort (tiller s : Nat)
  /-- SQ_ABORTED (R285): An ABORTING context becomes ABORTED when INFLIGHT reaches zero. -/
  | sqAborted (tiller s : Nat)
  /-- SQ_BUF_LIVE_WRITE (R276): A LIVE write to SQ_BUF takes effect only while no context of the tiller runs. -/
  | sqBufLiveWrite (tiller pair : Nat) (w : Word)
  /-- STEP_FAULT (R281): A step fault is recorded and the step is stopped, killed for replay, or ends in FAULT_LIMIT. -/
  | stepFault (tiller s : Nat) (f : StepFault)
  /-- STEP_REPLAY_ISSUE (R281): Once the killed threads and channel are quiet, the same record issues again, on the spare where R282 requires. -/
  | stepReplayIssue (tiller s : Nat)
  /-- DUP_SELFTEST (R410): After a second mismatch, the vector and SFU self-test runs on both cores before the replay. -/
  | dupSelftest (tiller s : Nat) (failed : List Nat)
  /-- TAKEOVER_COPY_DONE (R403): The copy ends, the remap names the spare, and its context 0 starts. -/
  | takeoverCopyDone (tiller : Nat) (fault : Bool)
  /-- CORE_FAULT_UNSTEPPED (R406): A CORE_FAULT outside any step kills contexts 1 to 7 and restarts context 0. -/
  | coreFaultUnstepped (core : Nat)
  /-- WAVE_START (R302): The wave controller starts wave w with a class-0 message to every tiller of the region. -/
  | waveStart (region : Nat)
  /-- WAVE_COMMIT (R303): A complete wave commits in order by running the array's commit list. -/
  | waveCommit (region : Nat)
  /-- UNIT_FIRE (R295): A unit whose inputs hold tokens and whose outputs have credits fires. -/
  | unitFire (unit : BitVec 16)
  /-- TOKEN_ARRIVE (R307): A token arriving at a queue is accepted, or dropped as stale if its epoch differs. -/
  | tokenArrive (tiller queue : Nat)
  /-- TOKEN_CREDIT_RETURN (R292): A popped token's credit returns to its producer. -/
  | tokenCreditReturn (tiller queue : Nat)
  /-- THS_START (R309): THS_WCTL START sets WAVE to 0 and runs the wave controller. -/
  | thsStart (region : Nat)
  /-- THS_STOP (R309): THS_WCTL STOP starts no further waves. -/
  | thsStop (region : Nat)
  /-- THS_RESUME (R309): THS_WCTL RESUME runs a stopped controller again. -/
  | thsResume (region : Nat)
  /-- THS_ABORT (R309): THS_WCTL ABORT purges the array under ABORTING. -/
  | thsAbort (region : Nat)
  /-- ARRAY_PURGE_EPOCH_ACK (R308): Once every tiller acknowledges the new epoch, queues are discarded, credits reset and sources restart. -/
  | arrayPurgeEpochAck (region : Nat)
  /-- WAVE_FAULT (R311): A fault in the array stops it, or purges and replays the oldest uncommitted wave. -/
  | waveFault (region : Nat) (f : WaveFault)
  /-- WAVE_TIMEOUT (R306): A wave in flight longer than WAVE_LIM stops the array with WAVE_TIMEOUT. -/
  | waveTimeout (region : Nat)
  /-- HBM_READ (R324): An HBM read returns data, corrects and writes back a codeword, or returns UNCORRECTABLE. -/
  | hbmRead (addr len : Nat)
  /-- HBM_WRITE (R326): An HBM write writes full codewords and merges partial ones, refusing AOW. -/
  | hbmWrite (req : Nat)
  /-- HBM_PATROL_SCRUB (R328): The patrol scrubber reads and corrects the next codeword of its stack. -/
  | hbmPatrolScrub (stack : Nat)
  /-- HBM_ROW_REPAIR (R328): A worn row is copied and mapped onto a spare row by soft repair within 30 µs. -/
  | hbmRowRepair (stack bank row : Nat)
  /-- HBM_LANE_REPAIR (R329): A persistently failing pin is replaced by a spare lane within 1 ms. -/
  | hbmLaneRepair (pc : Nat) (removable : Bool)
  /-- HBM_TEMP_READ (R330): Every 1 ms the controller reads stack temperature and sets refresh and throttle. -/
  | hbmTempRead (stack temp : Nat)
  /-- HBM_REFRESH (R330): The controller refreshes its stack bank by bank at the rate required. -/
  | hbmRefresh (stack : Nat)
  /-- STP_ENABLE (R343): Setting STP_CTL.EN trains the port's lanes and exchanges IDENT flits. -/
  | stpEnable (port : Nat)
  /-- STP_DISABLE (R347): Clearing STP_CTL.EN starts a handover for the port. -/
  | stpDisable (port : Nat)
  /-- STP_RETRAIN (R341): Writing STP_CTL.RETRAIN retrains the port and restores its lanes. -/
  | stpRetrain (port : Nat)
  /-- IDENT_RECEIVE (R343): A peer's IDENT flit makes the port UP, REFUSED or MISWIRED. -/
  | identReceive (port : Nat) (id : Ident)
  /-- IDENT_TIMEOUT (R343): No IDENT within 300 ms refuses the port with TIMEOUT. -/
  | identTimeout (port : Nat)
  /-- REFUSED_RETRAIN (R343): A refused port retrains every 1 s. -/
  | refusedRetrain (port : Nat)
  /-- DATA_FLIT_RECEIVE (R340): A DATA flit is accepted in sequence, or discarded with a NAK. -/
  | dataFlitReceive (port : Nat) (f : FlitIn)
  /-- NAK_RECEIVE (R340): A NAK makes the sender resend in order from the named SEQ. -/
  | nakReceive (port : Nat) (seq : BitVec 12)
  /-- ACK_RECEIVE (R340): An ACK frees acknowledged flits from the replay buffer. -/
  | ackReceive (port : Nat) (seq : BitVec 12)
  /-- ACK_TIMER (R340): The receiver sends an ACK at least every 64 flits and every 1 µs. -/
  | ackTimer (port : Nat)
  /-- ACK_STALL_TIMEOUT (R340): An ACK not advancing for 100 µs takes the link DOWN. -/
  | ackStallTimeout (port : Nat)
  /-- LANE_DROP (R341): A lane that loses signal or errs too often is dropped, and both ends restripe within 10 µs. -/
  | laneDrop (port : Nat) (lane : Nat)
  /-- LINK_STATE_RECEIVE (R347): The peer's LINK_STATE lets the module resend the remaining replay packets and release its holds. -/
  | linkStateReceive (port : Nat) (lastSeq : BitVec 12)
  /-- LINK_STATE_TIMEOUT (R347): No LINK_STATE within 20 µs discards the replay buffer and releases the holds. -/
  | linkStateTimeout (port : Nat)
  /-- ROUTE_HOLD_EXPIRE (R348): After HOLD_US with nothing sent by the old choice, a destination moves to its restored port. -/
  | routeHoldExpire (dest : Nat)
  /-- SESSION_REQUEST (R351): A request is checked at its session's home and takes a tag, credits and a route. -/
  | sessionRequest (r : SessReq)
  /-- TAG_TIMEOUT (R351): A tag with no response after 1 ms is reclaimed and the requester receives TIMEOUT. -/
  | tagTimeout (tag : Tag)
  /-- SESS_OPEN (R350): SESS_CMD OPEN copies a template into a session entry and opens it. -/
  | sessOpen (node : Nat) (w : Word)
  /-- SESS_CLOSE (R354): SESS_CMD CLOSE makes a session CLOSING and returns its credits. -/
  | sessClose (node : Nat) (w : Word)
  /-- SESS_CLOSE_TIMEOUT (R354): 10 µs after CLOSE, the remaining tags are reclaimed and the session becomes CLOSED. -/
  | sessCloseTimeout (sess : Nat)
  /-- CREDIT_BUSY_RETRY (R353): 10 µs after CREDIT_BUSY, the home sends CREDIT_REQ again. -/
  | creditBusyRetry (sess : Nat)
  /-- RD_RECEIVE (R359): A remote RD is checked against EXPOSE and performed at the target. -/
  | rdReceive (port : Nat) (p : RemoteReq)
  /-- WR_RECEIVE (R360): A remote WR is checked, performed and acknowledged with WR_ACK. -/
  | wrReceive (port : Nat) (p : RemoteReq)
  /-- AOW_PACKET_RECEIVE (R360): A remote AOW is checked, performed and acknowledged. -/
  | aowPacketReceive (port : Nat) (op : AowOp) (p : RemoteReq)
  /-- EVINC_PACKET_RECEIVE (R361): A remote EVINC is applied if a COUNTERS record allows it, and is otherwise discarded. -/
  | evincPacketReceive (port : Nat) (origin : Nat) (tiller ctr : Nat) (amount : BitVec 32)
  /-- MCAST_WR_RECEIVE (R363): A multicast write is delivered locally and forwarded on the module's member ports. -/
  | mcastWrReceive (port : Nat) (group : Nat) (p : RemoteReq)
  /-- CREDIT_REQ_RECEIVE (R353): A remote CREDIT_REQ is granted, listed or answered CREDIT_BUSY. -/
  | creditReqReceive (port : Nat) (origin : Nat) (tag : Tag) (handle : BitVec 12) (n : BitVec 11)
  /-- CREDIT_RET_RECEIVE (R230): A CREDIT_RET returns credits to an inbox's AVAIL. -/
  | creditRetReceive (handle : BitVec 12) (count : BitVec 16) (gen : BitVec 4)
  /-- RD_RSP_RECEIVE (R351): Read data returns to the home, which retires the tag and forwards the data, or counts it LATE. -/
  | rdRspReceive (tag : Tag) (status : BitVec 8) (data : List Byte)
  /-- WR_ACK_RECEIVE (R351): A write acknowledgement retires its tag at the home. -/
  | wrAckReceive (tag : Tag) (status : BitVec 8)
  /-- CREDIT_GRANT_RECEIVE (R353): A remote credit grant adds to the session's HELD. -/
  | creditGrantReceive (sess : Nat) (status : BitVec 8) (count : Nat) (gen : BitVec 4)
  /-- MC_ACK_RECEIVE (R363): A merged multicast acknowledgement completes a branch, PARTIAL if any part failed. -/
  | mcAckReceive (port : Nat) (tag : Tag) (partialFail : Bool)
  /-- WITHDRAW_FLIT_RECEIVE (R417): A peer's WITHDRAW CTRL flit leads to a handover of the port. -/
  | withdrawFlitReceive (port : Nat)
  /-- C0_PORT_RELEASE (R362): A port admits held class-0 packets at up to C0_ALLOT per µs. -/
  | c0PortRelease (port : Nat)
  /-- REMOTE_WINDOW_WRITE (R357): A write of word 0 of a remote window entry changes the entry for later accesses. -/
  | remoteWindowWrite (tiller i : Nat) (w : Word)
  /-- CFLUSH (R377): CFLUSH writes back every dirty copy of the named lines. -/
  | cflush (t : Tid) (ra : Reg) (n : BitVec 11)
  /-- CFLUSHI (R377): CFLUSHI writes back and invalidates every copy of the named lines. -/
  | cflushi (t : Tid) (ra : Reg) (n : BitVec 11)
  /-- TLBI (R377): TLBI invalidates translations of one page. -/
  | tlbi (t : Tid) (ra : Reg) (all : Bool)
  /-- TLBIA (R377): TLBIA invalidates translations of an ASID, or every translation. -/
  | tlbia (t : Tid) (ra : Reg) (every all : Bool)
  /-- CACHE_MISS_FILL (R381): A Culm cache miss completes when the whole line arrives, unblocking the cache. -/
  | cacheMissFill (k : Nat) (line : Nat) (victim : Option Nat) (l3Victim : Option Nat)
  /-- PREFETCH_FILL (R382): A prefetch fills the side buffer. -/
  | prefetchFill (k : Nat) (line : Nat)
  /-- COHERENCE_PROBE (R383): A coherence probe from a line's home node is served at a cache's tag port. -/
  | coherenceProbe (k : Nat) (line : Nat) (exclusive : Bool)
  /-- CULM_CACHE_ERROR (R386): A Culm cache error is corrected, refetched or fatal by mode and line state. -/
  | culmCacheError (k : Nat) (e : CacheErr) (line : Nat)
  /-- CULM_NODE_FAIL (R387): A Culm node becomes FAILED, releases its lines within 2 ms and stops its clocks. -/
  | culmNodeFail (node : Nat) (cause : Nat)
  /-- CN_STOP (R388): CN_REQ STOP writes back dirty lines and stops the node. -/
  | cnStop (node : Nat)
  /-- CN_START (R388): CN_REQ START resets the node into Mode P and starts its cores. -/
  | cnStart (node : Nat)
  /-- CN_GO_E (R385): CN_CTL GO_E starts the sweep to Mode E. -/
  | cnGoE (node : Nat)
  /-- CN_TEST (R385): CN_CTL TEST runs the array test on a stopped node. -/
  | cnTest (node : Nat)
  /-- CN_SWEEP_END (R385): The sweep ends and the node enters Mode E. -/
  | cnSweepEnd (node : Nat)
  /-- CN_WDOG_KICK (R388): A KICK restarts a Culm node watchdog. -/
  | cnWdogKick (node : Nat)
  /-- CN_WDOG_EXPIRE (R388): A watchdog that reaches PERIOD makes its node FAILED with cause WATCHDOG. -/
  | cnWdogExpire (node : Nat)
  /-- CULM_RESTART (R412): With CULM_RESTART, a failed node is tested, repaired and started as the new replica. -/
  | culmRestart (node : Nat) (rowsMapped : Nat) (ok : Bool)
  /-- IPI_SEND (R371): A write of IPI_SEND sets source 52 + VEC at the target core. -/
  | ipiSend (t : Tid) (w : Word)
  /-- TMR_CMP_WRITE (R390): A write of TMR_CMP sets the timer and clears a pending TIMER. -/
  | tmrCmpWrite (t : Tid) (w : Word)
  /-- TIMER_MATCH (R390): TB reaching TMR_CMP.TIME makes TIMER pending. -/
  | timerMatch (k : Nat)
  /-- ETH_DB_TX (R393): A write of ETH_DB makes the port scan its transmit ring. -/
  | ethDbTx (p : Nat) (w : Word)
  /-- ETH_TX_FRAME_SENT (R393): A transmitted frame's descriptor is written back with OWN = 0 and an optional stamp. -/
  | ethTxFrameSent (p : Nat)
  /-- ETH_FRAME_RECEIVE (R393): A received frame is written to the next owned descriptor with a stamp, or dropped and counted. -/
  | ethFrameReceive (p : Nat) (frame : List Byte) (fcsOk : Bool)
  /-- ETH_LINK_CHANGE (R389): A service port's link state changes, pulsing its source. -/
  | ethLinkChange (p : Nat) (link : BitVec 2)
  /-- PCIE_INBOUND_WRITE (R396): An inbound posted write reaches HBM or the common store in the ordering R396 gives. -/
  | pcieInboundWrite (addr : Word) (data : List Byte) (relaxed : Bool)
  /-- PCIE_INBOUND_READ (R396): An inbound read reaches HBM or the common store, or receives Unsupported Request. -/
  | pcieInboundRead (addr : Word) (len : Nat)
  /-- PCIE_MSI (R396): A 4-byte write to the MSI address pulses source 16 + vector. -/
  | pcieMsi (data : BitVec 32)
  /-- PCIE_LINK_CHANGE (R389): The PCIe link state changes or an error is logged, pulsing source 8. -/
  | pcieLinkChange (link : BitVec 2) (speed width : Nat) (err : Bool)
  /-- MIRROR_WRITE_ARRIVED (R413): The mirror copy or record has arrived, letting the commit proceed. -/
  | mirrorWriteArrived (tiller pair : Nat) (ok : Bool)
  /-- MIRROR_BACKGROUND_COPY (R415): While the session is open again, the live halves of pairs that are not current are copied in the background. -/
  | mirrorBackgroundCopy (tiller pair : Nat)
  /-- REL_WITHDRAW (R416): REL_CMD WITHDRAW, or damage beyond spares, starts withdrawal. -/
  | relWithdraw (cause : Nat)
  /-- WITHDRAW_DRAIN_END (R417): Regions are drained or aborted and the copy to the buddy begins. -/
  | withdrawDrainEnd
  /-- WITHDRAW_COPY_END (R418): The copy ends, the manifest is marked complete, WITHDRAW flits are sent and the ports are disabled. -/
  | withdrawCopyEnd
  /-- WITHDRAW_COMPLETE (R417): The bypass closes and the module becomes WITHDRAWN. -/
  | withdrawComplete
  /-- HEALTH_REPORT (R420): A fault report reaches the Keeper and is written as a health-log entry or merged. -/
  | healthReport (r : Report)
  /-- OTC_CLR (R425): A write of OTC_CLR zeroes the selected own-thread counters. -/
  | otcClr (t : Tid) (ra : Reg)
  /-- CNT_RESET (R428): A command reset zeroes LINK counters and increments SEQ. -/
  | cntReset (node : Nat)
  /-- SMP_ENABLE (R429): Setting SMP_CTL.EN reads and checks the sample list and schedules sample 0. -/
  | smpEnable (i : Nat) (w : Word)
  /-- SMP_DISABLE (R429): Clearing SMP_CTL.EN stops the sampler after any record being written. -/
  | smpDisable (i : Nat) (w : Word)
  /-- SAMPLE_DUE (R430): At T_n the named counters latch and the sampler collects them, or skips the sample. -/
  | sampleDue (i : Nat)
  /-- SAMPLE_WRITTEN (R432): Once the entries and header have arrived, the sampler increments SMP_HEAD. -/
  | sampleWritten (i : Nat)
  /-- WATCH_RECORD_ARRIVED (R435): The watch record arrives and the commit proceeds. -/
  | watchRecordArrived (tiller s : Nat)
  /-- DBG_HALT (R442): DBG_CTL HALT halts a context at the point that R442 gives. -/
  | dbgHalt (t : Tid)
  /-- DBG_RESUME (R443): DBG_CTL RESUME restarts a halted context at DBG_PC. -/
  | dbgResume (t : Tid)
  /-- DBG_STEP (R443): DBG_CTL STEP runs a halted context for one instruction, entry or abandoned wait. -/
  | dbgStep (t : Tid)
  /-- DBG_PC_WRITE (R441): A write of DBG_PC while HALTED sets the resume PC and zeroes DBG_PROG. -/
  | dbgPcWrite (t : Tid) (w : Word)
  /-- REGISTER_WRITE (R21): A write to a control or special register with no behaviour of its own sets its writable fields. -/
  | registerWrite (lvl : Lvl) (addr : Nat) (w : Word)
  /-- RAILS_IN_REGULATION (R453): The rails reach regulation up to 30 ms after POWER_EN rises, and PWR_GOOD rises, moving the pins to RESET or starting reset end. -/
  | railsInRegulation
  /-- DISABLED_CHANNEL_TAG_RECLAIM (R255): 10 µs after a channel is disabled, the session tags it still holds are reclaimed, letting the channel leave DRAINING. -/
  | disabledChannelTagReclaim (c : ChanRef)
  /-- PCIE_INTX_MESSAGE (R389): An INTx message received on the PCIe link pulses interrupt source 9. -/
  | pcieIntxMessage
  /-- REL_RATE_EXPIRE (R398): One second after a tiller's second fault within 10 ms, REL_STAT.RATE clears and PROMISE may return to 1. -/
  | relRateExpire (tiller : Nat)
  /-- PC_COMMAND_PATH_FAILURE (R329): A failure of a pseudo-channel's command path makes the pseudo-channel failed and sets its HBM_PCFAIL bit. -/
  | pcCommandPathFailure (pc : Nat)
deriving DecidableEq, Repr

end Sys2Proof
end

