-- ==== Sys2Proof/Config.lean ====
section
/-! DEFINITION. What stepping B0 fixes (identity and geometry words) and the free values that the spec leaves open. -/

namespace Sys2Proof.Config

/-- The n-th free value of `w` bits: a value the spec leaves open (log entry 1). It has no body, so nothing can be
proved of it. -/
opaque freeBits (w n : Nat) : BitVec w

/-- How a duplicated thread folds a store into its digest (R408): the spec gives no function (log entry 1). -/
opaque digest (old seg off size data : Nat) : BitVec 64

/-- The row of an SRAM bank that holds a word, by cell: the spec gives no row size (log entry 1). -/
opaque rowOf (cell : Nat) : Nat

/-- The bank and row of a stack that hold an HBM codeword, by cell, the pseudo-channel of a stack that a bank belongs to,
and the spare rows that each bank has: the devices as fitted decide them (R319; log entry 1). -/
opaque hbmRowOf (cell : Nat) : Nat × Nat
opaque hbmBankPc (bank : Nat) : Nat
opaque hbmSpareRows : Nat

/-- The set of a Culm cache that a line falls in, and the spare rows of the arrays of a Culm node: the spec gives neither
(log entry 1). -/
opaque cacheSet (line : Nat) : Nat
opaque culmSpareRows : Nat

/-- `LM_IDENT` of the shipping stepping B0 (R491). -/
def lmIdent : Word := 0x53A14D3110010000

/-- `LM_GEOM` words 0 to 7 (R493, Table 3 of chapter 19). -/
def lmGeomWords : List Word :=
  [0x0010201008110040, 0x0420020000100030, 0x0010010040401000, 0x000003000020000C, 0x4008404001000100,
   0x0040010002002008, 0x0000100040000020, 0x0000101001000040]

/-- `LM_GEOM[w]`; words 8 to 15 are RZ (R493). -/
def lmGeom (w : Nat) : Word := lmGeomWords.getD w 0

end Sys2Proof.Config
end

