-- ==== Sys2Proof/Machine/State.lean ====
section
/-! DEFINITION. The state of the module: every register, store, queue and mode the spec gives it, as plain data, with
its value at cold reset (POWER_EN low) as the default of its field. Arrays are `Sparse`: what is not listed holds the
default of its kind. -/

namespace Sys2Proof.Machine

/-- Why a command stops the model. -/
inductive Fault
  /-- Raised by every meaning whose command names a unit that the module does not have (a core above 1,023, a tiller
  above 63, a port above 31 and the like). Safe: the module has no such event. -/
  | noSuchUnit (what : String)
deriving DecidableEq, Repr

/-- Why a command is refused. -/
inductive Refusal
  /-- Raised by `exec` alone, for a command whose meaning is not written. Safe. -/
  | notModelled (mnemonic : String)
deriving DecidableEq, Repr

/-! ## Threads -/

/-- A segment register pair (Tables 3 and 4 of chapter 3). -/
structure Seg where
  base : Word := 0
  bound : Word := 0
deriving DecidableEq, Repr

/-- The four segment pairs of a thread or of a core's `TSEG` (R90, R132). -/
structure Segs where
  s0 : Seg := {}
  s1 : Seg := {}
  s2 : Seg := {}
  s3 : Seg := {}
deriving DecidableEq, Repr

/-- Context states (R125, Table 1 of chapter 5). Context 0 that is not started is `free` here and reads HALTED. -/
inductive CtxState | free | ready | running | waiting | faulted | fenced | halted
deriving DecidableEq, Repr

/-- One save set (R117, Table 6 of chapter 4). -/
structure SaveSet where
  pc : Word := 0
  valid : Bool := false
  plv : Nat := 0
  gate : Bool := false
  step : Bool := false
  sp : Word := 0
  code : Nat := 0
  kind : Nat := 0
  detail : Nat := 0
  orig : Nat := 0
  also : Nat := 0
  addr : Word := 0
  prog : Nat := 0
  depth : Nat := 0
  slim : Nat := 0
deriving DecidableEq, Repr

/-- A credit slot (R226, Table 9 of chapter 8): `range` is the inbox's cached range of local addresses, `seq` the
number of the request whose answer the slot awaits. -/
structure CreditSlot where
  inbox : Nat := 0
  tiller : Nat := 0
  valid : Bool := false
  pending : Bool := false
  held : Nat := 0
  n : Nat := 0
  gen : Nat := 0
  range : Option (Nat × Nat) := none
  seq : Nat := 0
deriving DecidableEq, Repr

/-- Per-context debug registers (R441, Table 9 of chapter 16); `stepping` and `skip` hold a STEP or RESUME in
progress (R443), `late` says that a held halt request waits for the stalled instruction to retire (R442). -/
structure Dbg where
  brkHalt : Bool := false
  byDebugger : Bool := false
  pending : Bool := false
  late : Bool := false
  cause : Nat := 0
  which : Nat := 0
  part : Bool := false
  pc : Word := 0
  prog : Nat := 0
  level : Nat := 0
  bp : Sparse Word := []
  wpa : Sparse Word := []
  wpc : Sparse Word := []
  stepping : Bool := false
  skip : Bool := false
deriving DecidableEq, Repr

/-- What a waiting thread waits for (R122, R136, Table 4 of chapter 5). -/
inductive WaitFor
  /-- data of a load, pop, return, vector or tile load, or descriptor read -/
  | data
  /-- a fence, SYNC.I after a refill, or EXIT: prior accesses complete -/
  | drain
  /-- one of 16 posted stores completes (R86) -/
  | postedRoom
  /-- the range or a credit of a credit slot, for a write to an address (R229) -/
  | credit (slot : Nat) (addr : Word)
  | event (mask : Word) (rd : Reg)
  | counter (ctr : Nat) (value : Nat)
  | join (ctx gen : Nat) (rd : Reg)
  /-- a channel credit: asked, and on the endpoint's list or not yet there -/
  | channelCredit
  | channelMessage (ep : Nat) (rd : Reg)
  | channelOwner (handle : Nat)
  | mmaRoom
  | mmaDone
  | gang (mask : Nat)
  | gangMma
  | tiles
  /-- WFI of a Culm core (R377) -/
  | interrupt
  /-- a Culm cache miss on a line (R381) -/
  | cacheLine (line : Nat)
deriving DecidableEq, Repr

/-- A wait: its reason and the command that waits. -/
structure Wait where
  reason : WaitFor
  instr : Instr
deriving DecidableEq, Repr

/-- A step in flight, named by tiller, schedule context and issue number (R265). -/
structure StepRef where
  tiller : Nat
  sctx : Nat
  serial : Nat
deriving DecidableEq, Repr

/-- One context of a compute core, or the context of a Culm core. -/
structure Ctx where
  st : CtxState := .free
  level : Nat := 2
  g : Sparse Word := []
  v : Sparse VecReg := []
  pc : Word := 0
  segs : Segs := {}
  fpm : Word := 0
  fps : Word := 0
  mxs : Word := 0
  xs0 : SaveSet := {}
  xs1 : SaveSet := {}
  /-- progress handed to the next instruction (R119) -/
  prog : Nat := 0
  /-- elements of the current vector store already sent (R159, R229) -/
  sent : Nat := 0
  /-- single-step armed in the running state (`XST.STEP`, R111) -/
  stepArmed : Bool := false
  /-- code and DETAIL of a trap due at the boundary where the thread stands (R109, R111) -/
  trapDue : Option (Nat × Nat) := none
  /-- a posted store failed and DEFERRED_STORE is due: address and DETAIL (R86, R110) -/
  deferred : Option (Word × Nat) := none
  wait : Option Wait := none
  /-- generation of the context: forks modulo 256 (R128) -/
  gen : Nat := 0
  /-- generation and code of the last EXIT (R129, R130) -/
  lastExit : Option (Nat × Nat) := none
  stage : Sparse Word := []
  rx : Sparse Word := []
  /-- handle of the endpoint whose credit an interrupted CHSEND keeps (R149) -/
  chCredit : Option Nat := none
  crs : Sparse CreditSlot := []
  otc : Sparse Word := []
  dbg : Dbg := {}
  /-- line-aligned SEG0 offset of the fetch buffer and its 128 bytes (R85) -/
  fetchAt : Nat := 0
  fetchBuf : List Byte := []
  dintPend : Word := 0
  dintOver : Nat := 0
  step : Option StepRef := none
  /-- a twin of a duplicated step, and the digest of a duplicated thread (R408) -/
  twin : Bool := false
  dup : Bool := false
  digest : Word := 0
  /-- the thread's gang dissolved (`TE_STAT.DISSOLVED`) -/
  dissolved : Bool := false
  /-- mailbox slot PENDING was set for this context (R115, R116, R135) -/
  mailbox : Bool := false
  /-- level, handler PC and cause of the entry that a MAILBOX descriptor stopped (R116, R135) -/
  entered : Option (Nat × Word × Nat) := none
deriving DecidableEq, Repr

/-! ## The compute core -/

/-- A tile register with its scale area and tag (R165, R166). -/
structure Tile where
  data : Sparse Byte := []
  scale : Sparse Byte := []
  rows : Nat := 0
  cols : Nat := 0
  efmt : Nat := 0
  part : Bool := false
  hasScale : Bool := false
  nextRow : Nat := 0
deriving DecidableEq, Repr

/-- An MMA the engine has accepted, with the FPM captured at acceptance (R171, R172); `gang` lists the member
cores of an MMA.G, and is empty for an MMA. -/
structure AccMma where
  op : MmaOp
  ctx : Nat
  fpm : Word
  gang : List Nat
  /-- the thread was killed before the MMA completed (R173, R199), and the tiles that become EMPTY when it ends -/
  dead : Bool
  empties : List Nat
  step : Option StepRef
deriving DecidableEq, Repr

/-- DMA channel states (Table 8 of chapter 9). -/
inductive ChanState | idle | running | waitCredit | draining | armed
deriving DecidableEq, Repr

/-- A descriptor as decoded (Table 2 of chapter 9). -/
structure Desc where
  op : BitVec 16 := 0
  session : Nat := 0
  esize : Nat := 0
  group : Nat := 0
  mkind : Nat := 0
  src : Nat := 0
  dst : Nat := 0
  count : Nat := 0
  sstride : Nat := 0
  dstride : Nat := 0
  credit : Nat := 0
  index : Nat := 0
  done : BitVec 32 := 0
  evc : BitVec 32 := 0
  next : Nat := 0
deriving DecidableEq, Repr

/-- A burst from its issue to its acknowledgement (R245, R247): source pieces (none: zeros or a pattern), destination
writes, bytes in the funnel, and the descriptor it belongs to. Remote source pieces are numbered from 0 and remote
writes from 512. -/
structure Burst where
  id : Nat
  desc : Nat
  src : List (Option Nat × Nat)
  dst : List (Nat × Nat)
  data : List Byte := []
  /-- source bytes fetched / its writes have left / its writes were performed as they left -/
  read : Bool := false
  left : Bool := false
  performed : Bool := false
  /-- the channel was disabled: its data is discarded -/
  dead : Bool := false
  /-- remote pieces that have reached their session's home, source pieces returned, writes answered -/
  asked : List Nat := []
  got : List (Nat × List Byte) := []
  acks : List Nat := []
  /-- `DCH.ERR` code of the first error met, 0 for none; and a multicast that some member refused -/
  err : Nat := 0
  partialFail : Bool := false
  /-- credits reserved for its writes: inbox handle, GEN and count -/
  credit : Option (Nat × Nat × Nat) := none
deriving DecidableEq, Repr

/-- A descriptor that a channel works on: bursts issued, left the engine and arrived, and the actions that have fired. -/
structure DescRun where
  serial : Nat := 0
  desc : Desc := {}
  /-- the index list, once read -/
  idx : Option (List Nat) := none
  issued : Nat := 0
  left : Nat := 0
  arrived : Nat := 0
  halfDone : Bool := false
  doneFired : Bool := false
  evcFired : Bool := false
  /-- stopped by an error: it ends when its outstanding writes have arrived -/
  failed : Bool := false
  step : Option StepRef := none
deriving DecidableEq, Repr

/-- A DMA channel (R244, Tables 7 to 9 of chapter 9). -/
structure DmaChan where
  en : Bool := true
  st : ChanState := .idle
  prio : Nat := 2
  err : Nat := 0
  descs : Nat := 0
  lost : Nat := 0
  held : Nat := 0
  /-- the inbox whose credits the channel holds, by handle -/
  box : Option Nat := none
  heldGen : Nat := 0
  creditAsked : Bool := false
  /-- answers on their way to the channel: inbox handle, count, GEN, or an error response's DETAIL -/
  creditMsg : List (Nat × Nat × Nat × Nat) := []
  addr : Nat := 0
  /-- address of the next descriptor to read, while the chain goes on -/
  nextDesc : Option Nat := none
  /-- segments captured from a level-2 starter (R242) -/
  captured : Option Segs := none
  runs : List DescRun := []
  bursts : List Burst := []
  serial : Nat := 0
  /-- the step that started the chain in progress -/
  step : Option StepRef := none
  /-- owner of a tiller channel: 0 SEQ, 1 CORE, 2 SUPERVISOR (R243); `none` stands for the number's default -/
  owner : Option Nat := none
  ownerCore : Nat := 0
  sessOk : Bool := false
  mcastOk : Bool := false
deriving DecidableEq, Repr

/-- A compute core by logical number (R12). -/
structure Core where
  ctx : Sparse Ctx := []
  running : Option Nat := none
  slot : Nat := 0
  slotTbl : Word := 0x7654321076543210
  /-- a write of `SLOT_TBL` waiting for the next turn (R138) -/
  slotTblNext : Option Word := none
  ctx0pc : Word := 0
  tseg : Segs := {}
  /-- the Keeper's copy of the core's THREAD_SLOTS and SEGMENTS values (R404) -/
  keptSlot : Word := 0x7654321076543210
  keptTwdog : Nat := 0x14
  keptSegs : Segs := {}
  twdogExp : Nat := 0x14
  twdogFired : Bool := false
  twdogCount : Nat := 0
  /-- the watchdog has fired since its count last restarted (R145) -/
  twdogDone : Bool := false
  gdtb : Word := 0
  xdtb : Word := 0
  evPend : Word := 0
  evOver : Nat := 0
  /-- DEADLOCK_SUSPECT pending for context 0 (R145) -/
  deadlock : Bool := false
  /-- context 0 was woken by the mailbox, the watchdog or an interrupt (R139 step 1) -/
  urgent : Bool := false
  /-- a wake of context 0 by a mailbox slot while it was not in WAITEV (R143) -/
  mailWake : Bool := false
  ctxSel : Word := 0
  ctxCtl : Word := 0
  ctxErr : Bool := false
  town : Word := 0x7766554433221100
  tiles : Sparse Tile := []
  mmaQueue : List AccMma := []
  mmaArray : Option AccMma := none
  teSent : Nat := 0
  /-- mask and context of the thread of this core that is in a gang (R176) -/
  gang : Option (Nat × Nat) := none
  dma : Sparse DmaChan := []
  /-- round-robin position of the core DMA funnel (R248) -/
  dmaLast : Nat := 0
  /-- `TB` time of the last CORE_FAULT outside any step, for R406 -/
  lastFault : Option Nat := none
deriving DecidableEq, Repr

/-! ## The tiller -/

/-- Who waits on an inbox's list (R228). -/
inductive CreditWho
  | slot (t : Tid) (k : Nat) (seq : Nat)
  /-- a pre-grant of a step for a core whose fork still waits (R231, R274) -/
  | pregrant (tiller sctx serial core : Nat)
  | dma (c : ChanRef)
  | stolon (port origin : Nat) (tag : Tag)
deriving DecidableEq, Repr

/-- An inbox (R222, R224, Table 7 of chapter 8) with its part of the waiting list, oldest first. -/
structure Inbox where
  valid : Bool := false
  store : Nat := 0
  core : Nat := 0
  auto : Bool := false
  base : Nat := 0
  length : Nat := 0
  avail : Nat := 0
  gen : Nat := 0
  overrun : Bool := false
  waiters : List (CreditWho × Nat) := []
deriving DecidableEq, Repr

/-- A request on an endpoint's list: CHOWN (`own`) or CHSEND; `dead` after its thread has ended (R148, R149). -/
structure ChWaiter where
  t : Tid
  own : Bool
  dead : Bool
deriving DecidableEq, Repr

/-- A channel endpoint (R146, R150): registers, owner, queue position, slots promised, and the requests waiting on it,
oldest first. -/
structure Endpoint where
  valid : Bool := false
  rxCtx : Nat := 0
  rxCore : Nat := 0
  depth : Nat := 0
  qbase : Nat := 0
  head : Nat := 0
  count : Nat := 0
  promised : Nat := 0
  owner : Option Tid := none
  waiters : List ChWaiter := []
deriving DecidableEq, Repr

/-- A remote window entry (R357, Table 10 of chapter 13): the entry in force and word 1 as last written. -/
structure Window where
  w0 : Word := 0
  w1 : Word := 0
  w1Next : Word := 0
deriving DecidableEq, Repr

/-- A buffer pair (R276). -/
structure Pair where
  valid : Bool := false
  live : Bool := false
  base : Nat := 0
  size : Nat := 0
  /-- mirror state (R413 to R415): commits mirrored, slot holding the live copy, and whether it is current -/
  mirrorSeq : Nat := 0
  mirrorSlot : Bool := false
  mirrorCurrent : Bool := false
  /-- background copy in progress: 0 none, 1 the copy is awaited, 2 its record; and the mirror record last sent (R414) -/
  background : Nat := 0
  mirrorRec : List Byte := []
deriving DecidableEq, Repr

/-- A step record as decoded (Tables 2 and 3 of chapter 10). -/
structure StepRec where
  stepId : Nat := 0
  op : BitVec 16 := 0
  cores : BitVec 16 := 0
  ctx : Nat := 0
  cls : Nat := 0
  dup : Bool := false
  dmaCh : Nat := 0
  pregrant : Nat := 0
  pc : Nat := 0
  sp : Nat := 0
  args : Nat := 0
  commit : Nat := 0
  dmaList : Word := 0
  ctrA : Nat := 0
  ctrB : Nat := 0
  incA : Nat := 0
  incB : Nat := 0
  argSub : BitVec 16 := 0
  valA : Nat := 0
  valB : Nat := 0
  loop : Word := 0
  /-- an RZ bit or reserved value is set (R269) -/
  bad : Bool := false
deriving DecidableEq, Repr

/-- An entry of a commit list (R277). -/
inductive CommitEntry
  | flip (tiller pair : Nat)
  | inc (handle : Nat) (amount : Nat)
deriving DecidableEq, Repr

/-- A step in flight (R265, R273, R275, R281). -/
structure Step where
  serial : Nat
  rec' : StepRec
  index : Nat
  iter : Nat
  /-- private copies made at issue (R273): argument words after substitution, commit list, chain address -/
  args : List Word
  commit : List CommitEntry
  chain : Nat
  /-- cores whose fork still waits for a free context (R274) -/
  forksLeft : List (Nat × Bool)
  /-- pre-granted credits of cores whose fork still waits (core, count, GEN), and threads whose pre-grant is pending,
  with the number of the request (R231, R274) -/
  preHeld : List (Nat × Nat × Nat)
  preWait : List (Tid × Nat)
  /-- threads forked that have not exited, and digests of duplicated threads that have -/
  live : List Tid
  digests : List (Nat × Bool × Word)
  dmaDone : Bool
  failed : Bool
  /-- a fault waits for its replay (R281); the threads it killed; a self-test due first (R410) -/
  replayDue : Bool
  killed : List Tid
  testDue : Bool
  faults : Nat
  mismatches : Nat
  /-- physical positions that earlier faults were attributed to (R282) -/
  blamed : List Nat
  /-- the replay goes to the spare in place of this core (R282) -/
  spareFor : Option Nat
  replayed : Bool
  /-- before commit (R413, R435): whether the watch and the mirroring have begun, watch records still to act on, and
  mirrored pairs still to copy, each with whether its copy has arrived and its record is awaited -/
  watched : Bool
  watchLeft : List Nat
  mirrored : Bool
  mirrorLeft : List (Nat × Bool)
  flushes : Nat
  blkufs : Nat
deriving DecidableEq, Repr

/-- Schedule context states (Table 4 of chapter 10). -/
inductive SqState | idle | running | stopped | aborting | aborted | done
deriving DecidableEq, Repr

/-- A schedule context (R270, Table 4 of chapter 10). -/
structure SqCtx where
  op : Nat := 0
  maxflight : Nat := 1
  base : Nat := 0
  /-- base and MAXFLIGHT in force since the last START -/
  baseNow : Nat := 0
  maxNow : Nat := 1
  st : SqState := .idle
  err : Nat := 0
  next : Nat := 0
  iter : Nat := 0
  replays : Nat := 0
  faultStep : Nat := 0
  faultCause : Nat := 0
  faultCore : Nat := 0
  faultSpare : Bool := false
  steps : List Step := []
  /-- a record with END has issued: nothing after it issues -/
  ended : Bool := false
deriving DecidableEq, Repr

/-- A class-0 message toward a tiller (R51, R55): an increment of a counter or a FLIP; an increment on its way to a port
node for another module (R361); or an increment of a counter in every member tiller of a tree (R257), or in every module
of a Stolon group (R363). -/
inductive C0Msg
  | inc (ctr : Nat) (amount : Nat)
  | flip (pair : Nat)
  | away (module tiller ctr amount : Nat)
  | tree (plane : Nat) (members : Word) (ctr : Nat)
  | awayTree (port group ctr : Nat)
deriving DecidableEq, Repr

/-- A Thallus token (R291). -/
structure Token where
  data : List Byte
  epoch : Nat
  last : Bool
  null : Bool
deriving DecidableEq, Repr

/-- A Thallus unit record as decoded (Tables 5 and 6 of chapter 11). -/
structure UnitRec where
  mode : Nat := 0
  ftz : Bool := false
  rm : Nat := 0
  fires : Nat := 0
  fmt : Nat := 0
  shape : Nat := 0
  opt : Nat := 0
  kgroup : Nat := 0
  width : Nat := 0
  nops : Nat := 0
  const : Nat := 0
  ops : List Nat := []
  addr : Nat := 0
  count0 : Nat := 0
  count1 : Nat := 0
  stride1 : Nat := 0
  pair : Nat := 0
  halfsel : Nat := 0
  aowop : Nat := 0
  session : Nat := 0xFFFF
  mcast : Option Nat := none
  count : Nat := 0
deriving DecidableEq, Repr

/-- A Thallus unit: its record and its runtime state (R295). -/
structure Unit where
  valid : Bool := false
  rec' : UnitRec := {}
  /-- the wave it works in or is to begin, its firings in it, whether it has begun it and the live half fixed then -/
  wave : Nat := 0
  fired : Nat := 0
  begun : Bool := false
  live : Bool := false
  r0 : VecReg := 0
  r1 : VecReg := 0
  r2 : VecReg := 0
  /-- M-unit: tokens taken by input port and not yet used, resident operands, the accumulator's encodings -/
  stage : Sparse (List Token) := []
  resA : List Token := []
  resB : List Token := []
  acc : List Nat := []
  /-- tokens of a firing still to be sent on output 0 -/
  out : List Token := []
  pos : Nat := 0
  /-- a LOOP in progress: condition tokens of value 1 left, and the D0 token it holds -/
  loopLeft : Option Nat := none
  hold : Option Token := none
  /-- inputs that have delivered LAST in this wave (R301) -/
  seen : List Nat := []
  /-- P-unit under a session: blocks asked for and fetched, by wave and number; writes not yet acknowledged, by wave,
  number and offset, with whether each has left -/
  asked : List (Nat × Nat) := []
  fetched : List (Nat × Nat × List Byte) := []
  outbox : List (Nat × Nat × Nat × List Byte × Bool) := []
deriving DecidableEq, Repr

/-- A Thallus queue of a consumer's tiller (R292, R315, Table 8 of chapter 11): its record, the tokens queued, those
sent and not yet arrived, and the credits its producer holds. -/
structure TQueue where
  valid : Bool := false
  producer : Nat := 0
  pport : Nat := 0
  cport : Nat := 0
  consumer : Nat := 0
  depth : Nat := 0
  store : Nat := 0
  flags : Nat := 0
  tokens : List Token := []
  transit : List Token := []
  credits : Nat := 0
  /-- credits popped and not yet returned, each with its epoch -/
  returning : List Nat := []
  full : Nat := 0
deriving DecidableEq, Repr

/-- Wave controller states (Table 12 of chapter 11). -/
inductive WaveState | idle | running | stopped | aborting | aborted | done | replaying
deriving DecidableEq, Repr

/-- The Thallus part of a tiller (R317, Tables 11 and 12 of chapter 11). -/
structure Thallus where
  on : Bool := false
  purging : Bool := false
  epoch : Nat := 0
  stale : Nat := 0
  imbal : Nat := 0
  purged : Nat := 0
  flags : Nat := 0
  wctl : Nat := 0
  st : WaveState := .idle
  err : Nat := 0
  wave : Nat := 0
  replays : Nat := 0
  /-- waves in flight, oldest first, with the replays each has had and the physical cores (tiller, position) blamed -/
  inflight : List (Nat × Nat × List (Nat × Nat)) := []
  faultWave : Nat := 0
  faultCause : Nat := 0
  faultUnit : Nat := 0
  faultSpare : Bool := false
  /-- the controller was STOPPED, or a DRAIN came, before the replay in progress; and the core whose spare it waits for -/
  stopAfter : Bool := false
  spareFor : Option Nat := none
  watched : Bool := false
  watchLeft : List Nat := []
  mirrored : Bool := false
  mirrorLeft : List (Nat × Bool) := []
  queues : Sparse TQueue := []
deriving DecidableEq, Repr

/-- SRAM row and bank repair of a store instance (R399, R400): rows that spare rows replace, as bank and row, whether the
spare bank is used, words scrubbed so far, and the scrub pass (from 1) in which a row first showed a correctable error, by
row and bank. -/
structure SramRepair where
  rows : List (Nat × Nat) := []
  bankUsed : Bool := false
  scrubAt : Nat := 0
  seen : Sparse Nat := []
deriving DecidableEq, Repr

/-- A tiller: its step sequencer, counters, endpoints, inboxes, windows, DMA engine, spare and Thallus state. -/
structure Tiller where
  evc : Sparse (BitVec 32) := []
  c0 : List C0Msg := []
  sq : Sparse SqCtx := []
  sqLast : Nat := 0
  sqSerial : Nat := 0
  pairs : Sparse Pair := []
  eps : Sparse Endpoint := []
  inboxes : Sparse Inbox := []
  windows : Sparse Window := []
  dch : Sparse DmaChan := []
  dmaLast : Nat := 0
  aowInv : Nat := 0
  aowOvf : Nat := 0
  /-- spare core (R403, Table 10 of chapter 15) -/
  spareServes : Option Nat := none
  spareLost : Bool := false
  hold : Bool := false
  takeover : Option Nat := none
  coreFaults : Nat := 0
  lastFault : Option Nat := none
  rate : Bool := false
  rateAt : Nat := 0
  sramCe : Nat := 0
  sramUe : Nat := 0
  th : Thallus := {}
  twRecords : Nat := 0
  twErrors : Nat := 0
  twDumpAt : Nat := 0
deriving DecidableEq, Repr

/-! ## Mesh nodes, halves, time -/

/-- A health-log entry (Table 7 of chapter 15). -/
structure HealthEntry where
  stamp : Word := 0
  source : Nat := 0
  cause : Nat := 0
  action : Nat := 0
  flags : Nat := 0
  node : Nat := 0
  unit : Nat := 0
  stepId : Nat := 0
  count : Nat := 0
  detail : Nat := 0
deriving DecidableEq, Repr

/-- The router and counter unit of a node (Tables 2 to 7 of chapter 1, Table 2 of chapter 16). -/
structure Node where
  slot : Word := 0x0000000100000001
  arb : Word := 0x0000000001020444
  held : Nat := 0
  deny : Nat := 0
  slotfix : Bool := false
  destLo : Word := 0xFFFFFFFFFFFFFFFF
  destHi : Word := 0x0000000FFFFFFFFF
  ovr : Sparse Word := []
  /-- class-0 buckets and flits admitted in this frame, for planes 0 and 1 (R31) -/
  tokens0 : Nat := 1
  tokens1 : Nat := 1
  admitted0 : Nat := 0
  admitted1 : Nat := 0
  /-- position of the next token of the frame, counted in tokens -/
  tokenNo : Nat := 0
  /-- class-0 flits waiting in the injection queue, with their destination nodes (R31) -/
  waiting : List (Nat × C0Msg) := []
  /-- R402, by channel (direction + 4 · plane): times of the retries in the last microsecond; channels whose last flit was
  a class-0 flit to be sent again -/
  retries : Sparse (List Nat) := []
  c0Again : List Nat := []
  cntSel : Sparse Word := []
  cntVal : Sparse Word := []
  cntSeq : Nat := 0
  ctxMask : Nat := 0
  grantFirst : Nat := 0
  grantLast : Nat := 0
  grantEn : Bool := false
  /-- `RACHIS_STAT` of nodes (4, y) and (5, y) -/
  parkedAns : Nat := 0
  c0drop : Nat := 0
  /-- health reports queued at the node, oldest first (R420) -/
  reports : List HealthEntry := []
deriving DecidableEq, Repr

/-- States of a half (Table 14 of chapter 1). -/
inductive HalfState | running | slowed | parking | parked | unparking
deriving DecidableEq, Repr

/-- A half of the die (R38, R42, R44): its state, targets, clocks in force and mesh-cycle count. -/
structure HalfRec where
  st : HalfState := .slowed
  coreT : Nat := 6
  meshT : Nat := 6
  coreF : Nat := 6
  meshF : Nat := 6
  /-- a raise waiting for the supply (R38) -/
  raising : Bool := false
  meshCycle : Nat := 0
  locked : Bool := false
deriving DecidableEq, Repr

/-- The time base and its registers (R45 to R50, Table 18 of chapter 1). -/
structure Time where
  tb : Nat := 0
  counting : Bool := false
  /-- a hold: `TB` resumes when the parent's time reaches it (R49) -/
  holding : Bool := false
  aligned : Bool := false
  realign : Bool := false
  /-- copies whose next stamp carries RESYNC: 0 West, 1 East, 2 node (9,9) and the other domains -/
  resync : Sparse Nat := []
  master : Bool := false
  locked : Bool := false
  stepped : Bool := false
  holdover : Bool := false
  beaconPer : Nat := 0x10
  slew : Int := 0
  offset : Int := 0
  parent : Nat := 0xFF
  alt : Nat := 0xFF
  missed : Nat := 0
  /-- t1 of the exchange in progress; the beacons go to TIME_ALT (R366); slew not yet worth a nanosecond, in units of
  10⁻⁸ ns -/
  t1 : Option Nat := none
  onAlt : Bool := false
  frac : Int := 0
deriving DecidableEq, Repr

/-! ## Requests in flight -/

/-- What an access in flight does: a store of bytes, an accumulate-on-write with its operand, or a remote load of a
number of bytes. -/
inductive ReqKind
  | store (data : List Byte)
  | aow (op : AowOp) (x : Word)
  | load (len : Nat)
deriving DecidableEq, Repr

/-- A posted store, accumulate-on-write or remote load in flight (R86, R217): the level it was issued at, its credit's
inbox and GEN, and once performed its response (0 for OK, else the R110 DETAIL and the address). The writes of one vector
store share a `group` and count as one posted store (R159). -/
structure Req where
  id : Nat
  group : Nat
  /-- its acknowledgement has returned -/
  acked : Bool
  src : Tid
  addr : Word
  kind : ReqKind
  level : Nat
  credit : Option (Nat × Nat)
  resp : Option (Nat × Word)
  /-- bytes a remote load has returned -/
  back : List Byte
  /-- the remote module and session it travels under (R358) -/
  session : Option (Nat × Nat)
  /-- a scalar access, the only kind that control registers accept (R21) -/
  scalar : Bool
  /-- the thread was killed: the response is discarded (R135) -/
  dead : Bool
deriving DecidableEq, Repr

/-- A credit message between a slot and an inbox (R228): on its way there, or the answer on its way back. -/
inductive CreditBody
  | request (n : Nat)
  | grant (k gen : Nat) (range : Option (Nat × Nat))
  | notice (range : Nat × Nat)
  | error (detail : Nat)
deriving DecidableEq, Repr

/-- A credit message with the slot it belongs to. -/
structure CreditMsg where
  t : Tid
  slot : Nat
  seq : Nat
  inbox : Nat
  tiller : Nat
  body : CreditBody
deriving DecidableEq, Repr

/-- Progress of a channel credit request (R148): on its way to the tiller, or its answer on its way back (granted, full
or owned elsewhere, or an error DETAIL). -/
inductive ChBody
  | asking
  | granted
  | turnedAway
  | error (detail : Nat)
deriving DecidableEq, Repr

/-- A channel credit request or answer in flight. -/
structure ChCredit where
  t : Tid
  handle : Nat
  nb : Bool
  own : Bool
  /-- its thread has ended: a credit granted goes back (R149) -/
  dead : Bool
  body : ChBody
deriving DecidableEq, Repr

/-- A channel message in flight (R148). -/
structure ChMsg where
  tiller : Nat
  ep : Nat
  header : Word
  words : List Word
deriving DecidableEq, Repr

/-! ## Regions and the loader -/

/-- Region states (Table 8 of chapter 2). -/
inductive RegState | undefined | serving | draining | quiescent | loading | checking
deriving DecidableEq, Repr

/-- A region (R64, R74, R487, R434): `image` is where its image lies, `hash` what was recorded for it. -/
structure Region where
  st : RegState := .undefined
  mode : Nat := 0
  blocks : BitVec 16 := 0
  zeroise : Bool := false
  image : Nat := 0
  imageLen : Nat := 0
  hash : List Byte := []
  /-- the load under way is a region reset (R487) -/
  drainTimeout : Bool := false
  /-- Thallus array header bytes of the region, empty without one (R313) -/
  array : List Byte := []
  /-- tensor-watch section body, empty without one (R434) -/
  watch : List Byte := []
  /-- contexts and arrays that START when the region enters SERVING (R287, R313) -/
  autostart : List (Nat × Nat) := []
  arrayAuto : Bool := false
  checkTries : Nat := 0
deriving DecidableEq, Repr

/-- An interleave range (Table 5 of chapter 2), in GiB. -/
structure HbmRange where
  base : Nat
  size : Nat
  mode : Nat
  target : Nat
deriving DecidableEq, Repr

/-- INTERLEAVE in force (R67, R498). -/
structure Interleave where
  csMode : Nat := 0
  ranges : List HbmRange := [⟨0, 768, 0, 0⟩]
deriving DecidableEq, Repr

/-- DEVICE settings in force (R68). -/
structure Device where
  coreW : Nat := 6
  meshW : Nat := 6
  coreE : Nat := 6
  meshE : Nat := 6
  culmF : Nat := 6
  parkEn : Bool := false
  unparkEv : Bool := false
  unparkEvc : Nat := 0
deriving DecidableEq, Repr

/-- A session template (Table 8a of chapter 13). -/
structure Template where
  valid : Bool := false
  rights : Nat := 0
  tagShare : Nat := 0
  base : Nat := 0
  length : Nat := 0
  credit : Nat := 0
deriving DecidableEq, Repr

/-- An EXPOSE or COUNTERS record (Table 8a of chapter 13). -/
inductive ExposeRec
  | memory (rights first last base length : Nat)
  | counters (firstCtr lastCtr first last : Nat) (tillers : Word)
deriving DecidableEq, Repr

/-- A multicast group record (Table 13 of chapter 9). -/
structure McGroup where
  valid : Bool := false
  plane : Nat := 0
  local' : Nat := 0xFF
  root : Nat := 0
  members : Word := 0
  branches : List Nat := []
deriving DecidableEq, Repr

/-- A route range record (Table 7 of chapter 13). -/
structure RouteRange where
  first : Nat
  last : Nat
  primary : Nat
  alt1 : Nat
  alt2 : Nat
  vc : Nat
deriving DecidableEq, Repr

/-- RELIABILITY settings in force (Table 9 of chapter 15); `none` when no section is. -/
structure Reliability where
  buddy : Nat := 0xFFFF
  sess : Nat := 0
  template : Nat := 0
  mirrorEn : Bool := false
  withdrawEn : Bool := false
  culmRestart : Bool := false
  primary : Nat := 0
  replica : Nat := 1
  mirrorBase : Nat := 0
  mirrorLen : Nat := 0
  wdrBase : Nat := 0
  wdrLen : Nat := 0
  pairs : List Word := []
  persist : List (Nat × Nat) := []
deriving DecidableEq, Repr

/-- A section header of an image as decoded: its index from 1, offset in the image, type, REQUIRED, body length and REGION
(Table 2 of chapter 2). -/
structure Sec where
  idx : Nat
  off : Nat
  type : Nat
  required : Bool
  len : Nat
  region : Nat
deriving DecidableEq, Repr

/-- An entry of a REGIONS section (Table 4 of chapter 2). -/
structure RegEntry where
  region : Nat
  mode : Nat
  zeroise : Bool
  blocks : Nat
deriving DecidableEq, Repr

/-- Router tables of a node, kept in Keeper memory from the loader's first read (R79). -/
structure NodeTables where
  node : Nat
  slot : Word
  arb : Word
  destLo : Word
  destHi : Word
  ovr : Sparse Word
deriving DecidableEq, Repr

/-- The Thatch loader (R82, Tables 9 to 14 of chapter 2) and what the images in force set. -/
structure Loader where
  op : Nat := 0
  purgeBit : Bool := false
  mask : Nat := 0
  busy : Bool := false
  /-- the command waits for a withdrawal to end (R416) -/
  waiting : Bool := false
  src : Nat := 0
  code : Nat := 0
  sectIdx : Nat := 0
  offset : Nat := 0
  skipped : Nat := 0
  drainLim : Nat := 0x2710
  lastId : Word := 0
  /-- the load in progress: address and length of its image, hash of the whole and of the sections read twice, IMAGE_ID,
  whether it loads as a base image, whether a region reset carries it, and whether the image's kind is BASE (R487) -/
  image : Nat := 0
  length : Nat := 0
  whole : List Byte := []
  hash : List Byte := []
  imageId : Word := 0
  isBase : Bool := false
  isReset : Bool := false
  /-- its sections as first read, the sessions of redefined templates whose close it waits for (R354), and the INTERLEAVE
  that applies at its end (R498) -/
  fromBase : Bool := false
  secs : List Sec := []
  closing : List Nat := []
  nextInterleave : Option Interleave := none
  entries : List RegEntry := []
  /-- regions not yet written and not yet checked; the second read differed; the code of a failure (R79) -/
  toWrite : List Nat := []
  toCheck : List Nat := []
  changed : Bool := false
  failed : Nat := 0
  /-- regions that a region reset has still to load (R487) -/
  resetLeft : List Nat := []
  kept : List NodeTables := []
  interleave : Interleave := {}
  device : Device := {}
  ownerDie : Sparse Nat := []
  ownerStolon : Sparse Nat := []
  ownerTmpl : Sparse (Nat × Nat) := []
  dieGroups : Sparse McGroup := []
  stolonGroups : Sparse McGroup := []
  templates : Sparse Template := []
  expose : List ExposeRec := []
  routes : List RouteRange := []
  portEnable : Nat := 0
  bond : Nat := 0
  portC0 : Nat := 0x10
  holdUs : Nat := 20
  peers : Sparse Nat := []
  rel : Option Reliability := none
  /-- the base image has been applied once since reset -/
  baseLoaded : Bool := false
deriving DecidableEq, Repr

/-! ## HBM -/

/-- An HBM controller and its stack (R334, Table 5 of chapter 12). -/
structure Stack where
  st : Nat := 0
  lanes : Nat := 0
  repairing : Bool := false
  temp : Nat := 0
  max : Nat := 0
  double : Bool := false
  throttle : Bool := false
  ce : Nat := 0
  ue : Nat := 0
  rows : Nat := 0
  spareMin : Nat := 0
  period : Nat := 0x18
  periodNext : Nat := 0x18
  progress : Nat := 0
  passes : Nat := 0
  pcfail : Nat := 0
  /-- rows repaired by bank, and the remap table: bank and row (R328) -/
  bankRows : Sparse Nat := []
  remap : List (Nat × Nat) := []
deriving DecidableEq, Repr

/-! ## Stolon -/

/-- Port states (Table 12 of chapter 13). -/
inductive PortState | disabled | training | up | down | refused | miswired | handover
deriving DecidableEq, Repr

/-- What a packet carries (Table 3 of chapter 13). A tag is named with its home port node. -/
inductive PktBody
  /-- a request under a session: remote offset, credit GEN (R351) -/
  | sess (tag : Tag) (offset length gen : Nat) (kind : SessKind)
  | evinc (tiller ctr : Nat) (amount : Nat)
  | beacon (t1 t2 t3 : Nat) (rsp : Bool)
  | rdRsp (tag : Tag) (status : Nat) (data : List Byte)
  | wrAck (tag : Tag) (status : Nat)
  | creditReq (sess handle n : Nat)
  | creditGrant (tag : Tag) (status count gen : Nat)
  | creditRet (handle count gen : Nat)
  | mcast (group : Nat) (offset : Nat) (data : List Byte) (tag : Tag)
  | mcAck (tag : Tag) (partialFail : Bool)
  | mcEvinc (group ctr : Nat)
  | linkState (port seq : Nat)
  /-- a packet on its way through this module: its origin, tag and TYPE -/
  | transit (origin : Nat) (tag : Tag) (type : Nat)
deriving DecidableEq, Repr

/-- A packet with its destination module, class and HOPS. -/
structure Packet where
  dest : Nat
  cls : TClass
  hops : Nat
  body : PktBody
deriving DecidableEq, Repr

/-- A flit kept for replay (R340): its SEQ and the packet that it carries. -/
structure KeptFlit where
  seq : Nat
  packet : Packet
deriving DecidableEq, Repr

/-- Flits without packets that a port sends (Table 2 of chapter 13): its own IDENT, a NAK or ACK with its SEQ, a lane
change, a WITHDRAW. -/
inductive CtlFlit
  | ident
  | nak (seq : Nat)
  | ack (seq : Nat)
  | lanes (n : Nat)
  | withdraw
deriving DecidableEq, Repr

/-- A Stolon port (R368, Tables 11 and 12 of chapter 13) and its link layer (R340). -/
structure Port where
  en : Bool := false
  c0Allot : Nat := 0x10
  st : PortState := .disabled
  lanes : Nat := 0
  lanesDropped : List Nat := []
  refusal : Nat := 0
  proto : Nat := 0
  peerId : Nat := 0
  peerPort : Nat := 0
  peerIdent : Word := 0
  replays : Nat := 0
  laneDrops : Nat := 0
  downs : Nat := 0
  /-- link layer: next SEQ to send, flits kept, packets waiting for the replay buffer, SEQ of the last NAK and how often,
  SEQ expected, discarding after an error, flits received since the last ACK, ACK last sent; the port trains again once
  it is DOWN -/
  txSeq : Nat := 0
  kept : List KeptFlit := []
  txWait : List Packet := []
  nakSeq : Nat := 0
  naks : Nat := 0
  rxSeq : Nat := 0
  discarding : Bool := false
  sinceAck : Nat := 0
  ackSent : Nat := 0
  retrain : Bool := false
  /-- packets and other flits that left on this port, newest last (the link's output) -/
  out : List Packet := []
  ctlOut : List CtlFlit := []
  /-- class-0 packets waiting for R362 and those admitted in this microsecond -/
  c0Wait : List Packet := []
  c0Sent : Nat := 0
deriving DecidableEq, Repr

/-- A tag held in a port node's pool (R351, R352): its session, requester and bytes. -/
structure TagUse where
  sess : Option Nat
  req : Requester
  write : Bool
  /-- a multicast's branches still to acknowledge, and whether one failed (R363) -/
  branches : List Nat
  failed : Bool
deriving DecidableEq, Repr

/-- A port node: commands, counts and tag pool (R352, R368). -/
structure PortNode where
  cmdOp : Nat := 0
  cmdSess : Nat := 0
  cmdModule : Nat := 0
  cmdTemplate : Nat := 0
  result : Nat := 0
  busy : Bool := false
  hopDrop : Nat := 0
  c0Deny : Nat := 0
  lost : Nat := 0
  mcPartial : Nat := 0
  tags : Sparse (Option TagUse) := []
  /-- the session that last held a tag that was reclaimed (R351) -/
  reclaimed : Sparse (Option Nat) := []
  /-- requests waiting for a tag or a credit, oldest first (R352, R353), and the session served last -/
  waiting : List SessReq := []
  turn : Nat := 0
deriving DecidableEq, Repr

/-- A multicast write received and not yet acknowledged (R363): the port and module it came from, its tag, whether local
delivery or a branch failed, and the ports whose MC_ACK is awaited. -/
structure McPending where
  port : Nat
  origin : Nat
  tag : Tag
  failed : Bool
  left : List Nat
deriving DecidableEq, Repr

/-- A session entry (Table 8 of chapter 13). -/
structure Session where
  st : Nat := 0
  rights : Nat := 0
  template : Nat := 0
  module : Nat := 0
  tagShare : Nat := 0
  base : Nat := 0
  length : Nat := 0
  credit : Nat := 0
  held : Nat := 0
  heldGen : Nat := 0
  outstanding : Nat := 0
  lastErr : Nat := 0
  errors : Nat := 0
  late : Nat := 0
  opened : Word := 0
  errStamp : Word := 0
  asked : Bool := false
  busyRetry : Bool := false
deriving DecidableEq, Repr

/-- Destinations held at this module (R347, R348), by the ports UP before and after a change of one port: in a handover
those whose choice was the port, after its return those whose choice it becomes. The packets that wait, oldest first, each
with whether it originated here, and the destinations already released. -/
structure Hold where
  port : Nat
  restore : Bool
  before : List Nat
  after : List Nat
  packets : List (Packet × Bool) := []
  done : List Nat := []
deriving DecidableEq, Repr

/-! ## Culm complex -/

/-- A translation held by a Culm core's TLBs (R376). -/
structure Tlb where
  asid : Nat
  vpn : Nat
  /-- log2 of the page size: 12, 21 or 30 -/
  shift : Nat
  pte : Word
  pteAt : Nat
deriving DecidableEq, Repr

/-- A Culm core beside its context (R371, R376, R382). -/
structure CulmCore where
  ctx : Ctx := { level := 0 }
  gdtb : Word := 0
  xdtb : Word := 0
  pgEn : Bool := false
  asid : Nat := 0
  root : Nat := 0
  xint : Word := 0
  tmr : Nat := 0
  timerAt : Option Nat := none
  tlb : List Tlb := []
  /-- the core stopped under R123 -/
  stopped : Bool := false
  /-- lines of the side buffer, oldest first, and prefetches on their way (R382) -/
  side : List Nat := []
  prefetch : List Nat := []
deriving DecidableEq, Repr

/-- A line held by the Culm caches (R379 to R383): its 64 bytes, whether some copy is dirty, whether a dirty copy failed
its check, the cores whose L2 holds it, the node whose L3 does, and its reuse bit. -/
structure CacheLine where
  present : Bool := false
  data : List Byte := []
  dirty : Bool := false
  bad : Bool := false
  cores : List Nat := []
  l3 : Option Nat := none
  reuse : Bool := false
deriving DecidableEq, Repr

/-- A Culm node (R387, R388, Tables 7 and 8 of chapter 14); `wdogAt` is when its watchdog's count last restarted. -/
structure CulmNode where
  mode : Nat := 0
  ce : Nat := 0
  cleanInv : Nat := 0
  rows : Nat := 0
  st : Nat := 0
  cause : Nat := 0
  period : Nat := 0
  wdogAt : Nat := 0
deriving DecidableEq, Repr

/-- A service Ethernet port (Table 12 of chapter 14). -/
structure EthPort where
  en : Bool := false
  promisc : Bool := false
  link : Nat := 0
  rxDrop : Nat := 0
  fcsErr : Nat := 0
  txSize : Nat := 0
  txBase : Nat := 0
  rxSize : Nat := 0
  rxBase : Nat := 0
  txNext : Nat := 0
  rxNext : Nat := 0
  scanning : Bool := false
  mac : Nat := 0
  /-- frames sent on the wire, newest last -/
  sent : List (List Byte) := []
deriving DecidableEq, Repr

/-- The PCIe root port (Table 13 of chapter 14). -/
structure Pcie where
  en : Bool := false
  maxSpeed : Nat := 5
  link : Nat := 0
  speed : Nat := 0
  width : Nat := 0
  aer : Nat := 0
  win : Nat := 0
  /-- the data last answered to an inbound read -/
  reply : Option (List Byte) := none
deriving DecidableEq, Repr

/-! ## Power, boot, reliability, observation -/

/-- Power phases (R453, R459, R462). -/
inductive Phase | off | starting | reset | running | tripped
deriving DecidableEq, Repr

/-- Power, pins and the management bus (chapter 17). -/
structure Power where
  phase : Phase := .off
  powerEn : Bool := false
  present : Bool := false
  /-- a rise of POWER_EN is heeded: it has been low for 100 ms since the last turn-off (R453) -/
  restartOk : Bool := true
  /-- the module waits for VIN to reach 39.0 V (R451) -/
  waitVin : Bool := false
  thermal : Bool := false
  /-- VIN and input current as last measured, in units of 10 mV and 10 mA; the powers of the last 100 µs in units of 100 µW -/
  vin : Nat := 0
  iin : Nat := 0
  samples : List Nat := []
  pavg : Nat := 0
  fast : Bool := false
  localClk : Bool := false
  tdie : Nat := 0
  tinlet : Nat := 0
  holridCap : Nat := 0xB54
  carrierCap : Nat := 0xB54
  alertSrc : Nat := 0
  alertEn : Nat := 0
  carrierAlert : Nat := 0
  carrierEn : Nat := 0x1FC
  coreLimit : Nat := 27
  meshLimit : Nat := 24
  /-- DIE_WARN holds the governor down until every sensor reads 97 °C or below (R457) -/
  dieHot : Bool := false
  bypassOpen : Bool := false
  i3cAddr : Nat := 0x2A
  i3cOut : Word := 0
deriving DecidableEq, Repr

/-- The fuse bank (Table 3 of chapter 18). -/
structure Fuses where
  serial : Word := 0
  root : List (List Byte) := [List.replicate 32 0, List.replicate 32 0, List.replicate 32 0]
  rootRevoke : Nat := 0
  cust : Sparse (List Byte) := []
  custProg : Nat := 0
  custRevoke : Nat := 0
  svn : Nat := 0
  /-- DEBUG fuses burnt: 0 OPEN, 1 RECOVERY, 2 CLOSED -/
  debug : Nat := 1
  macBase : Nat := 0
  idN : Nat := 0
  idD : Nat := 0
deriving DecidableEq, Repr

/-- Boot and trust (Table 11 of chapter 18) and the chain (R483, R484). -/
structure Boot where
  stage : Nat := 0
  stop : Nat := 0
  image : Bool := false
  standalone : Bool := false
  debug : Nat := 0
  aFail : Nat := 0
  moduleId : Nat := 0
  readyMs : Nat := 0
  resetEndAt : Nat := 0
  rackId : Nat := 0
  slotId : Nat := 0
  rstOp : Nat := 0
  rstBusy : Bool := false
  rstMask : Nat := 0
  rstCore : Nat := 0
  rstPort : Nat := 0
  chain : Nat := 0
  chainBad : Nat := 0
  claims : Nat := 0
  claimSeen : Bool := false
  objected : Bool := false
  rollStart : Nat := 0
  chainOut : List (List Byte) := []
  lastResult : Nat := 0
  fuseReq : Nat := 0
  attAddr : Nat := 0
  attMask : Nat := 0
  attStatus : Nat := 0
  measIndex : Nat := 0
  measAddr : Nat := 0
  measErr : Bool := false
  meas : Sparse (List Byte) := []
  holridTried : Nat := 0
  culmEntry : Nat := 0x100000
  flashBuf : Sparse Byte := []
deriving DecidableEq, Repr

/-- Withdrawal progress (Table 6 of chapter 15). -/
inductive WdrPhase | none | draining | copying | closing
deriving DecidableEq, Repr

/-- Reliability (Table 10 of chapter 15): state, health log, mirror and withdrawal. -/
structure Rel where
  st : Nat := 0
  cause : Nat := 0
  cmdOp : Nat := 0
  wdr : WdrPhase := .none
  wdrLost : Bool := false
  /-- a withdrawal that waits for a loader command to end (R81, R416) -/
  wdrDue : Option Nat := none
  wdrAt : Word := 0
  mirrorDown : Bool := false
  head : Nat := 0
  lost : Nat := 0
  log : Sparse HealthEntry := []
  /-- the manifest of the withdrawal, as last written at the buddy (R418) -/
  manifest : List Byte := []
  /-- the retirement table kept in flash: physical cores, by tiller · 17 + position (R405) -/
  retired : List Nat := []
deriving DecidableEq, Repr

/-- A sampler (Table 4 of chapter 16). -/
structure Sampler where
  en : Bool := false
  n : Nat := 0
  period : Nat := 0
  list : Nat := 0
  ringBase : Nat := 0
  ringLog : Nat := 0
  head : Nat := 0
  st : Nat := 0
  err : Nat := 0
  skipped : Nat := 0
  entries : List Nat := []
  /-- the period in force, TB of sample 0, number of the next sample due, skips since the last record, and a record being
  written -/
  periodNow : Nat := 0
  t0 : Nat := 0
  due : Nat := 0
  gap : Nat := 0
  busy : Option (List Byte) := none
  /-- TB when the record being written was latched (R431) -/
  latchAt : Nat := 0
  stopping : Bool := false
deriving DecidableEq, Repr

/-- The test access port (R440). -/
structure Tap where
  ir : Nat := 0x01
  status : Nat := 0
  detail : Nat := 0
  data : Word := 0
deriving DecidableEq, Repr

/-- The module. -/
structure State where
  /-- commands waiting, first in, first out -/
  pending : List Instr := []
  cores : Sparse Core := []
  tillers : Sparse Tiller := []
  nodes : Sparse Node := []
  west : HalfRec := {}
  east : HalfRec := {}
  parkEn : Bool := false
  lastRefusal : Nat := 0
  halfReq : Word := 0
  halfBusy : Bool := false
  time : Time := {}
  /-- stored bytes by physical cell; a cell not listed holds 0 -/
  mem : List Host.Cell := []
  /-- words (and HBM codewords) whose check code is bad, and those with one correctable error, by cell -/
  badWords : List Nat := []
  ceWords : List Nat := []
  repairs : List (StoreRef × SramRepair) := []
  reqs : List Req := []
  nextId : Nat := 0
  creditMsgs : List CreditMsg := []
  chCredits : List ChCredit := []
  chMsgs : List ChMsg := []
  /-- step faults and core faults reported to a tiller's sequencer and not yet acted on, with the step where the report
  names one (R115, R280) -/
  faultReports : List (Nat × StepFault × Option StepRef) := []
  units : Sparse Unit := []
  regions : Sparse Region := []
  loader : Loader := {}
  hbmStacks : Sparse Stack := []
  ports : Sparse Port := []
  portNodes : Sparse PortNode := []
  sessions : Sparse Session := []
  mcPending : List McPending := []
  holds : List Hold := []
  culm : Sparse CulmCore := []
  culmNodes : Sparse CulmNode := []
  cache : Sparse CacheLine := []
  /-- `CN_REQ` as last written (Table 8 of chapter 14) -/
  cnReq : Nat := 0
  xintTgt : Sparse Nat := []
  eth : Sparse EthPort := []
  pcie : Pcie := {}
  /-- bytes of the PCIe configuration space and outbound window as last written by the module -/
  pcieMem : Sparse Byte := []
  power : Power := {}
  fuses : Fuses := {}
  boot : Boot := {}
  flashA : Sparse Byte := []
  flashB : Sparse Byte := []
  rel : Rel := {}
  samplers : Sparse Sampler := []
  tap : Tap := {}
  /-- how many free values have been drawn (the model's own field) -/
  freeCtr : Nat := 0
deriving DecidableEq, Repr

/-- The module right after cold reset: POWER_EN low, every field at its default. -/
def State.reset : State := {}

end Sys2Proof.Machine
end

