-- ==== Sys2Proof/Machine/Ops.lean ====
section
/-! DEFINITION. The operations every meaning uses: sparse arrays, the state's units, free values, the address map, memory
with its check codes, stamps, the health log, interrupt sources, event pulses and the choice of the running thread. -/

namespace Sys2Proof.Machine

/-- The answer of a meaning. -/
abbrev Out := Host.Outcome State Fault Refusal

/-- Answers `s`, or stops on a command that names a unit the module does not have. -/
def onUnit (exists? : Bool) (what : String) (s : State) : Out := if exists? then .next s else .fault (.noSuchUnit what)

/-! ## Sparse arrays -/

/-- Entry `k` of a sparse array whose unlisted entries hold `d`. -/
def sget {α : Type} (d : α) : Sparse α → Nat → α
  | [], _ => d
  | (j, a) :: m, k => if j = k then a else sget d m k

/-- The array without entry `k`. -/
def serase {α : Type} (m : Sparse α) (k : Nat) : Sparse α := m.filter (fun p => p.1 != k)

/-- Lists entry `k` before the first larger number. -/
def sinsert {α : Type} (k : Nat) (a : α) : Sparse α → Sparse α
  | [] => [(k, a)]
  | (j, b) :: m => if k < j then (k, a) :: (j, b) :: m else (j, b) :: sinsert k a m

/-- Writes entry `k`: an entry equal to the default is not listed. -/
def sput {α : Type} [DecidableEq α] (d : α) (m : Sparse α) (k : Nat) (a : α) : Sparse α :=
  if a = d then serase m k else sinsert k a (serase m k)

/-- The canonical form: numbers strictly rising, no entry equal to the default. -/
def swf {α : Type} [DecidableEq α] (d : α) (m : Sparse α) : Bool :=
  (m.map Prod.fst).Pairwise (· < ·) && m.all (fun p => p.2 ≠ d)

/-- Adds a number to an ascending list of numbers. -/
def nins (k : Nat) : List Nat → List Nat
  | [] => [k]
  | j :: m => if k < j then k :: j :: m else if k = j then j :: m else j :: nins k m

/-- Removes a number from a list. -/
def ndel (k : Nat) (m : List Nat) : List Nat := m.filter (· != k)

/-- Folds a state change over a list. -/
def forAll {α : Type} (l : List α) (s : State) (f : State → α → State) : State := l.foldl f s

/-! ## Numbers and bytes -/

/-- The low `w` bits of a number as a bit vector. -/
def bv (w n : Nat) : BitVec w := BitVec.ofNat w n

/-- A 64-bit word of a number. -/
def word (n : Nat) : Word := BitVec.ofNat 64 n

/-- A little-endian number (R23). -/
def leNat : List Byte → Nat
  | [] => 0
  | b :: t => b.toNat + 256 * leNat t

/-- The `n` little-endian bytes of a number (R23). -/
def leBytes (n w : Nat) : List Byte := (List.range n).map (fun i => BitVec.ofNat 8 (w >>> (8 * i)))

/-- The little-endian field of `n` bytes at offset `o` of a record. -/
def fld (l : List Byte) (o n : Nat) : Nat := leNat ((l.drop o).take n)

/-- The numbers below `n` whose bit is set. -/
def bitsOf (n w : Nat) : List Nat := (List.range n).filter (fun i => w.testBit i)

/-- `w` with `n` bits from `lo` replaced by `v`. -/
def setField (w : Word) (lo n v : Nat) : Word :=
  word (w.toNat % 2 ^ lo + (v % 2 ^ n) * 2 ^ lo + (w.toNat >>> (lo + n)) * 2 ^ (lo + n))

/-! ## Geometry (chapter 0) -/

/-- The node number of tiller `t` (R11). -/
def tillerNode (t : Nat) : Nat := (t / 8 + 1) * 10 + t % 8 + 1

/-- The tiller at a node, if the node is a tiller node (R10). -/
def nodeTiller (n : Nat) : Option Nat :=
  let x := n % 10
  let y := n / 10
  if 1 ≤ x ∧ x ≤ 8 ∧ 1 ≤ y ∧ y ≤ 8 then some ((y - 1) * 8 + (x - 1)) else none

/-- The half a node lies in (R9). -/
def nodeHalf (n : Nat) : Half := if n % 10 < 5 then .west else .east

/-- The node of HBM controller `i` (R10). -/
def stackNode (i : Nat) : Nat := (if i < 6 then 0 else 90) + [1, 2, 3, 6, 7, 8].getD (i % 6) 0

/-- The node of Culm node `i` (R10). -/
def culmNodeNode (i : Nat) : Nat := [4, 5, 94, 95].getD i 4

/-- The node of Stolon port `p` (R10). -/
def portNodeNode (p : Nat) : Nat := if p < 16 then (p / 2 + 1) * 10 else ((p - 16) / 2 + 1) * 10 + 9

/-- The block of a tiller (R14). -/
def tillerBlock (t : Nat) : Nat := (t / 8 / 2) * 4 + t % 8 / 2

/-- The half of a tiller. -/
def tillerHalf (t : Nat) : Half := nodeHalf (tillerNode t)

/-- The tillers of a block mask. -/
def blockTillers (mask : Nat) : List Nat := (List.range 64).filter (fun t => mask.testBit (tillerBlock t))

/-- The logical cores of a tiller. -/
def tillerCores (t : Nat) : List Nat := (List.range 16).map (t * 16 + ·)

/-- Whether a thread is a Culm core's (unit 1,024 + k). -/
def tidCulm (t : Tid) : Bool := 1024 ≤ t.unit

/-- Whether a thread exists: eight contexts of 1,024 compute cores, one of each of 16 Culm cores (R12, R123). -/
def tidOk (t : Tid) : Bool := (t.unit < 1024 && t.ctx < 8) || (1024 ≤ t.unit && t.unit < 1040 && t.ctx = 0)

/-- The node whose agent a thread is. -/
def tidNode (t : Tid) : Nat := if t.unit < 1024 then tillerNode (t.unit / 16) else culmNodeNode ((t.unit - 1024) / 4)

/-- The half of a thread. -/
def tidHalf (t : Tid) : Half := nodeHalf (tidNode t)

/-! ## Units of the state -/

def State.core (s : State) (n : Nat) : Core := sget {} s.cores n
def State.setCore (s : State) (n : Nat) (c : Core) : State := { s with cores := sput {} s.cores n c }
def State.modCore (s : State) (n : Nat) (f : Core → Core) : State := s.setCore n (f (s.core n))
def State.tiller (s : State) (n : Nat) : Tiller := sget {} s.tillers n
def State.setTiller (s : State) (n : Nat) (t : Tiller) : State := { s with tillers := sput {} s.tillers n t }
def State.modTiller (s : State) (n : Nat) (f : Tiller → Tiller) : State := s.setTiller n (f (s.tiller n))
def State.node (s : State) (n : Nat) : Node := sget {} s.nodes n
def State.modNode (s : State) (n : Nat) (f : Node → Node) : State := { s with nodes := sput {} s.nodes n (f (s.node n)) }
def State.region (s : State) (n : Nat) : Region := sget {} s.regions n
def State.modRegion (s : State) (n : Nat) (f : Region → Region) : State :=
  { s with regions := sput {} s.regions n (f (s.region n)) }
def State.stack (s : State) (n : Nat) : Stack := sget {} s.hbmStacks n
def State.modStack (s : State) (n : Nat) (f : Stack → Stack) : State := { s with hbmStacks := sput {} s.hbmStacks n (f (s.stack n)) }
def State.port (s : State) (n : Nat) : Port := sget {} s.ports n
def State.modPort (s : State) (n : Nat) (f : Port → Port) : State := { s with ports := sput {} s.ports n (f (s.port n)) }
def State.portNode (s : State) (n : Nat) : PortNode := sget {} s.portNodes n
def State.modPortNode (s : State) (n : Nat) (f : PortNode → PortNode) : State :=
  { s with portNodes := sput {} s.portNodes n (f (s.portNode n)) }
def State.session (s : State) (n : Nat) : Session := sget {} s.sessions n
def State.modSession (s : State) (n : Nat) (f : Session → Session) : State :=
  { s with sessions := sput {} s.sessions n (f (s.session n)) }
def State.culmCore (s : State) (n : Nat) : CulmCore := sget {} s.culm n
def State.modCulm (s : State) (n : Nat) (f : CulmCore → CulmCore) : State := { s with culm := sput {} s.culm n (f (s.culmCore n)) }
def State.culmNode (s : State) (n : Nat) : CulmNode := sget {} s.culmNodes n
def State.modCulmNode (s : State) (n : Nat) (f : CulmNode → CulmNode) : State :=
  { s with culmNodes := sput {} s.culmNodes n (f (s.culmNode n)) }
def State.ethPort (s : State) (n : Nat) : EthPort := sget {} s.eth n
def State.modEth (s : State) (n : Nat) (f : EthPort → EthPort) : State := { s with eth := sput {} s.eth n (f (s.ethPort n)) }
def State.sampler (s : State) (n : Nat) : Sampler := sget {} s.samplers n
def State.modSampler (s : State) (n : Nat) (f : Sampler → Sampler) : State :=
  { s with samplers := sput {} s.samplers n (f (s.sampler n)) }
def State.unitOf (s : State) (n : Nat) : Unit := sget {} s.units n
def State.modUnit (s : State) (n : Nat) (f : Unit → Unit) : State := { s with units := sput {} s.units n (f (s.unitOf n)) }
def State.half (s : State) (h : Half) : HalfRec := match h with | .west => s.west | .east => s.east
def State.modHalf (s : State) (h : Half) (f : HalfRec → HalfRec) : State :=
  match h with
  | .west => { s with west := f s.west }
  | .east => { s with east := f s.east }
def State.modRel (s : State) (f : Rel → Rel) : State := { s with rel := f s.rel }
def State.modPower (s : State) (f : Power → Power) : State := { s with power := f s.power }
def State.modBoot (s : State) (f : Boot → Boot) : State := { s with boot := f s.boot }
def State.modLoader (s : State) (f : Loader → Loader) : State := { s with loader := f s.loader }
def State.modTime (s : State) (f : Time → Time) : State := { s with time := f s.time }

/-- The context of a thread. -/
def State.ctx (s : State) (t : Tid) : Ctx := if t.unit < 1024 then sget {} (s.core t.unit).ctx t.ctx else (s.culmCore (t.unit - 1024)).ctx

/-- Changes the context of a thread. -/
def State.modCtx (s : State) (t : Tid) (f : Ctx → Ctx) : State :=
  if t.unit < 1024 then s.modCore t.unit (fun c => { c with ctx := sput {} c.ctx t.ctx (f (sget {} c.ctx t.ctx)) })
  else s.modCulm (t.unit - 1024) (fun c => { c with ctx := f c.ctx })

/-- The tiller of a compute thread. -/
def tidTiller (t : Tid) : Nat := t.unit / 16

/-- Schedule context `k` of tiller `t`. -/
def State.sq (s : State) (t k : Nat) : SqCtx := sget {} (s.tiller t).sq k
def State.modSq (s : State) (t k : Nat) (f : SqCtx → SqCtx) : State :=
  s.modTiller t (fun x => { x with sq := sput {} x.sq k (f (sget {} x.sq k)) })

/-- Endpoint `e` of tiller `t`. -/
def State.ep (s : State) (t e : Nat) : Endpoint := sget {} (s.tiller t).eps e
def State.modEp (s : State) (t e : Nat) (f : Endpoint → Endpoint) : State :=
  s.modTiller t (fun x => { x with eps := sput {} x.eps e (f (sget {} x.eps e)) })

/-- Inbox `i` of tiller `t`. -/
def State.inbox (s : State) (t i : Nat) : Inbox := sget {} (s.tiller t).inboxes i
def State.modInbox (s : State) (t i : Nat) (f : Inbox → Inbox) : State :=
  s.modTiller t (fun x => { x with inboxes := sput {} x.inboxes i (f (sget {} x.inboxes i)) })

/-- A DMA channel. -/
def State.chan (s : State) (c : ChanRef) : DmaChan :=
  match c with
  | .core n ch => sget {} (s.core n).dma ch
  | .tiller t ch => sget {} (s.tiller t).dch ch

/-- Changes a DMA channel. -/
def State.modChan (s : State) (c : ChanRef) (f : DmaChan → DmaChan) : State :=
  match c with
  | .core n ch => s.modCore n (fun x => { x with dma := sput {} x.dma ch (f (sget {} x.dma ch)) })
  | .tiller t ch => s.modTiller t (fun x => { x with dch := sput {} x.dch ch (f (sget {} x.dch ch)) })

/-- A general register; g0 reads zero (R87). -/
def State.reg (s : State) (t : Tid) (r : Reg) : Word := if r = 0 then 0 else sget 0 (s.ctx t).g r.toNat

/-- Writes a general register; a write to g0 is discarded (R87). -/
def State.setReg (s : State) (t : Tid) (r : Reg) (v : Word) : State :=
  if r = 0 then s else s.modCtx t (fun c => { c with g := sput 0 c.g r.toNat v })

/-- The stack pointer g31 (R87). -/
def State.sp (s : State) (t : Tid) : Word := s.reg t 31

/-- A vector register (R152). -/
def State.vreg (s : State) (t : Tid) (r : VReg) : VecReg := sget 0 (s.ctx t).v r.toNat

/-- Writes a vector register. -/
def State.setVreg (s : State) (t : Tid) (r : VReg) (v : VecReg) : State :=
  s.modCtx t (fun c => { c with v := sput 0 c.v r.toNat v })

/-- Whether the module is out of reset with power up (R474). -/
def State.up (s : State) : Bool := s.power.phase = .running

/-- Whether the core clock of a half runs (R42, Table 12 of chapter 1). -/
def State.clockOn (s : State) (h : Half) : Bool :=
  match (s.half h).st with
  | .parked => false
  | .unparking => (s.half h).locked
  | _ => true

/-- Whether a half answers PARKED (R41). -/
def State.blocked (s : State) (h : Half) : Bool :=
  match (s.half h).st with
  | .running | .slowed => false
  | _ => true

/-- The region a tiller belongs to (R14, R64). -/
def State.regionOf (s : State) (t : Nat) : Option Nat :=
  (List.range 16).find? (fun r => (s.region r).blocks.getLsbD (tillerBlock t))

/-- The tillers of a region. -/
def State.regionTillers (s : State) (r : Nat) : List Nat := blockTillers (s.region r).blocks.toNat

/-- Whether a tiller's region is LOADING or CHECKING (R78). -/
def State.loading (s : State) (t : Nat) : Bool :=
  match s.regionOf t with
  | some r => (s.region r).st = .loading || (s.region r).st = .checking
  | none => false

/-- The module ID that addresses and packets carry: 0x3FFF when standalone (R17, R482). -/
def State.moduleId (s : State) : Nat := if s.boot.standalone then 0x3FFF else s.boot.moduleId

/-! ## Free values -/

/-- Draws a free value of `w` bits: a value the spec leaves open (log entry 1). -/
def State.draw (s : State) (w : Nat) : BitVec w × State :=
  (Config.freeBits w s.freeCtr, { s with freeCtr := s.freeCtr + 1 })

/-! ## Time stamps -/

/-- The copy of `TB` that a node reads: West 0, East 1, the corner nodes' own domains 2 (R46; log entry 18). -/
def tbCopy (node : Nat) : Nat :=
  if node = 0 ∨ node = 9 ∨ node = 90 ∨ node = 99 then 2 else if nodeHalf node = .west then 0 else 1

/-- Takes a stamp from a node's copy of `TB`: its first after a resynchronisation carries RESYNC (R47, R48). -/
def State.stamp (s : State) (node : Nat) : Word × State :=
  let k := tbCopy node
  (word (s.time.tb % 2 ^ 63 + sget 0 s.time.resync k % 2 * 2 ^ 63),
   s.modTime (fun t => { t with resync := sput 0 t.resync k 0 }))

/-! ## The address map -/

/-- Where a local address lies (Table 10 of chapter 0, Table 1 of chapter 8). -/
inductive Loc
  | hbm (off : Nat)
  | cs (off : Nat)
  | tm (tiller off : Nat)
  | clm (core off : Nat)
  | eb (core off : Nat)
  | ctl (node off : Nat)
  | reserved
deriving DecidableEq, Repr

/-- The place of a local address; a window's part beyond its store is reserved (R19, R207). -/
def locOf (a : Nat) : Loc :=
  if a < 0xC000000000 then .hbm a
  else if a < 0x10000000000 then .reserved
  else if a < 0x10100000000 then (if a - 0x10000000000 < 0x10000000 then .cs (a - 0x10000000000) else .reserved)
  else if a < 0x10140000000 then
    let o := a - 0x10100000000
    if o % 0x1000000 < 0x400000 then .tm (o / 0x1000000) (o % 0x1000000) else .reserved
  else if a < 0x10200000000 then .reserved
  else if a < 0x10240000000 then
    let o := a - 0x10200000000
    if o % 0x100000 < 0x80000 then .clm (o / 0x100000) (o % 0x100000) else .reserved
  else if a < 0x10300000000 then .reserved
  else if a < 0x10304000000 then .eb ((a - 0x10300000000) / 0x10000) ((a - 0x10300000000) % 0x10000)
  else if a < 0x1F000000000 then .reserved
  else if a < 0x1F064000000 then .ctl ((a - 0x1F000000000) / 0x1000000) ((a - 0x1F000000000) % 0x1000000)
  else .reserved

/-- The local address of a byte of tiller memory, core local memory, and a node's control block (Table 10 of
chapter 0). -/
def tmAddr (t off : Nat) : Nat := 0x10100000000 + t * 0x1000000 + off
def clmAddr (c off : Nat) : Nat := 0x10200000000 + c * 0x100000 + off
def ebAddr (c off : Nat) : Nat := 0x10300000000 + c * 0x10000 + off

/-- The pseudo-channels a range uses: stacks in slot order (R320). -/
def rangeStacks (r : HbmRange) : List Nat :=
  if r.mode = 0 then List.range 12
  else if r.mode = 1 then (if r.target = 0 then [0, 1, 2, 6, 7, 8] else [3, 4, 5, 9, 10, 11])
  else [r.target]

/-- How many pseudo-channels a range spreads over (R320). -/
def rangeN (r : HbmRange) : Nat := if r.mode = 0 then 384 else if r.mode = 1 then 192 else 32

/-- The bytes a range gives each pseudo-channel it uses (R321). -/
def rangeShare (r : HbmRange) : Nat := r.size * 2 ^ 30 / rangeN r

/-- Pseudo-channel and offset of address `a` in range `r`, with the ranges before it (R320, R321). -/
def rangePlace (before : List HbmRange) (r : HbmRange) (a : Nat) : Nat × Nat :=
  let n := rangeN r
  let o := a - r.base * 2 ^ 30
  let g := o / 4096
  let q := g / n
  let f := (q % 512) ^^^ ((q >>> 9) % 512) ^^^ ((q >>> 18) % 512)
  let j := (g % n + f % n) % n
  let ss := rangeStacks r
  let stack := ss.getD (j % ss.length) 0
  let k := j / ss.length
  let p := 32 * stack + 2 * (k % 16) + k / 16
  let base := ((before.filter (fun b => (rangeStacks b).contains stack)).map rangeShare).sum
  (p, base + q * 4096 + o % 4096)

/-- Pseudo-channel and offset of an HBM address under a list of ranges (R320, R321). -/
def hbmPlaceFrom (before : List HbmRange) : List HbmRange → Nat → Nat × Nat
  | [], _ => (0, 0)
  | r :: rs, a =>
    if r.base * 2 ^ 30 ≤ a ∧ a < (r.base + r.size) * 2 ^ 30 then rangePlace before r a
    else hbmPlaceFrom (before ++ [r]) rs a

/-- Slice and slice offset of a common-store offset (R211). -/
def csPlace (mode a : Nat) : Nat × Nat :=
  if mode = 0 then
    ((a / 4096 % 64) ^^^ (a / 2 ^ 18 % 64) ^^^ (a / 2 ^ 24 % 16), (a / 2 ^ 18) % 1024 * 4096 + a % 4096)
  else
    let h := (a / 4096 % 32) ^^^ (a / 2 ^ 17 % 32) ^^^ (a / 2 ^ 22 % 32)
    let s0 := h / 4 * 8 + h % 4
    (if a < 0x8000000 then s0 else s0 + 4, (a / 2 ^ 17) % 1024 * 4096 + a % 4096)

/-- Pseudo-channel and offset of an HBM address under the mapping in force (R498). -/
def State.hbmPlace (s : State) (a : Nat) : Nat × Nat := hbmPlaceFrom [] s.loader.interleave.ranges a

/-- The cell a byte address reaches: pseudo-channel and offset in HBM, slice and offset in the common store, the local
address itself elsewhere. -/
def State.cellOf (s : State) (a : Nat) : Nat :=
  match locOf a with
  | .hbm o => let p := s.hbmPlace o; p.1 * 2 ^ 31 + p.2
  | .cs o => let p := csPlace s.loader.interleave.csMode o; 0x10000000000 + p.1 * 0x400000 + p.2
  | _ => a

/-- The node whose agent performs an access to an address (the destination of R51). -/
def State.destNode (s : State) (a : Nat) : Option Nat :=
  match locOf a with
  | .hbm o => some (stackNode ((s.hbmPlace o).1 / 32))
  | .cs o => some (tillerNode (csPlace s.loader.interleave.csMode o).1)
  | .tm t _ => some (tillerNode t)
  | .clm c _ => some (tillerNode (c / 16))
  | .eb c _ => some (tillerNode (c / 16))
  | .ctl n _ => some n
  | .reserved => none

/-- R110 DETAIL codes. -/
def dReserved : Nat := 1
def dParked : Nat := 2
def dLoading : Nat := 3
def dDenied : Nat := 4
def dUncorrectable : Nat := 5
def dRemote : Nat := 6

/-- Whether an address is in the control space. -/
def isCtl (a : Nat) : Bool := match locOf a with | .ctl _ _ => true | _ => false

/-- The error response an access from half `h` meets on its way to address `a`: RESERVED_RANGE, PARKED or
REGION_LOADING (R19, R41, R78, R322). -/
def State.routeErr (s : State) (h : Half) (a : Nat) : Option Nat :=
  match s.destNode a with
  | none => some dReserved
  | some n =>
    let far := nodeHalf n
    if s.blocked far && (far != h || (match locOf a with | .hbm _ => true | _ => false)) then some dParked
    else match locOf a with
      | .tm t _ => if s.loading t then some dLoading else none
      | .clm c _ => if s.loading (c / 16) then some dLoading else none
      | .eb c _ => if s.loading (c / 16) then some dLoading else none
      | .ctl k _ => match nodeTiller k with
        | some t => if s.loading t then some dLoading else none
        | none => none
      | _ => none

/-- Whether a register write reaches a node: the module is up, its half takes traffic and its region is not loading
(R41, R78). -/
def State.reachable (s : State) (node : Nat) : Bool :=
  s.up && !s.blocked (nodeHalf node) && match nodeTiller node with | some t => !s.loading t | none => true

/-! ## Memory -/

/-- What a byte that nothing has written reads: zero (R215, R331). -/
def memDefault : Byte := 0

/-- The canonical form of memory: addresses strictly rising, no listed byte zero. -/
def memWf (m : List Host.Cell) : Bool := swf memDefault m

/-- One byte of memory by local address. -/
def State.byteAt (s : State) (a : Nat) : Byte := sget memDefault s.mem (s.cellOf a)

/-- `n` bytes of memory from a local address, whatever their check codes. -/
def State.peek (s : State) (a n : Nat) : List Byte := (List.range n).map (fun i => s.byteAt (a + i))

/-- Stores the bytes at the addresses that `keep` lets through. -/
def State.pokeWhere (s : State) (keep : Nat → Bool) (a : Nat) (d : List Byte) : State :=
  { s with mem := d.zipIdx.foldl (fun m p => if keep (a + p.2) then sput memDefault m (s.cellOf (a + p.2)) p.1 else m) s.mem }

/-- Stores bytes, whatever the check codes. -/
def State.poke (s : State) (a : Nat) (d : List Byte) : State := s.pokeWhere (fun _ => true) a d

/-- Size of the unit one check code protects: a 32-byte codeword in HBM (R323), an 8-byte word elsewhere (R208). -/
def unitSize (a : Nat) : Nat := match locOf a with | .hbm _ => 32 | _ => 8

/-- The cell that names the protected unit holding an address. -/
def State.unitKey (s : State) (a : Nat) : Nat := s.cellOf (a / unitSize a * unitSize a)

/-- Whether an address lies in a failed pseudo-channel (R329). -/
def State.pcFailed (s : State) (a : Nat) : Bool :=
  match locOf a with
  | .hbm o => let p := (s.hbmPlace o).1; (s.stack (p / 32)).pcfail.testBit (p % 32)
  | _ => false

/-- Whether the unit holding an address reads as uncorrectable (R213, R325, R329). -/
def State.unitBad (s : State) (a : Nat) : Bool := s.pcFailed a || s.badWords.contains (s.unitKey a)

/-- The 8-byte words that the bytes from `a` to `a + n - 1` touch. -/
def wordsOf (a n : Nat) : List Nat := if n = 0 then [] else (List.range ((a + n + 7) / 8 - a / 8)).map (fun i => (a / 8 + i) * 8)

/-- Whether a write of `n` bytes at `a` covers the whole unit that holds `x`. -/
def covers (a n x : Nat) : Bool := a ≤ x / unitSize x * unitSize x && x / unitSize x * unitSize x + unitSize x ≤ a + n

/-- Reads `n` bytes as an agent of half `h`: the bytes, or the DETAIL of the error response; the control space answers only
scalar 8-byte accesses, which do not come here (R21, R110, R213, R325). -/
def State.readAcc (s : State) (h : Half) (a n : Nat) : Except Nat (List Byte) :=
  match (wordsOf a n).findSome? (s.routeErr h) with
  | some e => .error e
  | none =>
    if (wordsOf a n).any isCtl then .error dDenied
    else if (wordsOf a n).any s.unitBad then .error dUncorrectable else .ok (s.peek a n)

/-- Writes bytes as an agent of half `h`. A unit written whole gets data and check code; a unit that would be merged
into an uncorrectable one stays, and the answer is UNCORRECTABLE (R92, R213, R326). -/
def State.writeAcc (s : State) (h : Half) (a : Nat) (d : List Byte) : Option Nat × State :=
  match (wordsOf a d.length).findSome? (s.routeErr h) with
  | some e => (some e, s)
  | none =>
    if (wordsOf a d.length).any isCtl then (some dDenied, s)
    else
    let stuck := fun x => s.unitBad x && (s.pcFailed x || !covers a d.length x)
    let done := ((wordsOf a d.length).filter (fun x => !stuck x)).map s.unitKey
    let s1 := s.pokeWhere (fun x => !stuck x) a d
    (if (wordsOf a d.length).any stuck then some dUncorrectable else none,
     { s1 with badWords := s1.badWords.filter (fun k => !done.contains k), ceWords := s1.ceWords.filter (fun k => !done.contains k) })

/-- A little-endian 64-bit word of memory read by the module itself (half West: the Keeper). -/
def State.readWord (s : State) (h : Half) (a : Nat) : Except Nat Nat := (s.readAcc h a 8).map leNat

/-! ## Choosing the running thread (R138, R139) -/

/-- The owner of slot entry `i`; 0x8 to 0xF mean unowned. -/
def Core.owner (c : Core) (i : Nat) : Option Nat :=
  let o := field c.slotTbl (4 * (i % 16)) 4
  if o < 8 then some o else none

/-- Whether context `k` is READY. -/
def Core.ready (c : Core) (k : Nat) : Bool := (sget {} c.ctx k).st = .ready

/-- The context R139 chooses in slot `i`: at a slot start (`start`), or after `stalled` has long-stalled. -/
def Core.choose (c : Core) (i : Nat) (start : Bool) (stalled : Option Nat) : Option Nat :=
  if c.urgent && c.ready 0 then some 0
  else
    match (if start then (c.owner i).filter c.ready else none) with
    | some k => some k
    | none =>
      match ((List.range 15).filterMap (fun j => c.owner (i + 1 + j))).find? (fun k => c.ready k && stalled != some k) with
      | some k => some k
      | none => (List.range 8).find? c.ready

/-- Makes context `k` the running thread: a thread change refills the fetch buffer (R85). -/
def Core.run (c : Core) (k : Nat) : Core :=
  { c with running := some k, urgent := if k = 0 then false else c.urgent,
           ctx := sput {} c.ctx k (let x := sget {} c.ctx k; { x with st := .running, fetchBuf := [] }) }

/-- Lets a core with no running thread choose one (R139). -/
def State.schedule (s : State) (core : Nat) (stalled : Option Nat) : State :=
  let c := s.core core
  match c.running with
  | some _ => s
  | none =>
    match c.choose c.slot false stalled with
    | some k => s.setCore core (c.run k)
    | none => s

/-- Makes a thread READY: an idle core runs it at once; a Culm core's one thread runs. -/
def State.makeReady (s : State) (t : Tid) : State :=
  if t.unit < 1024 then (s.modCtx t (fun c => { c with st := .ready, wait := none })).schedule t.unit none
  else s.modCtx t (fun c => { c with st := .running, wait := none })

/-- Takes a running thread off its core, in state `st`; the core chooses another (R137, R139). -/
def State.leave (s : State) (t : Tid) (st : CtxState) : State :=
  if t.unit < 1024 then
    ((s.modCtx t (fun c => { c with st := st })).modCore t.unit
      (fun c => if c.running = some t.ctx then { c with running := none } else c)).schedule t.unit (some t.ctx)
  else s.modCtx t (fun c => { c with st := st })

/-- Starts a long stall (R136): the thread waits, another is chosen. -/
def State.stall (s : State) (t : Tid) (r : WaitFor) (i : Instr) : State :=
  (s.modCtx t (fun c => { c with wait := some ⟨r, i⟩, otc := sput 0 c.otc 3 (sget 0 c.otc 3 + 1) })).leave t .waiting

/-- Adds to own-thread counter `k` (R425). -/
def State.otcAdd (s : State) (t : Tid) (k n : Nat) : State :=
  s.modCtx t (fun c => { c with otc := sput 0 c.otc k (sget 0 c.otc k + word n) })

/-- Halts a thread at its PC: DBG_PC, DBG_PROG and DBG_LEVEL are set, the save sets are not touched (R442). -/
def State.haltNow (s : State) (t : Tid) (cause which : Nat) : State :=
  (s.modCtx t (fun c =>
    { c with wait := none,
             dbg := { c.dbg with byDebugger := true, pending := false, late := false, stepping := false, skip := false,
                                 cause := cause, which := which, part := c.prog != 0, pc := c.pc, prog := c.prog,
                                 level := c.level } })).leave t .halted

/-- What a debugger waits for at the end of an instruction, entry or abandoned wait: a halt request held until then, or the
halt of a STEP; the first instruction after a restart no longer counts as such (R442, R443). -/
def State.settleDebug (s : State) (t : Tid) : State :=
  let c := s.ctx t
  let on := c.st = .running || c.st = .ready
  if on && c.dbg.pending && !c.dbg.late then s.haltNow t 1 0
  else if on && c.dbg.stepping then s.haltNow t 2 0
  else if c.dbg.skip then s.modCtx t (fun c => { c with dbg := { c.dbg with skip := false } })
  else s

/-- Adds `n` to the counters of a node's counter unit that count event `ev` with a qualifier that `q` accepts (R426). -/
def State.count (s : State) (node ev : Nat) (q : Nat → Bool) (n : Nat) : State :=
  let x := s.node node
  match x.cntSel.filter (fun p => field p.2 0 8 = ev && bit p.2 16 && q (field p.2 8 5)) with
  | [] => s
  | js => s.modNode node (fun x => { x with cntVal := js.foldl (fun m p => sput 0 m p.1 (sget 0 m p.1 + word n)) x.cntVal })

/-- Sets BOUNDARY in the entries of a sample record that name a node's counters (Table 5 of chapter 16). -/
def markBoundary (node : Nat) (es : List Nat) (d : List Byte) : List Byte :=
  es.zipIdx.foldl (fun d p => if p.1 / 8 = node then d.modify (44 + 16 * p.2) (· ||| 1) else d) d

/-- A command reset of a node's counter unit: every LINK counter becomes zero and SEQ counts (R428). A sample latched at the
same `TB` was latched in the same cycle or not (R431): a free value says. -/
def State.cntReset (s : State) (node : Nat) : State :=
  let s1 := s.modNode node (fun x =>
    { x with cntVal := x.cntVal.filter (fun p => !bit (sget 0 x.cntSel p.1) 17), cntSeq := (x.cntSeq + 1) % 2 ^ 32 })
  forAll (List.range 4) s1 (fun s i =>
    let x := s.sampler i
    match x.busy with
    | some d =>
      if x.latchAt = s.time.tb ∧ x.entries.any (fun e => e / 8 = node) then
        let (b, s2) := s.draw 1
        s2.modSampler i (fun x => { x with busy := some (if b = 1 then markBoundary node x.entries d else d) })
      else s
    | none => s)

/-- A qualifier that names unit `k` of a tiller or all of them. -/
def qualOr (k q : Nat) : Bool := q = k || q = 0x10

/-- An instruction retires: OTC_INSTR and INSTR count, and a halt request that waited for it is due (R425, R426, R442). -/
def State.retired (s : State) (t : Tid) : State :=
  let s1 := (s.modCtx t (fun c => { c with dbg := { c.dbg with late := false } })).otcAdd t 1 1
  if t.unit < 1024 then s1.count (tillerNode (t.unit / 16)) 3 (qualOr (t.unit % 16)) 1 else s1

/-- Retires an instruction of `len` bytes at the thread's PC: the PC moves on, the hand-over of progress ends and an armed
single step falls due (R109, R111, R119, R425). -/
def State.advance (s : State) (t : Tid) (len : Nat) : State :=
  (s.modCtx t (fun c =>
    { c with pc := c.pc + word len, prog := 0, sent := 0,
             trapDue := if c.stepArmed then some (c.trapDue.getD (0x16, 0)) else c.trapDue })).retired t

/-- Ends a wait whose condition has come: the result is written, the instruction (long form) retires and the thread is
READY. -/
def State.endWait (s : State) (t : Tid) (rd : Reg) (v : Word) : State :=
  (((s.setReg t rd v).advance t 4).makeReady t).settleDebug t

/-! ## Interrupt sources of the Culm cores (R389) -/

/-- Sets bit `src` of a Culm core's `XINT_PEND`, which ends a WFI there (R377, R389). -/
def State.setXint (s : State) (k src : Nat) : State :=
  let t : Tid := ⟨1024 + k, 0⟩
  let s1 := s.modCulm k (fun c => { c with xint := c.xint ||| word (2 ^ src) })
  match (s1.ctx t).wait with
  | some ⟨.interrupt, _⟩ => ((s1.advance t 4).makeReady t).settleDebug t
  | _ => s1

/-- Pulses interrupt source `src`: with `XINT_TGT[src].EN` it becomes pending at its target; else the pulse is lost. -/
def State.pulseXint (s : State) (src : Nat) : State :=
  let w := sget 0 s.xintTgt src
  if w.testBit 4 then s.setXint (w % 16) src else s

/-- Sets bits of the alert set in both copies: a bit newly set in `ALERT_SRC` with its enable pulses source 48 (R458). -/
def State.setAlert (s : State) (k : Nat) : State :=
  let new := !s.power.alertSrc.testBit k && s.power.alertEn.testBit k
  let s1 := s.modPower (fun x => { x with alertSrc := x.alertSrc ||| 2 ^ k, carrierAlert := x.carrierAlert ||| 2 ^ k })
  if new then s1.pulseXint 48 else s1

/-! ## Reliability: the promise and the health log -/

/-- `REL_STAT.SPARE_CORE`: a spare is in use or held (Table 10 of chapter 15). -/
def State.spareCore (s : State) : Bool := s.tillers.any (fun p => p.2.spareServes.isSome || p.2.hold || p.2.spareLost)
/-- `REL_STAT.SPARE_HBM`. -/
def State.spareHbm (s : State) : Bool :=
  s.hbmStacks.any (fun p => p.2.lanes != 0 || p.2.bankRows.any (fun b => decide (Config.hbmSpareRows ≤ b.2)))
/-- `REL_STAT.SPARE_SRAM`: a spare bank is in use, or a bank has none of its 4 spare rows left. -/
def State.spareSram (s : State) : Bool := s.repairs.any (fun r => r.2.bankUsed || r.2.rows.any (fun b => decide (4 ≤ (r.2.rows.filter (fun c => c.1 = b.1)).length)))
/-- `REL_STAT.MIRROR_OFF`. -/
def State.mirrorOff (s : State) : Bool := match s.loader.rel with | some r => !r.mirrorEn | none => true
/-- `REL_STAT.NO_REPLICA`: Holrid runs on at most one of its two nodes (R411, R423). -/
def State.noReplica (s : State) : Bool :=
  match s.loader.rel with | some r => !((s.culmNode r.primary).st = 1 && (s.culmNode r.replica).st = 1) | none => false
/-- `REL_STAT.RATE`. -/
def State.rateBit (s : State) : Bool := s.tillers.any (fun p => p.2.rate)

/-- `REL_STAT.PROMISE`: none of the condition bits is set (R398). -/
def State.promise (s : State) : Bool :=
  s.loader.rel.isSome && !s.spareCore && !s.spareSram && !s.spareHbm && !s.noReplica && !s.mirrorOff
    && !s.rel.mirrorDown && !s.rateBit

/-- The latest entry that a CORRECTED entry merges into: same SOURCE, UNIT, CAUSE and ACTION, less than 1 s old
(R421). -/
def State.mergeEntry (s : State) (x : HealthEntry) : Option Nat :=
  let lo := s.rel.head - min s.rel.head 4096
  ((List.range (s.rel.head - lo)).map (fun i => s.rel.head - 1 - i)).find? (fun n =>
    let e := sget {} s.rel.log (n % 4096)
    e.source = x.source && e.unit = x.unit && e.cause = x.cause && e.action = x.action
      && x.stamp.toNat % 2 ^ 63 < e.stamp.toNat % 2 ^ 63 + 1000000000)

/-- The Keeper writes an entry to the health log, or merges it; an entry with MASKED = 0 sets HEALTH (R420, R421, R458). -/
def State.writeEntry (s : State) (x : HealthEntry) : State :=
  match (if x.action = 1 then s.mergeEntry x else none) with
  | some n => s.modRel (fun r =>
      { r with log := sput {} r.log (n % 4096) (let e := sget {} r.log (n % 4096); { e with count := satAdd 32 e.count 1 }) })
  | none =>
    let e : HealthEntry := { x with flags := x.flags + 8 * b2n (!s.promise) }
    let s1 := s.modRel (fun r => { r with log := sput {} r.log (r.head % 4096) e, head := (r.head + 1) % 2 ^ 32 })
    if x.flags % 2 = 1 then s1 else s1.setAlert 9

/-- Counts a fault of a tiller: core faults in `TSPARE.FAULTS`, and RATE for two faults within 10 ms (R397, Table 10 of
chapter 15). -/
def State.noteFault (s : State) (r : Report) : State :=
  match nodeTiller r.node with
  | none => s
  | some t =>
    if r.source = 1 ∨ r.source = 2 ∨ r.source = 3 ∨ r.source = 8 ∨ r.source = 9 then
      s.modTiller t (fun x =>
        let two := match x.lastFault with | some l => decide (s.time.tb < l + 10000000) | none => false
        { x with coreFaults := if r.source ≤ 2 then satAdd 16 x.coreFaults 1 else x.coreFaults, lastFault := some s.time.tb,
                 rate := x.rate || two, rateAt := if two then s.time.tb else x.rateAt })
    else s

/-- The entry of a report stamped at detection, before PROMISE_OFF is known (Table 7 of chapter 15). -/
def entryOf (st : Word) (r : Report) : HealthEntry :=
  { stamp := st, source := r.source, cause := r.cause, action := r.action, flags := b2n r.masked + 2 * b2n r.persistent + 4 * b2n r.lost,
    node := r.node, unit := r.unit, stepId := r.stepId, count := 1, detail := r.detail }

/-- A detection point reports: the node queues the report, stamped; beyond 8 it is lost and counted (R420). -/
def State.log (s : State) (r : Report) : State :=
  let s := s.noteFault r
  let (st, s) := s.stamp r.node
  if (s.node r.node).reports.length < 8 then s.modNode r.node (fun n => { n with reports := n.reports ++ [entryOf st r] })
  else s.modRel (fun x => { x with lost := satAdd 32 x.lost 1 })

/-- A report with no step, for short. -/
def report (source cause action : Nat) (masked : Bool) (node unit detail : Nat) : Report :=
  { source, cause, action, masked, persistent := false, lost := false, node, unit, stepId := 0, detail }

/-- Reports a step fault or core fault to a tiller's sequencer (R115, R280). -/
def State.reportFault (s : State) (tiller : Nat) (f : StepFault) (step : Option StepRef) : State :=
  { s with faultReports := s.faultReports ++ [(tiller, f, step)] }

/-! ## Events of a core (R141, R143, R145) -/

/-- Restarts the watchdog's count (R145). -/
def State.dogRestart (s : State) (core : Nat) : State := s.modCore core (fun c => { c with twdogDone := false })

/-- The lowest context of a core that waits in WAITEV for event `e`. -/
def Core.waiter (c : Core) (e : Nat) : Option (Nat × Reg) :=
  (List.range 8).findSome? (fun k =>
    match (sget {} c.ctx k).st, (sget {} c.ctx k).wait with
    | .waiting, some ⟨.event m rd, _⟩ => if m.getLsbD e then some (k, rd) else none
    | _, _ => none)

/-- Pulses event bit `e` of a core: a set bit counts in `EV_PEND_OVER`; the lowest waiting context that matches takes
the bit (R141, R143). -/
def State.pulse (s : State) (core e : Nat) : State :=
  let s := s.dogRestart core
  let c := s.core core
  if c.evPend.getLsbD e then s.modCore core (fun c => { c with evOver := satAdd 32 c.evOver 1 })
  else
    match c.waiter e with
    | some (k, rd) => s.endWait ⟨core, k⟩ rd (word e)
    | none => s.modCore core (fun c => { c with evPend := c.evPend ||| word (2 ^ e) })

/-- Wakes context 0 for a fault-mailbox slot: a WAITEV there ends with −2, else the wake is kept (R143; log entry 12). -/
def State.mailboxWake (s : State) (core : Nat) : State :=
  let s := s.modCore core (fun c => { c with urgent := true })
  match (s.ctx ⟨core, 0⟩).st, (s.ctx ⟨core, 0⟩).wait with
  | .waiting, some ⟨.event _ rd, _⟩ => s.endWait ⟨core, 0⟩ rd (-2)
  | _, _ => s.modCore core (fun c => { c with mailWake := true })

end Sys2Proof.Machine
end

