-- ==== Sys2Proof/Machine/Mesh.lean ====
section
/-! DEFINITION. Routes of the mesh: planes, override entries, the walk of a flit, and the loader's checks on a
configuration of router tables (R26 to R30, R32, R73, R259). A configuration is an array of nodes. -/

namespace Sys2Proof.Machine

/-! ## Routes (R26, R27) -/

/-- The plane a flit between two nodes takes (R26). -/
def planeOf (a b : Nat) : Nat := (a % 10 + a / 10 + b % 10 + b / 10) % 2

/-- The node next to `n` in direction `out` (0 NORTH, 1 EAST, 2 SOUTH, 3 WEST); none at the edge of the mesh (R9). -/
def neighbour (n out : Nat) : Option Nat :=
  match out with
  | 0 => if n < 10 then none else some (n - 10)
  | 1 => if n % 10 = 9 then none else some (n + 1)
  | 2 => if 90 ≤ n then none else some (n + 10)
  | _ => if n % 10 = 0 then none else some (n - 1)

/-- Whether a `ROUTE_OVR` entry matches; an entry whose OUT is reserved never does (R27, Table 3 of chapter 1). -/
def ovrMatch (w : Word) (plane cls d : Nat) : Bool :=
  bit w 0 && field w 1 1 = plane && bit w (20 + cls) && field w 24 3 < 4 && field w 4 4 ≤ d % 10 && d % 10 ≤ field w 8 4
    && field w 12 4 ≤ d / 10 && d / 10 ≤ field w 16 4

/-- The dimension-ordered output at node `n` toward `d` (R26). -/
def dimOut (plane n d : Nat) : Nat :=
  let ew := if n % 10 < d % 10 then 1 else 3
  let ns := if n / 10 < d / 10 then 2 else 0
  if plane = 0 then (if n % 10 ≠ d % 10 then ew else ns) else (if n / 10 ≠ d / 10 then ns else ew)

/-- The output of the router of node `n` for a destination: its lowest matching override, else by dimension (R27). -/
def outOf (cfg : Sparse Node) (plane cls n d : Nat) : Nat :=
  match (sget {} cfg n).ovr.find? (fun p => ovrMatch p.2 plane cls d) with
  | some p => field p.2 24 3
  | none => dimOut plane n d

/-- The channels a flit takes from `n`, at most `fuel`, and whether it leaves the mesh at an edge. -/
def walk (cfg : Sparse Node) (plane cls d : Nat) : (fuel : Nat) → (n : Nat) → List (Nat × Nat) × Bool
  | 0, _ => ([], false)
  | fuel + 1, n =>
    if n = d then ([], false)
    else
      let o := outOf cfg plane cls n d
      match neighbour n o with
      | none => ([(n, o)], true)
      | some m => let r := walk cfg plane cls d fuel m; ((n, o) :: r.1, r.2)

/-- The channels of a route; one that never arrives repeats a channel within them (R28). -/
def route (cfg : Sparse Node) (cls a b : Nat) : List (Nat × Nat) × Bool := walk cfg (planeOf a b) cls b 202 a

/-- The side node of the Rachis at which a class-0 flit from `a` to `b` would cross into the other half (R26, R41). -/
def State.rachisNode (s : State) (a b : Nat) : Nat :=
  match (route s.nodes 0 a b).1.find? (fun h => match neighbour h.1 h.2 with | some m => nodeHalf m != nodeHalf h.1 | none => false) with
  | some h => h.1
  | none => a

/-! ## Router tables -/

/-- The CTRL slots of a link slot table (R29). -/
def ctrlSlots (w : Word) : Nat := ((List.range 32).filter (fun k => field w (2 * k) 2 = 1)).length

/-- A `MESH_SLOT` value as the router takes it, and whether R30 forced CTRL slots. -/
def slotFixed (w : Word) : Word × Bool :=
  if ctrlSlots w < 2 then (setField (setField w 0 2 1) 32 2 1, true) else (w, false)

/-- Class-0 flits per plane and frame that a router admits, and the depth of its buckets (Table 5 of chapter 1). -/
def Node.allot (n : Node) : Nat := field n.arb 16 5
def Node.burst (n : Node) : Nat := max 1 (field n.arb 24 3)

/-- Whether a router may send class 0 to a node (Table 7 of chapter 1). -/
def Node.permits (n : Node) (d : Nat) : Bool := if d < 64 then bit n.destLo d else bit n.destHi (d - 64)

/-- The bits of a `ROUTE_OVR`, `MESH_ARB` and `C0_DEST_HI` value that the register holds. -/
def ovrBits (w : Word) : Word := word (field w 0 2 + field w 4 23 * 16)
def arbBits (w : Word) : Word := word (field w 0 12 + field w 16 5 * 2 ^ 16 + field w 24 3 * 2 ^ 24)
def destHiBits (w : Word) : Word := word (field w 0 36)

/-- A node with the four values of a MESH_SLOTS record (R66). -/
def Node.withSlots (n : Node) (slot arb lo hi : Word) : Node :=
  let f := slotFixed slot
  let b := max 1 (field arb 24 3)
  { n with slot := f.1, slotfix := n.slotfix || f.2, arb := arbBits arb, destLo := lo, destHi := destHiBits hi,
           tokens0 := min n.tokens0 b, tokens1 := min n.tokens1 b }

/-- A node's router tables at their reset values, override entries cleared (R65, R66). -/
def Node.resetTables (n : Node) : Node :=
  let d : Node := {}
  { n with slot := d.slot, arb := d.arb, destLo := d.destLo, destHi := d.destHi, ovr := [] }

/-! ## The checks of a configuration (R28, R32, R73) -/

/-- Pairs of different nodes. -/
def nodePairs : List (Nat × Nat) :=
  (List.range 100).flatMap (fun a => ((List.range 100).filter (· ≠ a)).map (fun b => (a, b)))

/-- The output channels that an on-die tree uses at a node, from its branch words (R259, Table 13 of chapter 9). -/
def branchOuts (w : Nat) : List Nat := (List.range 4).filter (fun o => w.testBit (8 + o))

/-- The channels of a tree. -/
def treeLinks (g : McGroup) : List (Nat × Nat) := g.branches.flatMap (fun w => (branchOuts w).map (fun o => (w % 256, o)))

/-- A dependency between channel `(n, o)` and the next channel `o'` of a route, as a number. -/
def depNum (n o o' : Nat) : Nat := (n * 4 + o) * 4 + o'

/-- Adds the dependencies along a route to a set of them. -/
def addDeps (m : Nat) : List (Nat × Nat) → Nat
  | (n, o) :: (n', o') :: l => addDeps (m ||| 2 ^ depNum n o o') ((n', o') :: l)
  | _ => m

/-- The dependencies of a class on a plane: of its routes, and for classes 0 and 3 of the trees on that plane. -/
def depsOf (cfg : Sparse Node) (trees : Sparse McGroup) (plane cls : Nat) (m : Nat) : Nat :=
  let r := nodePairs.foldl (fun m p => if planeOf p.1 p.2 = plane then addDeps m (route cfg cls p.1 p.2).1 else m) m
  if cls = 0 ∨ cls = 3 then
    trees.foldl (fun m g =>
      if g.2.valid && g.2.plane = plane then
        (treeLinks g.2).foldl (fun m l => match neighbour l.1 l.2 with
          | some k => ((treeLinks g.2).filter (fun q => q.1 = k)).foldl (fun m q => addDeps m [l, q]) m
          | none => m) m
      else m) r
  else r

/-- Drops the dependencies on channels that depend on nothing; what is left after `fuel` rounds lies on a cycle. -/
def pruneDeps : (fuel : Nat) → Nat → Nat
  | 0, m => m
  | fuel + 1, m =>
    if m = 0 then 0
    else pruneDeps fuel ((List.range 1600).foldl (fun q i =>
      if m.testBit i then
        match neighbour (i / 16) (i / 4 % 4) with
        | some k => if (List.range 4).any (fun o => m.testBit (depNum k (i % 4) o)) then q ||| 2 ^ i else q
        | none => q
      else q) 0)

/-- Whether a class has a cyclic channel dependency in a plane, over the union of two configurations (R28, R73). -/
def routeCycle (old new : Sparse Node) (oldT newT : Sparse McGroup) : Bool :=
  [0, 1].any (fun plane => (List.range 4).any (fun cls =>
    pruneDeps 402 (depsOf new newT plane cls (depsOf old oldT plane cls 0)) != 0))

/-- Whether a configuration gives a permitted class-0 flit a path longer than 18 hops (R28). -/
def c0Long (cfg : Sparse Node) : Bool :=
  nodePairs.any (fun p => (sget {} cfg p.1).permits p.2 && decide (18 < (route cfg 0 p.1 p.2).1.length))

/-- Whether an override sends a flit out of a router by a port that has no link (R28). -/
def routeEdge (cfg : Sparse Node) : Bool := nodePairs.any (fun p => (List.range 4).any (fun c => (route cfg c p.1 p.2).2))

/-- Whether a route between two nodes of one half passes through the other (R28). -/
def routeCrosses (cfg : Sparse Node) : Bool :=
  nodePairs.any (fun p => nodeHalf p.1 = nodeHalf p.2
    && (List.range 4).any (fun c => (route cfg c p.1 p.2).1.any (fun h => nodeHalf h.1 != nodeHalf p.1)))

/-- The number of a channel on a plane, and the set of them that class-0 flits of a source may use. -/
def linkNum (plane n o : Nat) : Nat := plane * 400 + n * 4 + o
def sourceLinks (cfgs : List (Sparse Node)) (a : Nat) : Nat :=
  ((List.range 100).filter (fun b => b ≠ a && cfgs.any (fun c => (sget {} c a).permits b))).foldl (fun m b =>
    cfgs.foldl (fun m c => (route c 0 a b).1.foldl (fun m h => m ||| 2 ^ linkNum (planeOf a b) h.1 h.2) m) m) 0

/-- Whether the class-0 budget of some link is exceeded over a list of configurations: the smaller CTRL count, the larger
ALLOT and BURST of each source, and one flit for each tree that uses the link (R32, R73, R259). -/
def c0Over (cfgs : List (Sparse Node)) (trees : List McGroup) : Bool :=
  let most := fun (f : Node → Nat) (a : Nat) => cfgs.foldl (fun m c => max m (f (sget {} c a))) 0
  let srcs := (List.range 100).filterMap (fun a =>
    if most Node.allot a = 0 then none else some (sourceLinks cfgs a, most Node.allot a, most Node.burst a))
  [0, 1].any (fun plane => (List.range 400).any (fun l =>
    let users := srcs.filter (fun q => q.1.testBit (plane * 400 + l))
    let extra := (trees.filter (fun g => g.valid && g.plane = plane && (treeLinks g).contains (l / 4, l % 4))).length
    let ctrl := cfgs.foldl (fun m c => min m (ctrlSlots (sget {} c (l / 4)).slot)) 32
    decide (ctrl < (users.map (fun q => q.2.1)).sum + extra) || decide (ctrl < (users.map (fun q => q.2.2)).sum + extra)))

/-! ## Multicast trees (R259) -/

/-- The nodes reached by following a tree's entries; none where one is reached twice, or an output leads to no entry. -/
def treeVisit (bs : List Nat) : (fuel : Nat) → (todo seen : List Nat) → Option (List Nat)
  | _, [], seen => some seen
  | 0, _ :: _, _ => none
  | fuel + 1, n :: todo, seen =>
    match bs.find? (fun w => w % 256 = n) with
    | none => none
    | some w =>
      let next := (branchOuts w).map (neighbour n)
      if seen.contains n || next.any Option.isNone then none else treeVisit bs fuel (next.filterMap id ++ todo) (n :: seen)

/-- Whether an on-die group's tree is well formed (R259): its entries, followed from ROOT, reach every listed node
exactly once, and LOCAL is set at exactly the member tiller nodes. -/
def treeOk (g : McGroup) : Bool :=
  let nodes := g.branches.map (· % 256)
  nodes.all (· < 100) && nodes.eraseDups.length = nodes.length
    && (match treeVisit g.branches 100 [g.root] [] with | some seen => nodes.all (seen.contains ·) | none => false)
    && (List.range 100).all (fun n =>
      (g.branches.any (fun w => w % 256 = n && w.testBit 12)) = match nodeTiller n with | some t => bit g.members t | none => false)

end Sys2Proof.Machine
end

