-- ==== Sys2Proof/Machine/Float.lean ====
section
/-! DEFINITION. Floating-point formats, exact dyadic arithmetic, rounding and flags (chapter 7). -/

namespace Sys2Proof.Machine

/-- A floating-point format: exponent and significand widths, bias, and how its top exponent codes are used (R183). -/
structure FpFmt where
  eb : Nat
  mb : Nat
  bias : Nat
  /-- 0: infinities and NaNs as in IEEE 754; 1: only the all-ones code is NaN (E4M3); 2: every code is finite -/
  top : Nat := 0
  /-- the default NaN (R184) -/
  nan : Nat := 0
deriving DecidableEq, Repr

def fmt64 : FpFmt := ⟨11, 52, 1023, 0, 0x7FF8000000000000⟩
def fmt32 : FpFmt := ⟨8, 23, 127, 0, 0x7FC00000⟩
def fmtBf16 : FpFmt := ⟨8, 7, 127, 0, 0x7FC0⟩
def fmt16 : FpFmt := ⟨5, 10, 15, 0, 0x7E00⟩
def fmtE4M3 : FpFmt := ⟨4, 3, 7, 1, 0x7F⟩
def fmtE5M2 : FpFmt := ⟨5, 2, 15, 0, 0x7F⟩
def fmtE3M2 : FpFmt := ⟨3, 2, 3, 2, 0⟩
def fmtE2M3 : FpFmt := ⟨2, 3, 1, 2, 0⟩
def fmtE2M1 : FpFmt := ⟨2, 1, 1, 2, 0⟩

/-- Width of an encoding. -/
def FpFmt.width (f : FpFmt) : Nat := f.eb + f.mb + 1
/-- Exponent of the smallest normal. -/
def FpFmt.emin (f : FpFmt) : Int := 1 - f.bias
/-- Encoding without sign of the largest finite value. -/
def FpFmt.maxFin (f : FpFmt) : Nat :=
  match f.top with
  | 0 => (2 ^ f.eb - 1) * 2 ^ f.mb - 1
  | 1 => 2 ^ (f.eb + f.mb) - 2
  | _ => 2 ^ (f.eb + f.mb) - 1
/-- Encoding of an infinity without sign (formats that have one). -/
def FpFmt.infBits (f : FpFmt) : Nat := (2 ^ f.eb - 1) * 2 ^ f.mb
/-- The sign bit's weight. -/
def FpFmt.signBit (f : FpFmt) : Nat := 2 ^ (f.eb + f.mb)

/-- A decoded value: NaN (signalling or not), infinity, or (−1)^neg · m · 2^e. -/
inductive FV
  | nan (signalling : Bool)
  | inf (neg : Bool)
  | fin (neg : Bool) (m : Nat) (e : Int)
deriving DecidableEq, Repr

/-- The value of an encoding (R183, R184). -/
def FpFmt.decode (f : FpFmt) (w : Nat) : FV :=
  let neg := w.testBit (f.eb + f.mb)
  let x := w / 2 ^ f.mb % 2 ^ f.eb
  let m := w % 2 ^ f.mb
  if f.top = 0 ∧ x = 2 ^ f.eb - 1 then
    if m = 0 then .inf neg else .nan (f.mb > 2 && !m.testBit (f.mb - 1))
  else if f.top = 1 ∧ w % 2 ^ (f.eb + f.mb) = 2 ^ (f.eb + f.mb) - 1 then .nan false
  else if x = 0 then .fin neg m (f.emin - f.mb)
  else .fin neg (m + 2 ^ f.mb) ((x : Int) - f.bias - f.mb)

/-- Whether an encoding is a non-zero subnormal. -/
def FpFmt.isSub (f : FpFmt) (w : Nat) : Bool := w / 2 ^ f.mb % 2 ^ f.eb = 0 && w % 2 ^ f.mb != 0

/-! Flags in `FPS` bit order (R188); bit 6 marks an INV that IEEE 754 leaves to the implementation. -/
def fINV : Nat := 1
def fDZ : Nat := 2
def fOVF : Nat := 4
def fUNF : Nat := 8
def fINX : Nat := 16
def fFLUSH : Nat := 32
def fOPEN : Nat := 64

/-- Reads an operand: under FTZ a subnormal reads as a zero of its sign and sets FLUSH (R189). -/
def FpFmt.input (f : FpFmt) (ftz : Bool) (w : Nat) : FV × Nat :=
  if ftz && f.isSub w then (.fin (w.testBit (f.eb + f.mb)) 0 0, fFLUSH) else (f.decode w, 0)

/-- Whether rounding takes the magnitude up, from the rounding mode, the sign, the kept value's low bit and how the rest
compares with half a unit (0 exact, 1 below, 2 half, 3 above). -/
def roundsUp (rm : Nat) (neg odd : Bool) (rest : Nat) : Bool :=
  match rm with
  | 0 => rest = 3 || (rest = 2 && odd)
  | 1 => false
  | 2 => neg && rest != 0
  | 3 => !neg && rest != 0
  | _ => 2 ≤ rest

/-- `m · 2^e` in units of 2^q, rounded, and whether that was inexact. -/
def roundTo (rm : Nat) (neg : Bool) (m : Nat) (e q : Int) : Nat × Bool :=
  if q ≤ e then (m <<< (e - q).toNat, false)
  else
    let sh := (q - e).toNat
    let n := m >>> sh
    let r := m % 2 ^ sh
    let rest := if r = 0 then 0 else if r < 2 ^ (sh - 1) then 1 else if r = 2 ^ (sh - 1) then 2 else 3
    (if roundsUp rm neg (n % 2 = 1) rest then n + 1 else n, r != 0)

/-- The encoding of (−1)^neg · m · 2^e in a format, rounded once under `rm`, with its flags; tininess is detected after
rounding, and under FTZ a subnormal result becomes zero (R188, R189). -/
def FpFmt.round (f : FpFmt) (rm : Nat) (ftz : Bool) (neg : Bool) (m : Nat) (e : Int) : Nat × Nat :=
  let sgn := if neg then f.signBit else 0
  if m = 0 then (sgn, 0)
  else
    let E : Int := (Nat.log2 m : Int) + e
    let q := (if E < f.emin then f.emin else E) - f.mb
    let (n, inx) := roundTo rm neg m e q
    -- carry into the next binade
    let (n, q) := if n = 2 ^ (f.mb + 1) then (2 ^ f.mb, q + 1) else (n, q)
    let code := if n < 2 ^ f.mb then n else (q + f.mb + f.bias).toNat * 2 ^ f.mb + (n - 2 ^ f.mb)
    let tiny := decide (E < f.emin) && !(E = f.emin - 1 && (roundTo rm neg m e (E - f.mb)).1 = 2 ^ (f.mb + 1))
    if n ≥ 2 ^ f.mb ∧ code > f.maxFin then
      let toInf := rm = 0 || rm = 4 || (rm = 2 && neg) || (rm = 3 && !neg)
      (sgn + (if toInf && f.top = 0 then f.infBits else f.maxFin), fOVF ||| fINX)
    else if ftz && n < 2 ^ f.mb && n != 0 then (sgn, fFLUSH ||| fUNF ||| fINX)
    else (sgn + code, (if inx then fINX else 0) ||| (if tiny && inx then fUNF else 0))

/-! ## Exact dyadic numbers -/

/-- The number m · 2^e. -/
structure Dy where
  m : Int
  e : Int
deriving DecidableEq, Repr

def Dy.zero : Dy := ⟨0, 0⟩
/-- Both mantissas over the smaller exponent. -/
def Dy.align (a b : Dy) : Int × Int × Int :=
  let e := min a.e b.e
  (a.m * 2 ^ (a.e - e).toNat, b.m * 2 ^ (b.e - e).toNat, e)
def Dy.add (a b : Dy) : Dy := let (x, y, e) := a.align b; ⟨x + y, e⟩
def Dy.neg (a : Dy) : Dy := ⟨-a.m, a.e⟩
def Dy.sub (a b : Dy) : Dy := a.add b.neg
def Dy.mul (a b : Dy) : Dy := ⟨a.m * b.m, a.e + b.e⟩
def Dy.abs (a : Dy) : Dy := ⟨(a.m.natAbs : Int), a.e⟩
def Dy.le (a b : Dy) : Bool := let (x, y, _) := a.align b; decide (x ≤ y)
def Dy.lt (a b : Dy) : Bool := let (x, y, _) := a.align b; decide (x < y)
def Dy.eq (a b : Dy) : Bool := let (x, y, _) := a.align b; decide (x = y)
def Dy.scale (a : Dy) (k : Int) : Dy := ⟨a.m, a.e + k⟩
def Dy.ofNat (n : Nat) : Dy := ⟨n, 0⟩

/-- A finite value as a dyadic number. -/
def dyOf (neg : Bool) (m : Nat) (e : Int) : Dy := ⟨if neg then -(m : Int) else (m : Int), e⟩

/-- The dyadic value of a finite decoded value. -/
def FV.dy : FV → Dy
  | .fin neg m e => dyOf neg m e
  | _ => Dy.zero

/-- Rounds a dyadic number; an exact zero takes the sign given. -/
def FpFmt.roundDy (f : FpFmt) (rm : Nat) (ftz zneg : Bool) (d : Dy) : Nat × Nat :=
  if d.m = 0 then (if zneg then f.signBit else 0, 0) else f.round rm ftz (decide (d.m < 0)) d.m.natAbs d.e

/-! ## Correctly rounded operations (R185, R188) -/

def FV.isNan : FV → Bool
  | .nan _ => true
  | _ => false
def FV.isSnan : FV → Bool
  | .nan b => b
  | _ => false
def FV.isInf : FV → Bool
  | .inf _ => true
  | _ => false
def FV.isZero : FV → Bool
  | .fin _ m _ => m = 0
  | _ => false
def FV.sign : FV → Bool
  | .nan _ => false
  | .inf n => n
  | .fin n _ _ => n
/-- The value with its sign inverted. -/
def FV.negate : FV → FV
  | .nan b => .nan b
  | .inf n => .inf (!n)
  | .fin n m e => .fin (!n) m e

/-- The NaN answer of an operation whose operands hold a NaN: INV for a signalling one (R184). -/
def nanOut (f : FpFmt) (xs : List FV) : Nat × Nat := (f.nan, if xs.any FV.isSnan then fINV else 0)

/-- An infinity of a sign. -/
def FpFmt.infOut (f : FpFmt) (neg : Bool) : Nat := (if neg then f.signBit else 0) + f.infBits

/-- The sign of an exact zero sum (IEEE 754-2019): that of both terms when they agree, else + but under RDN. -/
def zeroSign (rm : Nat) (a b : Bool) : Bool := if a = b then a else rm = 2

/-- a + b. -/
def FpFmt.addV (f : FpFmt) (rm : Nat) (ftz : Bool) (a b : FV) : Nat × Nat :=
  if a.isNan || b.isNan then nanOut f [a, b]
  else if a.isInf && b.isInf && a.sign != b.sign then (f.nan, fINV)
  else if a.isInf then (f.infOut a.sign, 0)
  else if b.isInf then (f.infOut b.sign, 0)
  else f.roundDy rm ftz (zeroSign rm a.sign b.sign) (a.dy.add b.dy)

/-- a · b. -/
def FpFmt.mulV (f : FpFmt) (rm : Nat) (ftz : Bool) (a b : FV) : Nat × Nat :=
  if a.isNan || b.isNan then nanOut f [a, b]
  else if (a.isInf && b.isZero) || (a.isZero && b.isInf) then (f.nan, fINV)
  else if a.isInf || b.isInf then (f.infOut (a.sign != b.sign), 0)
  else f.roundDy rm ftz (a.sign != b.sign) (a.dy.mul b.dy)

/-- a · b + c, rounded once. -/
def FpFmt.fmaV (f : FpFmt) (rm : Nat) (ftz : Bool) (a b c : FV) : Nat × Nat :=
  let ps := a.sign != b.sign
  if a.isNan || b.isNan then nanOut f [a, b, c]
  else if (a.isInf && b.isZero) || (a.isZero && b.isInf) then
    (f.nan, if c.isSnan then fINV else if c.isNan then fOPEN else fINV)
  else if c.isNan then nanOut f [c]
  else if (a.isInf || b.isInf) && c.isInf && ps != c.sign then (f.nan, fINV)
  else if a.isInf || b.isInf then (f.infOut ps, 0)
  else if c.isInf then (f.infOut c.sign, 0)
  else f.roundDy rm ftz (zeroSign rm ps c.sign) ((a.dy.mul b.dy).add c.dy)

/-- a / b: the quotient to more bits than any format holds, with a sticky bit below. -/
def FpFmt.divV (f : FpFmt) (rm : Nat) (ftz : Bool) (a b : FV) : Nat × Nat :=
  let sg := a.sign != b.sign
  if a.isNan || b.isNan then nanOut f [a, b]
  else if (a.isInf && b.isInf) || (a.isZero && b.isZero) then (f.nan, fINV)
  else if a.isInf then (f.infOut sg, 0)
  else if b.isInf then (if sg then f.signBit else 0, 0)
  else if b.isZero then (f.infOut sg, fDZ)
  else match a, b with
    | .fin _ ma ea, .fin _ mb eb =>
      let n := ma <<< 120
      f.round rm ftz sg (2 * (n / mb) + (if n % mb = 0 then 0 else 1)) (ea - eb - 121)
    | _, _ => (f.nan, 0)

/-- ⌊√n⌋ by bits from 2^k down. -/
def isqrt (n : Nat) : (k : Nat) → (r : Nat) → Nat
  | 0, r => if (r + 1) * (r + 1) ≤ n then r + 1 else r
  | k + 1, r => isqrt n k (if (r + 2 ^ (k + 1)) * (r + 2 ^ (k + 1)) ≤ n then r + 2 ^ (k + 1) else r)

/-- √a. -/
def FpFmt.sqrtV (f : FpFmt) (rm : Nat) (ftz : Bool) (a : FV) : Nat × Nat :=
  match a with
  | .nan _ => nanOut f [a]
  | .inf n => if n then (f.nan, fINV) else (f.infBits, 0)
  | .fin n m e =>
    if m = 0 then (if n then f.signBit else 0, 0)
    else if n then (f.nan, fINV)
    else
      let k : Nat := if e % 2 = 0 then 126 else 127
      let v := m <<< k
      let r := isqrt v 90 0
      f.round rm ftz false (2 * r + (if r * r = v then 0 else 1)) ((e - k) / 2 - 1)

/-- minimumNumber and maximumNumber (R192) on encodings: the encoding and its flags. -/
def FpFmt.minmax (f : FpFmt) (isMax : Bool) (ftz : Bool) (x y : Nat) : Nat × Nat :=
  let (a, fa) := f.input ftz x
  let (b, fb) := f.input ftz y
  let flush := fun (w : Nat) => if ftz && f.isSub w then (if w.testBit (f.eb + f.mb) then f.signBit else 0) else w
  let fl := fa ||| fb ||| (if a.isSnan || b.isSnan then fINV else 0)
  let key := fun (v : FV) => match v with
    | .inf n => (if n then (-1 : Int) else 1, Dy.zero)
    | _ => (0, v.dy)
  let less : Bool :=
    let (ka, da) := key a
    let (kb, db) := key b
    if ka ≠ kb then decide (ka < kb) else if ka ≠ 0 then false else if da.eq db then a.sign && !b.sign else da.lt db
  if a.isNan && b.isNan then (f.nan, fl)
  else if a.isNan then (flush y, fl)
  else if b.isNan then (flush x, fl)
  else ((if less == isMax then flush y else flush x), fl)

/-- Compares two encodings: (unordered, equal, less, flags of the operands). -/
def FpFmt.cmp (f : FpFmt) (ftz : Bool) (x y : Nat) : Bool × Bool × Bool × Nat :=
  let (a, fa) := f.input ftz x
  let (b, fb) := f.input ftz y
  let fl := fa ||| fb
  if a.isNan || b.isNan then (true, false, false, fl ||| (if a.isSnan || b.isSnan then fINV else 0))
  else match a, b with
    | .inf n, .inf k => (false, n == k, n && !k, fl)
    | .inf n, _ => (false, false, n, fl)
    | _, .inf k => (false, false, !k, fl)
    | _, _ => (false, a.dy.eq b.dy, a.dy.lt b.dy, fl)

/-- Converts an encoding of format `f` to format `g`, rounded under `rm` (R193). -/
def FpFmt.convert (f g : FpFmt) (rm : Nat) (ftz : Bool) (w : Nat) : Nat × Nat :=
  let (v, fl) := f.input ftz w
  match v with
  | .nan sn => (g.nan, fl ||| (if sn then fINV else 0))
  | .inf n => (g.infOut n, fl)
  | .fin n m e => let (r, fr) := g.round rm ftz n m e; (r, fl ||| fr)

/-- The integer nearest to a finite value under `rm`, and whether it differs. -/
def roundInt (rm : Nat) (neg : Bool) (m : Nat) (e : Int) : Int × Bool :=
  let (n, inx) := roundTo rm neg m e 0
  (if neg then -(n : Int) else (n : Int), inx)

/-- A bounded result (R185, R186; log entry 2): a candidate encoding whose finite value lies within `bound` of the exact
value is taken, else the exact value rounded to nearest even; beyond range it is an infinity with OVF. Under FTZ a
subnormal result becomes zero (R189). -/
def FpFmt.bounded (f : FpFmt) (ftz : Bool) (cand : Nat) (exact bound : Dy) : Nat × Nat :=
  let (r, fr) := f.roundDy 0 ftz false exact
  let own := (r, if fr &&& fFLUSH ≠ 0 then fr else fr &&& fOVF)
  if fr &&& fOVF ≠ 0 then own
  else match f.decode cand with
    | .fin n m e =>
      if ((dyOf n m e).sub exact).abs.le bound then
        (if ftz && f.isSub cand then (if n then f.signBit else 0, fFLUSH ||| fUNF ||| fINX) else (cand, 0))
      else own
    | _ => own

end Sys2Proof.Machine
end

