-- ==== Sys2Proof/Machine/Flags.lean ====
section
/-! DEFINITION. Flag computations: `FPM`, `FPS`, `MXS` and the floating-point trap (R187 to R191, R199). -/

namespace Sys2Proof.Machine

/-- `FPM` as a write stores it: RM 0x5 to 0x7 store 0x0, reserved bits read zero (Table 4 of chapter 7). -/
def fpmStore (w : Word) : Word :=
  let rm := field w 0 3
  word ((if rm < 5 then rm else 0) + field w 3 2 * 8 + field w 8 5 * 256)

/-- `FPM` fields. -/
def fpmRm (w : Word) : Nat := field w 0 3
def fpmFtz (w : Word) : Bool := bit w 3
def fpmSatF8 (w : Word) : Bool := bit w 4
def fpmTinv (w : Word) : Bool := bit w 8

/-- `FPS` as a write stores it (Table 5 of chapter 7). -/
def fpsStore (w : Word) : Word := word (field w 0 6)

/-- `MXS` as a write stores it over the old value: INVPOS is read-only and clears with INV (Table 8 of chapter 7). -/
def mxsStore (old w : Word) : Word :=
  word (field w 0 5 + (if bit w 0 then field old 8 20 * 256 else 0))

/-- The flags a set of operations raised, an open INV (bit 6) settled by a free value. -/
def State.settle (s : State) (fl : Nat) : Nat × State :=
  if fl.testBit 6 ∧ !fl.testBit 0 then
    let (b, s) := s.draw 1
    (fl % 64 ||| b.toNat, s)
  else (fl % 64, s)

/-- Sets sticky flags of `FPS` (R188). -/
def State.setFps (s : State) (t : Tid) (fl : Nat) : State :=
  s.modCtx t (fun c => { c with fps := c.fps ||| word (fl % 64) })

/-- The DETAIL of the FP_TRAP that a vector instruction's flags cause under `FPM`'s enables; 0 for none (R190). -/
def fpTrapDetail (fpm : Word) (fl : Nat) : Nat := fl % 32 &&& field fpm 8 5

/-- Marks a trap due at the boundary after the current instruction (R109). -/
def State.trapDue (s : State) (t : Tid) (code detail : Nat) : State := s.modCtx t (fun c => { c with trapDue := some (code, detail) })

/-- The flags of a retiring vector instruction: `FPS` takes them, and FP_TRAP falls due for an enabled one (R188,
R190). -/
def State.vecFlags (s : State) (t : Tid) (fl : Nat) : State :=
  let (fl, s) := s.settle fl
  let d := fpTrapDetail (s.ctx t).fpm fl
  let s := s.setFps t fl
  if d = 0 then s else s.trapDue t 0x10 d

end Sys2Proof.Machine
end

