-- ==== Sys2Proof/Machine/Paging.lean ====
section
/-! DEFINITION. Accesses as a thread's core makes them: a compute core straight to memory, a Culm core through the
coherent caches and, with paging, through its page tables (chapter 14). -/

namespace Sys2Proof.Machine

/-- Whether a local address is cacheable memory: HBM or the common store (R378). -/
def isCacheable (a : Nat) : Bool := match locOf a with | .hbm _ | .cs _ => true | _ => false

/-- The line that holds an address, as the Culm caches hold it (R379). -/
def State.line (s : State) (l : Nat) : CacheLine := sget {} s.cache l
def State.setLine (s : State) (l : Nat) (x : CacheLine) : State := { s with cache := sput {} s.cache l x }

/-- A byte as the Culm cores see it: from the line some cache holds, else from memory (R383). -/
def State.culmByte (s : State) (a : Nat) : Byte :=
  let x := s.line (a / 64)
  if x.present then x.data.getD (a % 64) 0 else s.byteAt a

/-- Reads bytes as thread `t`'s core does, by local address: the coherent view on a Culm core. -/
def State.readAs (s : State) (t : Tid) (a n : Nat) : Except Nat (List Byte) :=
  if t.unit < 1024 then s.readAcc (tidHalf t) a n
  else
    let out := (wordsOf a n).filter (fun w => !(s.line (w / 64)).present)
    match out.findSome? (s.routeErr (tidHalf t)) with
    | some e => .error e
    | none =>
      if out.any s.unitBad || (wordsOf a n).any (fun w => (s.line (w / 64)).present && (s.line (w / 64)).bad) then .error dUncorrectable
      else .ok ((List.range n).map (fun i => s.culmByte (a + i)))

/-- Writes bytes into the Culm lines that hold them. -/
def State.culmPoke (s : State) (a : Nat) (d : List Byte) : State :=
  forAll d.zipIdx s (fun s p =>
    let x := s.line ((a + p.2) / 64)
    if x.present then s.setLine ((a + p.2) / 64) { x with data := x.data.set ((a + p.2) % 64) p.1, dirty := true } else s)

/-- Writes bytes as thread `t`'s core does, by local address: into the line that the Culm caches hold, else to memory. -/
def State.writeAs (s : State) (t : Tid) (a : Nat) (d : List Byte) : Option Nat × State :=
  if t.unit < 1024 then s.writeAcc (tidHalf t) a d
  else if isCacheable a && (s.line (a / 64)).present && (s.line ((a + d.length - 1) / 64)).present then (none, s.culmPoke a d)
  else s.writeAcc (tidHalf t) a d

/-- What a translated access does (R374). -/
inductive PgKind | fetch | load | store
deriving DecidableEq, Repr

/-- A leaf found by a walk or in a TLB: its entry, where the entry lies, and the page's log2 size. -/
structure Leaf where
  pte : Nat
  at' : Nat
  shift : Nat

/-- The walk of up to four tables from table address `tab` at step `i` (R373, R375): a leaf, or the PAGE reason with the
response's DETAIL above it. -/
def State.walkFrom (s : State) (t : Tid) (va : Nat) : (fuel : Nat) → (i : Nat) → (tab : Nat) → Except Nat Leaf
  | 0, _, _ => .error 3
  | fuel + 1, i, tab =>
    let at' := tab + 8 * (va / 2 ^ (39 - 9 * i) % 512)
    if !isCacheable at' then .error 5
    else match s.readAs t at' 8 with
      | .error e => .error (5 + e * 16)
      | .ok l =>
        let p := leNat l
        if !p.testBit 0 then .error 1
        else if p >>> 44 ≠ 0 ∨ (p.testBit 2 ∧ !p.testBit 1) then .error 4
        else if p / 2 % 8 = 0 then s.walkFrom t va fuel (i + 1) (p / 4096 % 2 ^ 32 * 4096)
        else
          let sh := 39 - 9 * i
          if i = 0 then .error 3
          else if p / 4096 % 2 ^ 32 * 4096 % 2 ^ sh ≠ 0 then .error 3
          else .ok ⟨p, at', sh⟩

/-- A translation the core's TLBs hold for an address (R376). -/
def CulmCore.tlbFind (c : CulmCore) (va : Nat) : Option Leaf :=
  (c.tlb.find? (fun e => (e.asid = c.asid || e.pte.getLsbD 5) && va / 2 ^ e.shift = e.vpn)).map
    (fun e => ⟨e.pte.toNat, e.pteAt, e.shift⟩)

/-- Whether level `lvl` may make the access through a leaf (R374). -/
def leafAllows (p lvl : Nat) (k : PgKind) : Bool :=
  let u := p.testBit 4
  (if lvl = 2 then u else true) &&
  match k with
  | .fetch => p.testBit 3 && (lvl = 2 || !u)
  | .load => p.testBit 1
  | .store => p.testBit 2

/-- The leaf for an address: from the TLBs, else from a walk. -/
def State.findLeaf (s : State) (t : Tid) (va : Nat) : Except Nat Leaf :=
  let c := s.culmCore (t.unit - 1024)
  match c.tlbFind va with
  | some l => .ok l
  | none => s.walkFrom t va 4 0 c.root

/-- Translates a Culm core's virtual address at level `lvl`: the local address, whether it may be cached, and the state
with A and D set and the translation held; or the PAGE DETAIL (R372 to R376). -/
def State.translate (s : State) (t : Tid) (lvl va : Nat) (k : PgKind) : Except Nat (Nat × Bool × State) :=
  let c := s.culmCore (t.unit - 1024)
  let bad := fun (r : Nat) => r + (if k = .store then 128 else 0)
  if lvl = 0 ∨ !c.pgEn then .ok (va, isCacheable va, s)
  else
    match s.findLeaf t va with
    | .error r => .error (bad r)
    | .ok l =>
      if !leafAllows l.pte lvl k then .error (bad 2)
      else
        let p := l.pte ||| 64 ||| (if k = .store then 128 else 0)
        let s1 := if p = l.pte then (none, s) else s.writeAs t l.at' (leBytes 8 p)
        match s1.1 with
        | some e => .error (bad (5 + e * 16))
        | none =>
          let e : Tlb := { asid := c.asid, vpn := va / 2 ^ l.shift, shift := l.shift, pte := word p, pteAt := l.at' }
          let a := p / 4096 % 2 ^ 32 * 4096 + va % 2 ^ l.shift
          .ok (a, isCacheable a && !p.testBit 8,
            s1.2.modCulm (t.unit - 1024) (fun c =>
              { c with tlb := e :: c.tlb.filter (fun x => !(x.vpn = e.vpn && x.shift = e.shift && (x.asid = e.asid || x.pte.getLsbD 5))) }))

/-- The local address of a segment sum at level `lvl`: itself on a compute core, translated on a Culm core. -/
def State.local (s : State) (t : Tid) (lvl va : Nat) (k : PgKind) : Except Nat (Nat × Bool × State) :=
  if t.unit < 1024 then .ok (va, false, s) else s.translate t lvl va k

end Sys2Proof.Machine
end

