-- ==== Sys2Proof/Machine/Traps.lean ====
section
/-! DEFINITION. Exceptions: descriptors and level records, the one entry operation with its re-delivery, fencing and
mailbox, and the return (chapter 4). -/

namespace Sys2Proof.Machine

/-- An exception or gate about to be entered (Table 4 of chapter 4): `pc` is what `XPC` will hold, `retry` what it holds
when the entry is re-delivered (R114), `fixed` the target level where the cause fixes it. -/
structure Exc where
  code : Nat
  kind : Nat := 0
  detail : Nat := 0
  orig : Nat := 0
  also : Nat := 0
  addr : Word := 0
  pc : Word
  retry : Word
  fixed : Option Nat := none
deriving DecidableEq, Repr

/-- A descriptor as decoded (Tables 2 and 7 of chapter 4). -/
structure XDesc where
  handler : Word
  level : Nat
  mailbox : Bool
  sp : Word
deriving DecidableEq, Repr

/-- A fault at the thread's current instruction. -/
def faultAt (s : State) (t : Tid) (code detail : Nat) (addr : Word) : Exc :=
  { code, detail, addr, pc := (s.ctx t).pc, retry := (s.ctx t).pc }

/-- `XDTB` of a thread's core (R106). -/
def State.xdtb (s : State) (t : Tid) : Word := if t.unit < 1024 then (s.core t.unit).xdtb else (s.culmCore (t.unit - 1024)).xdtb
/-- `GDTB` of a thread's core (R106). -/
def State.gdtb (s : State) (t : Tid) : Word := if t.unit < 1024 then (s.core t.unit).gdtb else (s.culmCore (t.unit - 1024)).gdtb

/-- The table base a table register names, 64-byte aligned. -/
def tableBase (w : Word) : Nat := w.toNat / 64 % 2 ^ 38 * 64

/-- Whether every byte of a list is zero. -/
def allZero (l : List Byte) : Bool := l.all (· = 0)

/-- The exception descriptor of a cause, if it can be read and is usable (R106, R113). -/
def State.descriptor (s : State) (t : Tid) (code : Nat) : Option XDesc :=
  if !bit (s.xdtb t) 0 then none
  else match s.readAs t (tableBase (s.xdtb t) + 32 * code) 32 with
  | .error _ => none
  | .ok l =>
    let lv := fld l 8 1
    let fl := fld l 9 1
    if lv > 1 ∨ fl % 2 = 0 ∨ fl > 3 ∨ fld l 0 1 % 2 = 1 ∨ !allZero ((l.drop 10).take 6) ∨ !allZero (l.drop 24) then none
    else some ⟨word (fld l 0 8), lv, fl.testBit 1, word (fld l 16 8)⟩

/-- The local address of level record `m` (R106). -/
def State.levelAt (s : State) (t : Tid) (m : Nat) : Nat := tableBase (s.xdtb t) + 0x800 + 128 * m

/-- Level record `m`, if it can be read and its RZ bytes are zero (R113). -/
def State.levelRec (s : State) (t : Tid) (m : Nat) : Option (List Byte) :=
  match s.readAs t (s.levelAt t m) 128 with
  | .error _ => none
  | .ok l => if allZero (l.drop 120) then some l else none

/-- `SEGn_BASE` as the register keeps it: 8-byte aligned, [63:44] RZ but for n = 3 (Table 3 of chapter 3). -/
def segBase (n : Nat) (w : Word) : Word := if n = 3 then word (w.toNat / 8 * 8) else word (w.toNat / 8 * 8 % 2 ^ 44)
/-- `SEGn_BOUND` as the register keeps it (Table 4 of chapter 3). -/
def segBound (w : Word) : Word := word (w.toNat % 2 ^ 44)

/-- Segment pair `n`. -/
def segGet (x : Segs) (n : Nat) : Seg := match n with | 0 => x.s0 | 1 => x.s1 | 2 => x.s2 | _ => x.s3

/-- Changes segment pair `n`. -/
def segSet (x : Segs) (n : Nat) (v : Seg) : Segs :=
  match n with
  | 0 => { x with s0 := v }
  | 1 => { x with s1 := v }
  | 2 => { x with s2 := v }
  | _ => { x with s3 := v }

/-- The four segment pairs of 64 bytes in ENTRY_SEG order (Table 3 of chapter 4). -/
def segsOf (l : List Byte) : Segs :=
  { s0 := ⟨segBase 0 (word (fld l 0 8)), segBound (word (fld l 8 8))⟩,
    s1 := ⟨segBase 1 (word (fld l 16 8)), segBound (word (fld l 24 8))⟩,
    s2 := ⟨segBase 2 (word (fld l 32 8)), segBound (word (fld l 40 8))⟩,
    s3 := ⟨segBase 3 (word (fld l 48 8)), segBound (word (fld l 56 8))⟩ }

/-- The 64 bytes of a segment save area (R107, R108). -/
def segsBytes (x : Segs) : List Byte :=
  [x.s0, x.s1, x.s2, x.s3].flatMap (fun g => leBytes 8 g.base.toNat ++ leBytes 8 g.bound.toNat)

/-- TOP of the context at the level of a record (R107). -/
def levelTop (r : List Byte) (ctx : Nat) : Word := word (fld r 64 8) - word ctx * word (fld r 72 8)

/-- Save set `n` of a thread. -/
def Ctx.saveSet (c : Ctx) (n : Nat) : SaveSet := if n = 0 then c.xs0 else c.xs1
def Ctx.setSave (c : Ctx) (n : Nat) (x : SaveSet) : Ctx := if n = 0 then { c with xs0 := x } else { c with xs1 := x }

/-- `XST` as read (Table 6 of chapter 4). -/
def SaveSet.xst (x : SaveSet) (ctx : Nat) : Word :=
  word (b2n x.valid + x.plv % 4 * 2 + b2n x.gate * 8 + ctx % 8 * 16 + b2n x.step * 128)
/-- `XCAUSE` as read (Table 6 of chapter 4). -/
def SaveSet.xcause (x : SaveSet) : Word :=
  word (x.code % 64 + x.kind % 4 * 64 + x.detail % 256 * 256 + x.orig % 64 * 2 ^ 16 + x.also % 64 * 2 ^ 24)

/-- The six spilled words of a save set, in ascending order (R112). -/
def SaveSet.bytes (x : SaveSet) (ctx : Nat) : List Byte :=
  leBytes 8 x.pc.toNat ++ leBytes 8 (x.xst ctx).toNat ++ leBytes 8 x.sp.toNat ++ leBytes 8 x.xcause.toNat
    ++ leBytes 8 x.addr.toNat ++ leBytes 8 x.prog

/-- A save set with the fields of an `XST` word. -/
def SaveSet.withXst (x : SaveSet) (w : Word) : SaveSet :=
  { x with valid := bit w 0, plv := field w 1 2, gate := bit w 3, step := bit w 7 }
/-- A save set with the fields of an `XCAUSE` word. -/
def SaveSet.withXcause (x : SaveSet) (w : Word) : SaveSet :=
  { x with code := field w 0 6, kind := field w 6 2, detail := field w 8 8, orig := field w 16 6, also := field w 24 6 }

/-- The save set reloaded from six spilled words; DEPTH and LIMIT stay. -/
def SaveSet.reload (x : SaveSet) (l : List Byte) : SaveSet :=
  let y := (x.withXst (word (fld l 8 8))).withXcause (word (fld l 24 8))
  { y with pc := word (fld l 0 8 / 2 * 2), sp := word (fld l 16 8), addr := word (fld l 32 8), prog := fld l 40 4 }

/-! ## Mailbox and fencing (R115, R116) -/

/-- The local address of the context's fault-mailbox slot: `MBOX` + 32 · k in level 1's ENTRY_SEG SEG0. -/
def State.mailboxAt (s : State) (t : Tid) : Option Nat :=
  if bit (s.xdtb t) 0 then
    match s.levelRec t 1 with
    | none => none
    | some r =>
      let o := fld r 112 8 + 32 * t.ctx
      if o + 32 ≤ (segsOf r).s0.bound.toNat then some ((segsOf r).s0.base.toNat + o) else none
  else none

/-- Writes the context's mailbox slot and wakes context 0 (Table 5 of chapter 4); a core fault is reported instead for
context 0 and where the slot cannot be written (R115, R116). -/
def State.writeMailbox (s : State) (t : Tid) (pc addr : Word) (code orig level st : Nat) : State :=
  if 1024 ≤ t.unit then s.modCulm (t.unit - 1024) (fun c => { c with stopped := true })
  else
    let stuck := s.reportFault (tidTiller t) (.coreFault t.unit) none
    if t.ctx = 0 then stuck
    else match s.mailboxAt t with
      | none => stuck
      | some a =>
        let (w, s1) := s.stamp (tidNode t)
        let r := s1.writeAs t a (leBytes 8 w.toNat ++ leBytes 8 pc.toNat ++ leBytes 8 addr.toNat
          ++ leBytes 1 code ++ leBytes 1 orig ++ leBytes 1 level ++ leBytes 1 st ++ leBytes 4 1)
        match r.1 with
        | some _ => stuck
        | none => (r.2.modCtx t (fun c => { c with mailbox := true })).mailboxWake t.unit

/-- Clears PENDING of the context's mailbox slot if it was set (R135). -/
def State.clearMailbox (s : State) (t : Tid) : State :=
  if (s.ctx t).mailbox then
    let s1 := s.modCtx t (fun c => { c with mailbox := false })
    match s1.mailboxAt t with
    | some a => (s1.writeAs t (a + 28) (leBytes 4 0)).2
    | none => s1
  else s

/-- Fences a thread: it stops with its registers, save sets and segments as they were (R115); a Culm core stops instead
(R123). -/
def State.fence (s : State) (t : Tid) (pc addr : Word) (code orig level : Nat) : State :=
  ((s.modCtx t (fun c => { c with wait := none })).leave t .fenced).writeMailbox t pc addr code orig level 2

/-! ## Entering a level (R112) -/

/-- How one entry attempt ends: it completes; the level record is unusable; or a stack is invalid, with R114's DETAIL
and the rejected sp. -/
inductive EnterRes
  | done (s : State)
  | badRecord (addr : Nat)
  | badStack (detail : Nat) (sp : Word)

/-- The local address of offset `o` of segment pair `g` for an access at level `n`, as a write of the entry (an error
counts as a write error). -/
def State.entryWrite (s : State) (t : Tid) (n : Nat) (g : Seg) (o : Word) (d : List Byte) : Option State :=
  match s.local t n (g.base.toNat + o.toNat) .store with
  | .error _ => none
  | .ok (a, _, s1) =>
    let r := s1.writeAs t a d
    match r.1 with
    | some _ => none
    | none => some r.2

/-- Why the stacks of an entry are refused before anything is written: the spill stack, then the save area (R112,
R114; log entry 10). -/
def stackCheck (set : SaveSet) (seg0 : Seg) (deeper : Bool) (top sp : Word) : Option (Nat × Word) :=
  if set.valid ∧ sp.toNat % 8 ≠ 0 then some (1, sp)
  else if set.valid ∧ sp.toNat < 48 + set.slim then some (3, sp)
  else if set.valid ∧ seg0.bound.toNat < sp.toNat then some (2, sp)
  else if deeper ∧ (top.toNat < 64 ∨ seg0.bound.toNat < top.toNat) then some (2, top - 64)
  else none

/-- The state an entry to level `n` leaves, its writes done: save set written, sp, level and PC of the handler; with
MAILBOX in a pool context the PC stays and the thread stops FAULTED (R112, R116). -/
def State.entered (s : State) (t : Tid) (e : Exc) (n p : Nat) (d : XDesc) (segs : Option Segs) (spill : Bool) (sp' : Word) : State :=
  let c := s.ctx t
  let sp2 := if spill then sp' - 48 else sp'
  let old := c.saveSet n
  let new : SaveSet :=
    { old with pc := e.pc, valid := true, plv := p, gate := e.code = 1, step := c.stepArmed && e.code != 0x16,
               sp := if n < p then s.sp t else sp2, code := e.code, kind := e.kind, detail := e.detail, orig := e.orig,
               also := e.also, addr := e.addr, prog := c.prog, depth := if spill then (old.depth + 1) % 2 ^ 32 else old.depth }
  let held := d.mailbox && t.ctx != 0 && t.unit < 1024
  let s1 := (s.modCtx t (fun c =>
    { c.setSave n new with segs := segs.getD c.segs, level := n, stepArmed := false, trapDue := none, prog := 0, sent := 0, wait := none,
                           pc := if held then c.pc else d.handler, fetchBuf := [],
                           dbg := { c.dbg with late := false } })).setReg t 31 sp2
  if held then
    ((s1.modCtx t (fun c => { c with entered := some (n, d.handler, e.code) })).leave t .faulted).writeMailbox t e.pc e.addr e.code e.orig n 1
  else s1

/-- One entry to level `n` from level `p` under descriptor `d`: every check comes before every write (R112). -/
def State.tryEnter (s : State) (t : Tid) (e : Exc) (n p : Nat) (d : XDesc) : EnterRes :=
  match (if n < p then s.levelRec t n else some []) with
  | none => .badRecord (s.levelAt t n)
  | some r =>
    let c := s.ctx t
    let segs := if n < p then some (segsOf r) else none
    let seg0 := (segs.getD c.segs).s0
    let top := levelTop r t.ctx
    let sp' := if n < p then (if d.sp ≠ 0 then d.sp else top - 64) else s.sp t
    let set := c.saveSet n
    match stackCheck set seg0 (decide (n < p)) top sp' with
    | some (det, bad) => .badStack det bad
    | none =>
      match (if n < p then s.entryWrite t n seg0 (top - 64) (segsBytes c.segs) else some s) with
      | none => .badStack 4 (top - 64)
      | some s1 =>
        match (if set.valid then s1.entryWrite t n seg0 (sp' - 48) (set.bytes t.ctx) else some s1) with
        | none => .badStack 4 sp'
        | some s2 => .done (s2.entered t e n p d segs set.valid sp')

/-- BAD_DESCRIPTOR at level 0, or fencing where that entry cannot be made (R113). -/
def State.badDescriptor (s : State) (t : Tid) (e : Exc) (p addr : Nat) : State :=
  let orig := if e.code = 3 then e.orig else e.code
  let give := s.fence t e.pc (word addr) 2 orig 0
  match s.descriptor t 2 with
  | none => give
  | some d =>
    if d.level ≠ 0 then give
    else match s.tryEnter t { e with code := 2, orig := orig, addr := word addr, detail := 0, pc := e.retry } 0 p d with
      | .done s' => s'
      | .badRecord _ => give
      | .badStack _ sp => s.fence t e.pc sp 2 orig 0

/-- Re-delivery of an entry to level `n` whose stack is invalid (R114). -/
def State.stackEntry (s : State) (t : Tid) (e : Exc) (n p det : Nat) (sp : Word) : State :=
  if n = 0 then s.fence t e.pc sp e.code e.orig 0
  else
    let e' : Exc := { e with code := 3, orig := e.code, detail := det, addr := sp, pc := e.retry }
    match s.descriptor t 3 with
    | none => s.badDescriptor t e' p (tableBase (s.xdtb t) + 32 * 3)
    | some d =>
      match s.tryEnter t e' (n - 1) p d with
      | .done s' => s'
      | .badRecord a => s.badDescriptor t e' p a
      | .badStack _ sp' => s.fence t e'.pc sp' 3 e.code (n - 1)

/-- Enters under a descriptor: the state after, and whether the cause itself was delivered (an interrupt that was not
stays pending, R113, R114). -/
def State.enterUnder (s : State) (t : Tid) (e : Exc) (d : XDesc) : State × Bool :=
  let p := (s.ctx t).level
  let n := match e.fixed with | some l => l | none => min d.level p
  match s.tryEnter t e n p d with
  | .done s' => (s', true)
  | .badRecord a => (s.badDescriptor t e p a, false)
  | .badStack det sp => (s.stackEntry t e n p det sp, false)

/-- Takes an exception (R109 to R116): the shared operation of every cause but GATE. -/
def State.raiseX (s : State) (t : Tid) (e : Exc) : State × Bool :=
  if bit (s.xdtb t) 0 then
    match s.descriptor t e.code with
    | none => (s.badDescriptor t e (s.ctx t).level (tableBase (s.xdtb t) + 32 * e.code), false)
    | some d => s.enterUnder t e d
  else (s.fence t e.pc e.addr e.code e.orig (s.ctx t).level, false)

/-- Takes an exception; where nothing asks whether it was delivered. -/
def State.raise (s : State) (t : Tid) (e : Exc) : State := (s.raiseX t e).1

/-- Raises a fault at the current instruction. -/
def State.fault (s : State) (t : Tid) (code detail : Nat) (addr : Word) : State := s.raise t (faultAt s t code detail addr)

/-! ## Returning (R118) -/

/-- Whether a restored segment pair keeps within limits `lo`, `hi`, without wrap and with its RZ bits clear (R118). -/
def segWithin (g : Word × Word) (n : Nat) (lo hi : Nat) : Bool :=
  lo ≤ g.1.toNat && g.1.toNat + g.2.toNat ≤ hi && g.1 = segBase n g.1 && g.2 = segBound g.2

/-- Reads level `m`'s limits and level `n`'s save area and gives the segments to restore, or RETURN_CHECK's DETAIL. -/
def State.restoredSegs (s : State) (t : Tid) (n m : Nat) : Except Nat Segs :=
  match s.levelRec t n, s.levelRec t m with
  | some rn, some rm =>
    let seg0 := (segsOf rn).s0
    let off := levelTop rn t.ctx - 64
    match s.local t n (seg0.base.toNat + off.toNat) .load with
    | .error _ => .error 5
    | .ok (a, _, _) =>
      match s.readAs t a 64 with
      | .error _ => .error 5
      | .ok l =>
        let w := fun i => word (fld l (8 * i) 8)
        let lo := fld rm 80 8
        let hi := fld rm 88 8
        if segWithin (w 0, w 1) 0 lo hi ∧ segWithin (w 2, w 3) 1 lo hi ∧ segWithin (w 4, w 5) 2 lo hi
            ∧ segWithin (w 6, w 7) 3 (fld rm 96 8) (fld rm 104 8) then .ok (segsOf l)
        else .error 4
  | _, _ => .error 5

/-- Ends a return: PC, sp, level and progress come from the set, the segments from the save area, and the set is
reloaded from the stack or becomes invalid (R118, R119). -/
def State.returned (s : State) (t : Tid) (n : Nat) (segs : Option Segs) (reload : Option (List Byte)) : State :=
  let x := (s.ctx t).saveSet n
  let sp := match reload with | some _ => x.sp + 48 | none => x.sp
  let x' := match reload with
    | some l => { x.reload l with depth := x.depth - 1 }
    | none => { x with valid := false }
  (s.modCtx t (fun c =>
    { c.setSave n x' with pc := x.pc, level := x.plv, prog := x.prog, stepArmed := x.step, segs := segs.getD c.segs,
                          fetchBuf := [], entered := none })).setReg t 31 sp

/-- `RETX` at level `n`: the returned state, or RETURN_CHECK's DETAIL (R118). -/
def State.retx (s : State) (t : Tid) (n : Nat) : Except Nat State :=
  let c := s.ctx t
  let x := c.saveSet n
  let m := x.plv
  if !x.valid then .error 1
  else if m < n then .error 2
  else if m > n ∧ x.depth > 0 then .error 3
  else
    match (if m > n then (s.restoredSegs t n m).map some else .ok none) with
    | .error e => .error e
    | .ok segs =>
      if x.depth > 0 then
        match s.local t n ((segs.getD c.segs).s0.base.toNat + x.sp.toNat) .load with
        | .error _ => .error 5
        | .ok (a, _, s1) =>
          match s1.readAs t a 48 with
          | .error _ => .error 5
          | .ok l => .ok (s1.returned t n segs (some l))
      else .ok (s.returned t n segs none)

end Sys2Proof.Machine
end

