-- ==== Sys2Proof/Machine/Links.lean ====
section
/-! DEFINITION. Sending a packet into the Stolon fabric: the route choice, holds, class-0 policing, the replay buffer and
unreachable destinations (R340, R345, R347, R362). -/

namespace Sys2Proof.Machine

/-- The ports a destination may leave by, in order of choice (R345, Table 7 of chapter 13). -/
def State.choices (s : State) (dest : Nat) : List Nat :=
  match s.loader.routes.find? (fun r => r.first ≤ dest && dest ≤ r.last) with
  | some r => [r.primary, r.alt1, r.alt2].filter (· < 32)
  | none => []

/-- Whether a port is UP. -/
def State.portUp (s : State) (p : Nat) : Bool := (s.port p).st = .up

/-- The ports that are UP. -/
def State.upPorts (s : State) : List Nat := (List.range 32).filter s.portUp

/-- The port a destination's packets leave by: the first of its choices that is UP (R345). -/
def State.routeOf (s : State) (dest : Nat) : Option Nat := (s.choices dest).find? s.portUp

/-- Whether a hold covers a destination (R347, R348). -/
def State.covers (s : State) (h : Hold) (dest : Nat) : Bool :=
  let first := fun (up : List Nat) => (s.choices dest).find? (up.contains ·)
  if h.restore then first h.after = some h.port && first h.before ≠ some h.port && (first h.before).isSome && !h.done.contains dest
  else first h.before = some h.port

/-- Whether a packet of a class may be discarded without an answer when it cannot leave (R345): responses and class 0. -/
def isSilent (c : TClass) : Bool := match c with | .control | .response => true | _ => false

/-- Whether a port is one of a bonded pair (R342). -/
def State.bonded (s : State) (p : Nat) : Bool := s.loader.bond.testBit (p / 2)

/-- Flits the replay buffer of a port holds (R340). -/
def State.replayRoom (s : State) (p : Nat) : Nat := if s.bonded p then 2048 else 1024

/-- The number of a class (R15). -/
def clsNo (c : TClass) : Nat := match c with | .control => 0 | .request => 1 | .response => 2 | .bulk => 3

/-- Puts a packet on a link: it takes the next SEQ, and a copy is kept for replay (R340). -/
def State.transmit (s : State) (p : Nat) (k : Packet) : State :=
  (s.modPort p (fun x =>
    { x with out := x.out ++ [{ k with hops := k.hops + 1 }], kept := x.kept ++ [⟨x.txSeq, k⟩], txSeq := (x.txSeq + 1) % 4096 })).count
    (portNodeNode p) 0x60 (fun q => q % 8 = p % 2 + 2 * clsNo k.cls) 1

/-- Sends a packet on a link that is UP, or lets it wait for room in the replay buffer (R340). -/
def State.putOnLink (s : State) (p : Nat) (k : Packet) : State :=
  let x := s.port p
  if x.txWait.isEmpty && decide (x.kept.length < s.replayRoom p) then s.transmit p k
  else s.modPort p (fun x => { x with txWait := x.txWait ++ [k] })

/-- Sends a packet by port `p`: class 0 from this module waits beyond the port's allotment (R362). -/
def State.leaveBy (s : State) (p : Nat) (k : Packet) (own : Bool) : State :=
  let x := s.port p
  if own ∧ k.cls = .control ∧ x.c0Allot ≤ x.c0Sent then s.modPort p (fun x => { x with c0Wait := x.c0Wait ++ [k] })
  else
    let s1 := s.putOnLink p k
    if own ∧ k.cls = .control then s1.modPort p (fun x => { x with c0Sent := x.c0Sent + 1 }) else s1

/-- How a send ends: the packet left or waits; or nothing can carry it. -/
inductive Sent
  | gone (s : State)
  | unreachable
  | dropped

/-- The send of a packet by the route table alone (R345). -/
def State.routeSend (s : State) (k : Packet) (own : Bool) : Sent :=
  match s.routeOf k.dest with
  | none => if isSilent k.cls then .dropped else .unreachable
  | some p => if 31 ≤ k.hops then .dropped else .gone (s.leaveBy p k own)

/-- Changes hold `i`. -/
def State.modHold (s : State) (i : Nat) (f : Hold → Hold) : State := { s with holds := s.holds.modify i f }

/-- The send of a packet: one for a held destination waits (R345, R347, R348). -/
def State.trySend (s : State) (k : Packet) (own : Bool) : Sent :=
  match s.holds.findIdx? (fun h => s.covers h k.dest) with
  | some i => .gone (s.modHold i (fun h => { h with packets := h.packets ++ [(k, own)] }))
  | none => s.routeSend k own

/-- Counts a discarded packet in `FAB_STAT.HOP_DROP` of port node `h` (R345). -/
def State.hopDrop (s : State) (h : Nat) : State := s.modPortNode h (fun x => { x with hopDrop := satAdd 16 x.hopDrop 1 })

/-- Sends a packet; one that is dropped counts in HOP_DROP of port node `h`. The Bool is false when a request finds its
destination unreachable. -/
def State.send (s : State) (h : Nat) (k : Packet) (own : Bool) : State × Bool :=
  match s.trySend k own with
  | .gone s' => (s', true)
  | .unreachable => (s, false)
  | .dropped => (s.hopDrop h, true)

/-- The home port node of a session (R349). -/
def sessHome (sess : Nat) : Nat := sess / 1024

/-- The fabric code of an error response's DETAIL at the target (Table 9 of chapter 13). -/
def fabricCode (detail : Nat) : Nat :=
  if detail = dDenied then 6 else if detail = dParked then 7 else if detail = dLoading then 8
  else if detail = dUncorrectable then 9 else 0xA

end Sys2Proof.Machine
end

