-- ==== Sys2Proof/Machine/Operands.lean ====
section
/-! DEFINITION. The frame of every instruction (who may issue, what precedes it at its boundary, how it retires) and the
operand forms: segment addresses, remote windows and watchpoints (chapters 3, 13, 16). -/

namespace Sys2Proof.Machine

/-! ## The frame of an instruction -/

/-- Whether a thread can issue an instruction: the module is up, its clock runs, it is RUNNING, and its core is not
held by a takeover (R83, R403) or its Culm node is RUNNING (R388). -/
def State.canIssue (s : State) (t : Tid) : Bool :=
  s.up && (s.ctx t).st = .running && s.clockOn (tidHalf t) &&
  if t.unit < 1024 then (s.tiller (tidTiller t)).takeover != some (t.unit % 16)
  else (s.culmNode ((t.unit - 1024) / 4)).st = 1 && !(s.culmCore (t.unit - 1024)).stopped

/-- The PAGE exception of a translation that failed (R375). -/
def pageExc (s : State) (t : Tid) (detail : Nat) (va : Nat) : Exc := faultAt s t 0x17 detail (word va)

/-- The fetch of `len` bytes at the PC: the fetch buffer holds them afterwards, or SEGMENT, PAGE or ACCESS_ERROR is
raised (R85, R86, R90). -/
def State.fetch (s : State) (t : Tid) (len : Nat) : Except Exc State :=
  let c := s.ctx t
  let pc := c.pc.toNat
  let bound := c.segs.s0.bound.toNat
  if bound < pc + 2 then .error (faultAt s t 9 0 c.pc)
  else if bound < pc + len then .error (faultAt s t 9 0 (c.pc + 2))
  else
    let va := c.segs.s0.base.toNat + pc
    if c.fetchAt ≤ pc ∧ pc + len ≤ c.fetchAt + c.fetchBuf.length then .ok s
    else match s.local t c.level va .fetch with
      | .error d => .error (pageExc s t d va)
      | .ok (a, _, s1) =>
        match s1.readAs t a len with
        | .error d => .error (faultAt s t 0xC d (word a))
        | .ok _ =>
          let l := pc / 64 * 64
          let read := if t.unit < 1024 then s1.byteAt else s1.culmByte
          .ok (s1.modCtx t (fun c => { c with fetchAt := l, fetchBuf := (List.range 128).map (fun i => read (a - (pc - l) + i)) }))

/-- A breakpoint that matches the fetch at the PC: its index and action (R444). -/
def Ctx.breakpoint (c : Ctx) : Option (Nat × Bool) :=
  if c.dbg.skip then none
  else ((List.range 4).find? (fun i =>
      let w := sget 0 c.dbg.bp i
      bit w 0 && field w 1 43 = c.pc.toNat / 2 && bit w (45 + c.level))).map
    (fun i => (i, bit (sget 0 c.dbg.bp i) 44))

/-- Takes DEFERRED_STORE: `XPC` holds the next instruction, `XADDR` the store's address; a trap due at the same boundary
is recorded in ALSO, and STEP stays armed (R86, R111). -/
def State.takeDeferred (s : State) (t : Tid) (a : Word) (d : Nat) : State :=
  let c := s.ctx t
  let e : Exc := { code := 0xD, kind := 3, detail := d, addr := a, pc := c.pc, retry := c.pc,
                   also := match c.trapDue with | some (k, _) => k | none => 0 }
  (s.modCtx t (fun c => { c with deferred := none })).raise t e

/-- Takes the trap due: FP_TRAP before STEP; a STEP not taken is recorded in ALSO and stays armed (R109, R111). -/
def State.takeTrap (s : State) (t : Tid) (code detail : Nat) : State :=
  let c := s.ctx t
  s.raise t { code, kind := 1, detail, pc := c.pc, retry := c.pc, also := if code ≠ 0x16 ∧ c.stepArmed then 0x16 else 0 }

/-- What precedes an instruction at its boundary, in order: a halt request, DEFERRED_STORE, a due trap, the fetch's
faults, a breakpoint; then the instruction's own body (R111, R442, R444). -/
def State.boundary (s : State) (t : Tid) (len : Nat) (body : State → State) : State :=
  let c := s.ctx t
  if c.dbg.pending ∧ !c.dbg.late then s.haltNow t 1 0
  else match c.deferred with
    | some (a, d) => (s.takeDeferred t a d).settleDebug t
    | none =>
      match c.trapDue with
      | some (k, d) => (s.takeTrap t k d).settleDebug t
      | none =>
        match s.fetch t len with
        | .error e => (s.raise t e).settleDebug t
        | .ok s1 =>
          match (s1.ctx t).breakpoint with
          | some (i, true) => (s1.fault t 0x14 (0x10 + i) 0).settleDebug t
          | some (i, false) => s1.haltNow t 3 i
          | none =>
            let s2 := body s1
            -- a trap of the instruction that has just retired is taken before the next issues
            match (s2.ctx t).st, (s2.ctx t).trapDue with
            | .running, some (k, d) => (s2.takeTrap t k d).settleDebug t
            | _, _ => s2.settleDebug t

/-- An instruction of `len` bytes: without effect where the thread cannot issue (log entry 3). -/
def State.issue (s : State) (t : Tid) (len : Nat) (body : State → State) : Out :=
  onUnit (tidOk t) "thread" (if s.canIssue t then s.boundary t len body else s)

/-- Bytes of a form. -/
def lenBytes (l : Len) : Nat := match l with | .short => 2 | .long => 4

/-- ILLEGAL at the current instruction (R102). -/
def State.illegal (s : State) (t : Tid) : State := s.fault t 6 0 0
/-- PRIVILEGE at the current instruction (R100, R101). -/
def State.privilege (s : State) (t : Tid) : State := s.fault t 7 0 0

/-- An instruction of a major that Culm cores do not have raises ILLEGAL there (R370). -/
def State.computeOnly (s : State) (t : Tid) (body : State → State) : Out :=
  s.issue t 4 (fun s => if t.unit < 1024 then body s else s.illegal t)

/-- An instruction of the paged major raises ILLEGAL on compute cores (R103). -/
def State.culmOnly (s : State) (t : Tid) (body : State → State) : Out :=
  s.issue t 4 (fun s => if t.unit < 1024 then s.illegal t else body s)

/-! ## Addresses through segments (R90, R91) -/

/-- What an address names once every check has passed: a local address, one answered as a reserved range, or a remote
offset under a session. -/
inductive Target
  | at' (a : Nat) (cached : Bool)
  | reserved (a : Word)
  | remote (module sess off : Nat)
deriving DecidableEq, Repr

/-- How the checks of an access end. -/
inductive Acc
  | go (tg : Target) (s : State)
  | exc (e : Exc)
  | halt (which : Nat)

/-- The watchpoint an access of `n` bytes at `a` matches: index and action (R445). -/
def Ctx.watchpoint (c : Ctx) (a n : Nat) (write : Bool) : Option (Nat × Bool) :=
  if c.dbg.skip then none
  else ((List.range 4).find? (fun i =>
      let w := sget 0 c.dbg.wpc i
      let sz := min (field w 4 6) 40
      let lo := (sget 0 c.dbg.wpa i).toNat / 2 ^ sz * 2 ^ sz
      bit w 0 && bit w (if write then 3 else 2) && bit w (10 + c.level) && decide (a < lo + 2 ^ sz) && decide (lo < a + n))).map
    (fun i => (i, bit (sget 0 c.dbg.wpc i) 1))

/-- The window entry for a module and offset: LO, HI and SESSION of the lowest-numbered match (R358). -/
def State.windowFor (s : State) (tiller module off : Nat) : Option (Nat × Nat) :=
  (List.range 64).findSome? (fun i =>
    let w := sget {} (s.tiller tiller).windows i
    let lo := field w.w0 12 32 * 4096
    let hi := field w.w1 12 32 * 4096
    if bit w.w0 0 && field w.w0 44 14 = module && lo ≤ off && off < hi then some (hi, field w.w1 44 14) else none)

/-- The target of a compute thread's SEG3 sum (R90 step 4, R358). -/
def State.globalTarget (s : State) (t : Tid) (g off size : Nat) : Except Exc Target :=
  let m := g / 2 ^ 44 % 2 ^ 14
  let o := g % 2 ^ 44
  if g >>> 58 ≠ 0 then .ok (.reserved (word g))
  else if m = 0x3FFF ∨ m = s.moduleId then .ok (.at' o false)
  else match s.windowFor (tidTiller t) m o with
    | none => .error (faultAt s t 0xB 1 (word off))
    | some (hi, sess) => if hi < o + size then .error (faultAt s t 0xB 2 (word off)) else .ok (.remote m sess o)

/-- The checks of an access of `size` bytes at offset `off` of segment `n`, aligned to `align`, in R90's order, with the
watchpoints after step 3 and paging on Culm cores (R90, R372, R445). -/
def State.access (s : State) (t : Tid) (n : Nat) (off : Word) (size align : Nat) (write : Bool) : Acc :=
  let c := s.ctx t
  let g := segGet c.segs n
  let o := off.toNat
  let sum := g.base.toNat + o
  if o % align ≠ 0 then .exc (faultAt s t 8 0 off)
  else if g.bound.toNat < o + size then .exc (faultAt s t 9 0 off)
  else if n = 3 ∧ sum / 2 ^ 44 ≠ g.base.toNat / 2 ^ 44 then .exc (faultAt s t 9 0 off)
  else match c.watchpoint sum size write with
    | some (i, true) => .exc (faultAt s t 0x15 (i + if write then 0x80 else 0) (word sum))
    | some (i, false) => .halt i
    | none =>
      if 1024 ≤ t.unit then
        match s.translate t c.level sum (if write then .store else .load) with
        | .error d => .exc (pageExc s t d sum)
        | .ok (a, cached, s1) => .go (.at' a cached) s1
      else if n = 3 then
        match s.globalTarget t sum o size with
        | .error e => .exc e
        | .ok tg => .go tg s
      else .go (.at' sum false) s

/-- Runs an access whose checks passed, or raises or halts. -/
def State.withAccess (s : State) (t : Tid) (n : Nat) (off : Word) (size align : Nat) (write : Bool) (k : State → Target → State) : State :=
  match s.access t n off size align write with
  | .go tg s1 => k s1 tg
  | .exc e => s.raise t e
  | .halt i => s.haltNow t 4 i

/-- Whether a load from an address holds the core rather than long-stalling: the thread's own core local memory, engine
buffers or tiller memory (R136). -/
def isNear (t : Tid) (a : Nat) : Bool :=
  match locOf a with
  | .clm c _ => c = t.unit
  | .eb c _ => c = t.unit
  | .tm k _ => k = tidTiller t && t.unit < 1024
  | _ => false

/-- Whether an address lies in the thread's own core local memory or engine buffers (R86). -/
def isOwn (t : Tid) (a : Nat) : Bool :=
  match locOf a with
  | .clm c _ => c = t.unit
  | .eb c _ => c = t.unit
  | _ => false

end Sys2Proof.Machine
end

