-- ==== Sys2Proof/Machine/Stores.lean ====
section
/-! DEFINITION. Inboxes and credits, posted stores and accumulate-on-write (chapter 8, R86, R216 to R232). -/

namespace Sys2Proof.Machine

/-! ## Inboxes -/

/-- The range of local addresses an inbox of tiller `T` declares (R222, Table 7 of chapter 8). -/
def Inbox.range (T : Nat) (b : Inbox) : Nat × Nat :=
  let o := b.base * 64
  let lo := match b.store with
    | 0 => clmAddr (T * 16 + b.core) o
    | 1 => ebAddr (T * 16 + b.core) o
    | _ => tmAddr T o
  (lo, lo + b.length * 64)

/-- The inboxes of tiller `T` that bytes `a` to `a + n - 1` overlap. -/
def State.inboxesOver (s : State) (T a n : Nat) : List Nat :=
  (List.range 64).filter (fun i =>
    let b := s.inbox T i
    let r := b.range T
    b.valid && decide (a < r.2) && decide (r.1 < a + n))

/-- The tiller whose inboxes a write to an address answers to, and the core whose own stores it reaches. -/
def inboxTiller (a : Nat) : Option (Nat × Option Nat) :=
  match locOf a with
  | .clm c _ => some (c / 16, some c)
  | .eb c _ => some (c / 16, some c)
  | .tm t _ => some (t, none)
  | _ => none

/-- Whether a write of `n` bytes at `a` by the threads or core DMA of core `src` (none: another agent) needs a credit
(R222). -/
def State.needsCredit (s : State) (src : Option Nat) (a n : Nat) : Bool :=
  match inboxTiller a with
  | none => false
  | some (_, some c) => src != some c
  | some (T, none) => (s.inboxesOver T a n).any (fun i => src != some (T * 16 + (s.inbox T i).core))

/-- The destination's check of a write (R223): the inbox whose credit it used, or refusal with DENIED. -/
def State.creditCheck (s : State) (src : Option Nat) (a n : Nat) (gen : Option Nat) : Except Nat (Option (Nat × Nat)) :=
  if !s.needsCredit src a n then .ok none
  else match inboxTiller a with
    | none => .ok none
    | some (T, _) =>
      match (s.inboxesOver T a n).find? (fun i => let r := (s.inbox T i).range T; r.1 ≤ a && a + n ≤ r.2) with
      | none => .error dDenied
      | some i => if gen = some (s.inbox T i).gen then .ok (some (T, i)) else .error dDenied

/-- Sends a granted count to who waited, with GEN and range (R228, R249, R353). -/
def State.grantTo (s : State) (T i : Nat) (who : CreditWho) (k : Nat) : State :=
  let b := s.inbox T i
  match who with
  | .slot t sl seq =>
    { s with creditMsgs := s.creditMsgs ++ [{ t, slot := sl, seq, inbox := i, tiller := T, body := .grant k b.gen (some (b.range T)) }] }
  | .pregrant tl sc n core =>
    s.modSq tl sc (fun q => { q with steps := q.steps.map (fun x => if x.serial = n then { x with preHeld := x.preHeld ++ [(core, k, b.gen)] } else x) })
  | .dma c => s.modChan c (fun x => { x with creditMsg := x.creditMsg ++ [(T * 64 + i, k, b.gen, 0)] })
  | .stolon port origin tag =>
    (s.send (port / 2) { dest := origin, cls := .response, hops := 0, body := .creditGrant tag 0 k b.gen } true).1

/-- Answers a waiting request with an error response's DETAIL (R225, R228). -/
def State.refuseTo (s : State) (T i : Nat) (who : CreditWho) (detail : Nat) : State :=
  match who with
  | .slot t sl seq =>
    { s with creditMsgs := s.creditMsgs ++ [{ t, slot := sl, seq, inbox := i, tiller := T, body := .error detail }] }
  | .pregrant _ _ _ _ => s
  | .dma c => s.modChan c (fun x => { x with creditMsg := x.creditMsg ++ [(T * 64 + i, 0, 0, detail)] })
  | .stolon port origin tag =>
    (s.send (port / 2) { dest := origin, cls := .response, hops := 0, body := .creditGrant tag (fabricCode detail) 0 0 } true).1

/-- Serves the waiting list of an inbox in arrival order while credits last, each request with min(n, AVAIL) (R228). -/
def State.serveInbox (s : State) (T i : Nat) : (fuel : Nat) → State
  | 0 => s
  | fuel + 1 =>
    let b := s.inbox T i
    match b.waiters with
    | [] => s
    | (who, n) :: rest =>
      if b.avail = 0 then s
      else
        let k := min n b.avail
        ((s.modInbox T i (fun b => { b with avail := b.avail - k, waiters := rest })).grantTo T i who k).serveInbox T i fuel

/-- Sets AVAIL, after which waiting requests are served from it (R224). -/
def State.setAvail (s : State) (T i v : Nat) : State :=
  let s := s.modInbox T i (fun b => { b with avail := min v 65535, overrun := b.overrun || decide (65535 < v) })
  s.serveInbox T i ((s.inbox T i).waiters.length)

/-- Returns `k` credits of generation `gen` to an inbox: old generations and invalid inboxes take none back (R230). -/
def State.returnCredits (s : State) (T i gen k : Nat) : State :=
  let b := s.inbox T i
  if b.valid ∧ gen = b.gen ∧ k ≠ 0 then s.setAvail T i (b.avail + k) else s

/-- A request for `n` credits reaches an inbox (R228): granted, refused with DENIED where it is not declared, or put on
the list, an on-die slot being told the range at once. -/
def State.askInbox (s : State) (T i : Nat) (who : CreditWho) (n : Nat) : State :=
  let b := s.inbox T i
  if !b.valid then s.refuseTo T i who dDenied
  else if b.avail ≠ 0 then
    let k := min n b.avail
    (s.modInbox T i (fun b => { b with avail := b.avail - k })).grantTo T i who k
  else
    let s := s.modInbox T i (fun b => { b with waiters := b.waiters ++ [(who, n)] })
    match who with
    | .slot t sl seq =>
      { s with creditMsgs := s.creditMsgs ++ [{ t, slot := sl, seq, inbox := i, tiller := T, body := .notice (b.range T) }] }
    | _ => s

/-! ## Credit slots (R226 to R230) -/

/-- Credit slot `k` of a thread. -/
def Ctx.slot (c : Ctx) (k : Nat) : CreditSlot := sget {} c.crs k
def State.modSlot (s : State) (t : Tid) (k : Nat) (f : CreditSlot → CreditSlot) : State :=
  s.modCtx t (fun c => { c with crs := sput {} c.crs k (f (c.slot k)) })

/-- The slot of a thread that names an inbox. -/
def Ctx.slotOf (c : Ctx) (T i : Nat) : Option Nat :=
  (List.range 4).find? (fun k => (c.slot k).valid && (c.slot k).tiller = T && (c.slot k).inbox = i)

/-- Frees a slot: its credits are gone and an answer still on its way is returned when it arrives. -/
def CreditSlot.freed (x : CreditSlot) : CreditSlot := { seq := x.seq + 1 }

/-- Returns every slot's credits and frees it (EXIT and KILL, R230). -/
def State.releaseSlots (s : State) (t : Tid) : State :=
  forAll (List.range 4) s (fun s k =>
    let x := (s.ctx t).slot k
    if x.valid then (s.modSlot t k CreditSlot.freed).returnCredits x.tiller x.inbox x.gen x.held else s)

/-- Sends a request for `n` credits from a slot (R227, R229). -/
def State.askCredits (s : State) (t : Tid) (k n : Nat) : State :=
  let x := (s.ctx t).slot k
  { s.modSlot t k (fun x => { x with pending := true, n := n }) with
    creditMsgs := s.creditMsgs ++ [{ t, slot := k, seq := x.seq, inbox := x.inbox, tiller := x.tiller, body := .request n }] }

/-- What the sender's store unit finds for a write (R229). -/
inductive Credit
  | plain
  | held (slot : Nat)
  | wait (slot : Nat) (ask : Bool)
  | exc (detail : Nat)
deriving DecidableEq, Repr

/-- The credit steps of a write of `n` bytes at `a` by a compute thread (R229). -/
def State.creditStep (s : State) (t : Tid) (a n : Nat) : Credit :=
  let c := s.ctx t
  match inboxTiller a with
  | none => .plain
  | some (_, own) =>
    if own = some t.unit then .plain
    else match (List.range 4).find? (fun k => (c.slot k).valid && (c.slot k).pending && (c.slot k).range.isNone) with
      | some k => .wait k false
      | none =>
        match (List.range 4).find? (fun k => match (c.slot k).range with | some r => (c.slot k).valid && r.1 ≤ a && a < r.2 | none => false) with
        | none => if own.isSome then .exc 3 else .plain
        | some k =>
          let x := c.slot k
          if (x.range.getD (0, 0)).2 < a + n then .exc 4
          else if x.held ≠ 0 then .held k
          else .wait k (!x.pending)

/-! ## Posted stores (R86) -/

/-- Whether a request is a remote load. -/
def Req.isLoad (r : Req) : Bool := match r.kind with | .load _ => true | _ => false

/-- The writes of a thread that are outstanding. -/
def State.posted (s : State) (t : Tid) : List Req := s.reqs.filter (fun r => r.src = t && !r.dead && !r.isLoad)

/-- The posted stores a thread has outstanding: a vector store counts once (R159). -/
def State.postedCount (s : State) (t : Tid) : Nat := ((s.posted t).map Req.group).eraseDups.length

/-- The remote loads of a thread that are outstanding, in issue order. -/
def State.remoteLoads (s : State) (t : Tid) : List Req := s.reqs.filter (fun r => r.src = t && !r.dead && r.isLoad)

/-- Removes a thread's remote loads. -/
def State.dropLoads (s : State) (t : Tid) : State := { s with reqs := s.reqs.filter (fun r => !(r.src = t && !r.dead && r.isLoad)) }

/-- Puts a request in flight, as a part of `group` if one is named. -/
def State.sendReq (s : State) (t : Tid) (a : Word) (kind : ReqKind) (credit session : Option (Nat × Nat)) (group : Option Nat)
    (scalar : Bool) : State :=
  { s with
    reqs := s.reqs ++ [{ id := s.nextId, group := group.getD s.nextId, acked := false, src := t, addr := a, kind,
                         level := (s.ctx t).level, credit, resp := none, back := [], session, scalar, dead := false }],
    nextId := s.nextId + 1 }

/-- A duplicated thread folds a store or AOW into its digest (R408). -/
def State.foldStore (s : State) (t : Tid) (seg : Nat) (off : Word) (d : List Byte) : State :=
  if (s.ctx t).dup then
    s.modCtx t (fun c => { c with digest := Config.digest c.digest.toNat seg off.toNat d.length (leNat d) })
  else s

/-- Whether an instruction's store is a scalar store (Tables 6 and 10 of chapter 3). -/
def scalarStore (i : Instr) : Bool :=
  match i with
  | .store _ _ => true
  | .push _ _ => true
  | .call _ _ => true
  | _ => false

/-- How one posted write ends at its sender: it is sent, or the thread waits for a credit or takes CREDIT. -/
inductive PostRes
  | sent (s : State)
  | stop (s : State)

/-- Sends one write of `n` bytes to a target for instruction `i` (R86, R222, R229). -/
def State.postOne (s : State) (t : Tid) (i : Instr) (n : Nat) (tg : Target) (kind : ReqKind) (group : Option Nat) : PostRes :=
  match tg with
  | .reserved a => .sent (s.sendReq t a kind none none group (scalarStore i))
  | .remote m sess off => .sent (s.sendReq t (word (m * 2 ^ 44 + off)) kind none (some (m, sess)) group (scalarStore i))
  | .at' a _ =>
    if t.unit < 1024 then
      match s.creditStep t a n with
      | .plain => .sent (s.sendReq t (word a) kind none none group (scalarStore i))
      | .exc d => .stop (s.fault t 0x12 d (word a))
      | .wait k ask =>
        let s1 := if ask then s.askCredits t k ((s.ctx t).slot k).n else s
        .stop (s1.stall t (.credit k (word a)) i)
      | .held k =>
        let x := (s.ctx t).slot k
        .sent ((s.modSlot t k (fun x => { x with held := x.held - 1 })).sendReq t (word a) kind (some (x.tiller * 64 + x.inbox, x.gen)) none group (scalarStore i))
    else .sent (s.sendReq t (word a) kind none none group (scalarStore i))

/-- Whether a twin suppresses a write: it lands outside its own core's stores (R408). -/
def State.suppressed (s : State) (t : Tid) (tg : Target) : Bool :=
  (s.ctx t).twin && !(match tg with | .at' a _ => isOwn t a | _ => false)

/-- Posts a store or AOW of `n` bytes to a target by instruction `i`: it stalls for room (R86) or for credits (R229),
raises CREDIT, or is sent and `fin` retires it. -/
def State.post (s : State) (t : Tid) (i : Instr) (n : Nat) (tg : Target) (kind : ReqKind) (fin : State → State) : State :=
  if s.suppressed t tg then fin s
  else if 16 ≤ s.postedCount t then s.stall t .postedRoom i
  else match s.postOne t i n tg kind none with
    | .sent s1 => fin s1
    | .stop s1 => s1

/-! ## Accumulate-on-write (R216 to R219) -/

/-- One lane of `w` bits, lane `k`. -/
def lane (w k x : Nat) : Nat := x / 2 ^ (w * k) % 2 ^ w

/-- A floating AOW: lanes of format `f`, each by `g`; the flags of all lanes. -/
def aowLanes (f : FpFmt) (x y : Nat) (g : Nat → Nat → Nat × Nat) : Nat × Nat :=
  (List.range (64 / f.width)).foldl (fun r k =>
    let (v, fl) := g (lane f.width k x) (lane f.width k y)
    (r.1 + v * 2 ^ (f.width * k), r.2 ||| fl)) (0, 0)

/-- A bank's addition: round to nearest even, no flushing (R218). -/
def FpFmt.aowAdd (f : FpFmt) (x y : Nat) : Nat × Nat := f.addV 0 false (f.decode x) (f.decode y)

/-- The bank operation on word `w` with operand `x`: the new word and its flags (Table 4 of chapter 8). -/
def aowOp (op : AowOp) (w x : Nat) : Nat × Nat :=
  let sw := (word w).toInt
  let sx := (word x).toInt
  match op with
  | .add64 => ((w + x) % 2 ^ 64, 0)
  | .add2f32 => aowLanes fmt32 w x fmt32.aowAdd
  | .add4bf16 => aowLanes fmtBf16 w x fmtBf16.aowAdd
  | .max64 => (if sw < sx then x else w, 0)
  | .min64 => (if sx < sw then x else w, 0)
  | .max2f32 => aowLanes fmt32 w x (fmt32.minmax true false)
  | .min2f32 => aowLanes fmt32 w x (fmt32.minmax false false)
  | .max4bf16 => aowLanes fmtBf16 w x (fmtBf16.minmax true false)
  | .min4bf16 => aowLanes fmtBf16 w x (fmtBf16.minmax false false)

/-- Counts a floating AOW's invalid operations and overflows in the `AOW_STAT` of the node that performs it (R219). -/
def State.aowCount (s : State) (T fl : Nat) : State :=
  s.modTiller T (fun x => { x with aowInv := satAdd 32 x.aowInv (if fl &&& fINV = 0 then 0 else 1),
                                   aowOvf := satAdd 31 x.aowOvf (if fl &&& fOVF = 0 then 0 else 1) })

/-- Whether an address lies in one of the four on-die stores (R220). -/
def inStore (a : Nat) : Bool := match locOf a with | .cs _ | .tm _ _ | .clm _ _ | .eb _ _ => true | _ => false

/-- A bank's indivisible read, operation and write of an AOW at `a` (R217, R220): the response's DETAIL, or none. -/
def State.aowAt (s : State) (h : Half) (a : Nat) (op : AowOp) (x : Nat) : Option Nat × State :=
  match s.routeErr h a with
  | some e => (some e, s)
  | none =>
    if !inStore a then (some dDenied, s)
    else if s.unitBad a then (some dUncorrectable, s)
    else
      let (v, fl) := aowOp op (leNat (s.peek a 8)) x
      let s1 := s.poke a (leBytes 8 v)
      match (s.destNode a).bind nodeTiller with
      | some T => (none, s1.aowCount T fl)
      | none => (none, s1)

/-! ## Performing a posted store -/

/-- Counts an uncorrectable read in `SRAM_RAS.UE` or `HBM_RAS.UE` (R213, R325). -/
def State.noteUe (s : State) (a : Nat) : State :=
  match locOf a with
  | .hbm o => s.modStack ((s.hbmPlace o).1 / 32) (fun x => { x with ue := satAdd 16 x.ue 1 })
  | _ => match (s.destNode a).bind nodeTiller with
    | some T => s.modTiller T (fun x => { x with sramUe := satAdd 16 x.sramUe 1 })
    | none => s

/-- Writes bytes at a destination under the credit rules: the DETAIL of the response, none for OK; with AUTO a credit
returns as the write is performed (R223, R230). -/
def State.creditedWrite (s : State) (h : Half) (src : Option Nat) (a n : Nat) (gen : Option Nat)
    (act : State → Option Nat × State) : Option Nat × State :=
  match s.routeErr h a with
  | some e => (some e, s)
  | none =>
    match s.creditCheck src a n gen with
    | .error e => (some e, s)
    | .ok box =>
      let r := act s
      match box with
      | some (T, i) => (r.1, if (s.inbox T i).auto then r.2.returnCredits T i (s.inbox T i).gen 1 else r.2)
      | none => r

/-- Records the response of a request in flight. -/
def State.respond (s : State) (id detail : Nat) (addr : Word) : State :=
  { s with reqs := s.reqs.map (fun r => if r.id = id then { r with resp := some (detail, addr) } else r) }

/-- Performs a request at its bank, if it is a store or AOW to local memory that has not been performed (R51, R92,
R217, R326). -/
def State.performReq (s : State) (r : Req) : State :=
  if r.resp.isSome ∨ r.session.isSome ∨ isCtl r.addr.toNat then s
  else
    let a := r.addr.toNat
    let h := tidHalf r.src
    let src := if r.src.unit < 1024 then some r.src.unit else none
    let finish := fun (n : Nat) (act : State → Option Nat × State) =>
      let x := s.creditedWrite h src a n (r.credit.map Prod.snd) act
      let s2 := if x.1 = some dUncorrectable then x.2.noteUe a else x.2
      s2.respond r.id (x.1.getD 0) r.addr
    match r.kind with
    | .store d => finish d.length (fun s => s.writeAcc h a d)
    | .aow op x => finish 8 (fun s => s.aowAt h a op x.toNat)
    | _ => s

/-- A request and the earlier ones of its source to its destination, in issue order. -/
def State.reqsUpTo (s : State) (r : Req) : List Req :=
  s.reqs.filter (fun q => q.id = r.id || (q.id < r.id && q.src = r.src && s.destNode q.addr.toNat = s.destNode r.addr.toNat))

/-- Performs the request of a number, after the earlier ones of its source to its destination (R51). -/
def State.performId (s : State) (id : Nat) : State :=
  match s.reqs.find? (fun r => r.id = id) with
  | some r => forAll (s.reqsUpTo r) s (fun s q => s.performReq q)
  | none => s

/-- Performs a thread's earlier posted stores to one destination, in issue order: a later access of the thread to that
destination sees them (R51). -/
def State.performTo (s : State) (t : Tid) (node : Option Nat) : State :=
  forAll (s.reqs.filter (fun r => r.src = t && s.destNode r.addr.toNat = node)) s (fun s r => s.performReq r)

/-- A read of the thread's own: its earlier stores to that destination come first; an uncorrectable word is counted and
reported as a fault of the thread's step (R51, R213, R280). -/
def State.threadRead (s : State) (t : Tid) (a n : Nat) : Except (Nat × State) (List Byte × State) :=
  let s := s.performTo t (s.destNode a)
  match s.readAs t a n with
  | .ok l => .ok (l, s)
  | .error e =>
    let s := if e = dUncorrectable then
        let s := s.noteUe a
        match (s.ctx t).step with
        | some st => s.reportFault st.tiller (.uncorrectable a) (some st)
        | none => s
      else s
    .error (e, s)

/-! ## Commands -/

/-- AOW (R216, R217, R220): a posted store of an operation on one aligned 8-byte word. -/
def execAow (t : Tid) (op : AowOp) (rs ra : Reg) (seg : BitVec 2) (disp : BitVec 9) (s : State) : Out :=
  s.computeOnly t (fun s =>
    let off := s.reg t ra + disp.signExtend 64 * 8
    s.withAccess t seg.toNat off 8 8 true (fun s tg =>
      s.post t (.aow t op rs ra seg disp) 8 tg (.aow op (s.reg t rs))
        (fun s => (s.foldStore t seg.toNat off (leBytes 8 (s.reg t rs).toNat)).advance t 4)))

/-- AOW_BANK_PERFORM (R217): the bank performs a posted accumulate-on-write. -/
def execAowBankPerform (req : Nat) (s : State) : Out := .next (if s.up then s.performId req else s)

/-- CREDITED_WRITE_ARRIVE (R222, R223): a write reaches its store, which performs or refuses it. -/
def execCreditedWriteArrive (req : Nat) (s : State) : Out := .next (if s.up then s.performId req else s)

/-- The inbox a handle names, or BAD_HANDLE (R226, R232). -/
def inboxHandle (w : Word) : Option (Nat × Nat) := if w.toNat >>> 12 = 0 then some (field w 6 6, field w 0 6) else none

/-- CRQ (R227). -/
def execCrq (t : Tid) (rd ra : Reg) (n : BitVec 11) (s : State) : Out :=
  s.computeOnly t (fun s =>
    let w := s.reg t ra
    match inboxHandle w with
    | none => s.fault t 0x12 1 w
    | some (T, i) =>
      if n = 0 then s.fault t 0x12 6 w
      else
        let c := s.ctx t
        match (c.slotOf T i).or ((List.range 4).find? (fun k => !(c.slot k).valid)) with
        | none => (s.setReg t rd (-1)).advance t 4
        | some k =>
          let s := s.modSlot t k (fun x => { x with valid := true, tiller := T, inbox := i })
          (((s.askCredits t k n.toNat).setReg t rd (word k)).advance t 4))

/-- CRRET (R227, R230): adds `n` to AVAIL of an inbox of the thread's own core. -/
def execCrret (t : Tid) (ra : Reg) (n : BitVec 11) (s : State) : Out :=
  s.computeOnly t (fun s =>
    let w := s.reg t ra
    match inboxHandle w with
    | none => s.fault t 0x12 1 w
    | some (T, i) =>
      if n = 0 then s.fault t 0x12 6 w
      else if T ≠ tidTiller t then s.fault t 0x12 5 w
      else if !(s.inbox T i).valid then s.fault t 0x12 2 w
      else if (s.inbox T i).core ≠ t.unit % 16 then s.fault t 0x12 5 w
      else (s.setAvail T i ((s.inbox T i).avail + n.toNat)).advance t 4)

/-- CRREL (R227, R230): returns the credits of the slot that names an inbox and frees it. -/
def execCrrel (t : Tid) (ra : Reg) (s : State) : Out :=
  s.computeOnly t (fun s =>
    let w := s.reg t ra
    match inboxHandle w with
    | none => s.fault t 0x12 1 w
    | some (T, i) =>
      match (s.ctx t).slotOf T i with
      | none => s.advance t 4
      | some k =>
        let x := (s.ctx t).slot k
        ((s.modSlot t k CreditSlot.freed).returnCredits T i x.gen x.held).advance t 4)

/-- CRSTAT (R227): HELD of the slot that names an inbox, or −1. -/
def execCrstat (t : Tid) (rd ra : Reg) (s : State) : Out :=
  s.computeOnly t (fun s =>
    let w := s.reg t ra
    match inboxHandle w with
    | none => s.fault t 0x12 1 w
    | some (T, i) =>
      let v := match (s.ctx t).slotOf T i with
        | some k => word ((s.ctx t).slot k).held
        | none => -1
      (s.setReg t rd v).advance t 4)

/-- The first credit message of a thread's slot that satisfies `p`, and the rest. -/
def State.takeCreditMsg (s : State) (t : Tid) (k : Nat) (p : CreditBody → Bool) : Option (CreditMsg × State) :=
  match s.creditMsgs.find? (fun m => m.t = t && m.slot = k && p m.body) with
  | some m => some (m, { s with creditMsgs := s.creditMsgs.erase m })
  | none => none

/-- Whether a credit message is still on its way to the inbox. -/
def CreditBody.isRequest : CreditBody → Bool
  | .request _ => true
  | _ => false

/-- INBOX_CREDIT_REQUEST (R228): a slot's request reaches its inbox. -/
def execInboxCreditRequest (t : Tid) (slot : BitVec 2) (s : State) : Out :=
  onUnit (tidOk t) "thread" <|
    match (if s.up then s.takeCreditMsg t slot.toNat CreditBody.isRequest else none) with
    | none => s
    | some (m, s1) =>
      let who := CreditWho.slot t m.slot m.seq
      match s1.routeErr (tidHalf t) (tmAddr m.tiller 0) with
      | some e => s1.refuseTo m.tiller m.inbox who e
      | none =>
        match m.body with
        | .request n => s1.askInbox m.tiller m.inbox who n
        | _ => s1

/-- Raises an exception in a thread that waits; where the entry leaves it able to run, it is READY. -/
def State.raiseWaiting (s : State) (t : Tid) (e : Exc) : State :=
  let s := s.raise t e
  if (s.ctx t).st = .waiting then s.makeReady t else s

/-- Makes a thread that waits on a credit slot READY: its write is tried again. -/
def State.creditWake (s : State) (t : Tid) (k : Nat) : State :=
  match (s.ctx t).wait with
  | some ⟨.credit j _, _⟩ => if j = k then s.makeReady t else s
  | _ => s

/-- INBOX_CREDIT_GRANT (R228, R229, R232): an answer reaches its slot. A grant adds to HELD, discarding credits of
another GEN; one for a slot since freed goes back; an error clears PENDING and faults a write that waits. -/
def execInboxCreditGrant (t : Tid) (slot : BitVec 2) (s : State) : Out :=
  onUnit (tidOk t) "thread" <|
    match (if s.up then s.takeCreditMsg t slot.toNat (fun b => !b.isRequest) else none) with
    | none => s
    | some (m, s1) =>
      let k := slot.toNat
      let x := (s1.ctx t).slot k
      let live := x.valid && x.seq = m.seq
      match m.body with
      | .request _ => s1
      | .notice r => if live then (s1.modSlot t k (fun x => { x with range := some (x.range.getD r) })).creditWake t k else s1
      | .grant n gen r =>
        if live then
          let s2 := (s1.modSlot t k (fun x =>
            { x with pending := false, gen := gen, held := satAdd 16 (if x.gen = gen then x.held else 0) n,
                     range := match x.range with | some q => some q | none => r })).dogRestart t.unit
          s2.creditWake t k
        else s1.returnCredits m.tiller m.inbox gen n
      | .error d =>
        if live then
          let s2 := s1.modSlot t k (fun x => if x.held = 0 ∧ d = dDenied then x.freed else { x with pending := false })
          match (s2.ctx t).wait with
          | some ⟨.credit j a, _⟩ => if j = k then s2.raiseWaiting t (faultAt s2 t 0x12 (0x10 + d) a) else s2
          | _ => s2
        else s1

/-- A level-1 write of `CRG[i]` (R224): AVAIL and OVER alone. -/
def State.writeCrg (s : State) (T i : Nat) (w : Word) : State :=
  (s.modInbox T i (fun b => { b with overrun := b.overrun && !bit w 63 })).setAvail T i (field w 40 16)

/-- CRG_AVAIL_WRITE (R224): level 1 sets AVAIL and clears OVER. -/
def execCrgAvailWrite (tiller inbox : Nat) (w : Word) (s : State) : Out :=
  onUnit (tiller < 64 && inbox < 64) "inbox" (if s.reachable (tillerNode tiller) then s.writeCrg tiller inbox w else s)

end Sys2Proof.Machine
end

