-- ==== Sys2Proof/Machine/Class0.lean ====
section
/-! DEFINITION. Class-0 traffic: source policing, delivery of increments, and event counters (R31, R41, R55, R260,
R261). -/

namespace Sys2Proof.Machine

/-- Tokens in a plane's bucket, and flits admitted in this frame. -/
def Node.tokens (n : Node) (p : Nat) : Nat := if p = 0 then n.tokens0 else n.tokens1
def Node.admitted (n : Node) (p : Nat) : Nat := if p = 0 then n.admitted0 else n.admitted1

/-- Whether a plane's bucket admits a flit now (R31). -/
def Node.admits (n : Node) (p : Nat) : Bool := n.tokens p ≠ 0 && n.admitted p < n.allot

/-- Takes a token and counts an admission. -/
def Node.take (n : Node) (p : Nat) : Node :=
  if p = 0 then { n with tokens0 := n.tokens0 - 1, admitted0 := n.admitted0 + 1 }
  else { n with tokens1 := n.tokens1 - 1, admitted1 := n.admitted1 + 1 }

/-- Whether a counter with value `c` has reached `v` (R261). -/
def reached (c v : Nat) : Bool := (c + 2 ^ 32 - v % 2 ^ 32) % 2 ^ 32 < 2 ^ 31

/-- Event counter `i` of tiller `t`. -/
def State.evc (s : State) (t i : Nat) : Nat := (sget 0 (s.tiller t).evc i).toNat

/-- Ends every WAITC of the tiller's threads whose counter has reached its value (R142, R261). -/
def State.wakeCounters (s : State) (t : Nat) : State :=
  forAll ((tillerCores t).flatMap (fun c => (List.range 8).map (fun k => (⟨c, k⟩ : Tid)))) s (fun s d =>
    match (s.ctx d).st, (s.ctx d).wait with
    | .waiting, some ⟨.counter i v, _⟩ => if reached (s.evc t i) v then s.endWait d 0 0 else s
    | _, _ => s)

/-- Sets an event counter; waits it satisfies end. -/
def State.setEvc (s : State) (t i v : Nat) : State :=
  (s.modTiller t (fun x => { x with evc := sput 0 x.evc i (bv 32 v) })).wakeCounters t

/-- The plane a class-0 message takes: a tree's own, else that of its route (R26, R257). -/
def C0Msg.plane (m : C0Msg) (src dst : Nat) : Nat := match m with | .tree p _ _ => p | _ => planeOf src dst

/-- The nodes a class-0 message goes to. -/
def C0Msg.nodes (m : C0Msg) (dst : Nat) : List Nat :=
  match m with
  | .tree _ w _ => ((List.range 64).filter (fun t => bit w t)).map tillerNode
  | _ => [dst]

/-- A message travels to one node: dropped and counted at the Rachis before a blocked half (R41),
handed to the fabric at a port node (R361), else on its way to the tiller, in order (R55). -/
def State.flyOne (s : State) (src dst : Nat) (m : C0Msg) : State :=
  if nodeHalf src ≠ nodeHalf dst ∧ s.blocked (nodeHalf dst) then
    s.modNode (s.rachisNode src dst) (fun n => { n with c0drop := satAdd 32 n.c0drop 1 })
  else match m with
    | .away mod t c k =>
      (s.send ((dst / 10) - 1 + if dst % 10 = 0 then 0 else 8)
        { dest := mod, cls := .control, hops := 0, body := .evinc t c k } true).1
    | .awayTree p g c => if s.portUp p then s.leaveBy p { dest := 0, cls := .control, hops := 0, body := .mcEvinc g c } true else s
    | _ => match nodeTiller dst with
      | some t => s.modTiller t (fun x => { x with c0 := x.c0 ++ [m] })
      | none => s

/-- An admitted class-0 message travels to each of its nodes: a tree's flit is replicated. -/
def State.flyC0 (s : State) (src dst : Nat) (m : C0Msg) : State :=
  match m with
  | .tree _ _ c => forAll (m.nodes dst) s (fun s d => s.flyOne src d (.inc c 1))
  | _ => s.flyOne src dst m

/-- Injects a class-0 message at a node (R31): refused for a destination outside the permitted set, held beyond the
allotment, else sent. The Bool is false for a refusal. -/
def State.injectC0 (s : State) (src dst : Nat) (m : C0Msg) : State × Bool :=
  let n := s.node src
  let p := m.plane src dst
  if !(m.nodes dst).all n.permits then (s.modNode src (fun n => { n with deny := satAdd 16 n.deny 1 }), false)
  else if n.waiting.any (fun w => w.2.plane src w.1 = p) || !n.admits p then
    (s.modNode src (fun n => { n with held := satAdd 32 n.held 1, waiting := n.waiting ++ [(dst, m)] }), true)
  else ((s.modNode src (fun n => n.take p)).flyC0 src dst m, true)

/-- Releases the waiting class-0 flits of a node that its buckets admit, oldest first (R31). -/
def State.releaseC0 (s : State) (src : Nat) : (fuel : Nat) → State
  | 0 => s
  | fuel + 1 =>
    let n := s.node src
    match n.waiting.find? (fun w => n.admits (w.2.plane src w.1)) with
    | none => s
    | some w =>
      ((s.modNode src (fun n => { (n.take (w.2.plane src w.1)) with waiting := n.waiting.erase w })).flyC0 src w.1 w.2).releaseC0 src fuel

/-- Sends an increment of a counter by its handle parts: module, tiller, counter (R144, R361). The Bool is false for a
refusal under R31. -/
def State.increment (s : State) (src module t c amount : Nat) : State × Bool :=
  if module = 0x3FFF ∨ module = s.moduleId then s.injectC0 src (tillerNode t) (.inc c amount)
  else
    match s.routeOf module with
    | some p => s.injectC0 src (portNodeNode p) (.away module t c amount)
    | none => (s.modPortNode 0 (fun x => { x with hopDrop := satAdd 16 x.hopDrop 1 }), true)

/-- The increment at its counter: discarded and counted into a loading region (R78), else added modulo 2^32 (R260). -/
def State.applyInc (s : State) (t c amount : Nat) : State :=
  if s.loading t then s.modNode (tillerNode t) (fun n => { n with deny := satAdd 16 n.deny 1 })
  else (s.count (tillerNode t) 0x0C (fun _ => true) 1).setEvc t c ((s.evc t c + amount) % 2 ^ 32)

/-- Whether a class-0 message is an increment of counter `c`. -/
def C0Msg.isInc (c : Nat) : C0Msg → Bool
  | .inc k _ => k = c
  | _ => false

/-- EVC_INCREMENT (R260): the oldest increment on its way to a counter arrives. -/
def execEvcIncrement (tiller ctr : Nat) (s : State) : Out :=
  onUnit (tiller < 64 && ctr < 256) "event counter" <|
    match (if s.up then (s.tiller tiller).c0.find? (C0Msg.isInc ctr) else none) with
    | some (.inc c k) =>
      (s.modTiller tiller (fun x => { x with c0 := x.c0.erase (.inc c k) })).applyInc tiller c k
    | _ => s

/-- EVC_WRITE (R260, R262): level 1 sets a counter. -/
def execEvcWrite (tiller ctr : Nat) (w : Word) (s : State) : Out :=
  onUnit (tiller < 64 && ctr < 256) "event counter" (if s.reachable (tillerNode tiller) then s.setEvc tiller ctr (field w 0 32) else s)

end Sys2Proof.Machine
end

