-- ==== Sys2Proof/Machine/Channels.lean ====
section
/-! DEFINITION. Channels: endpoints, credits, ownership and messages (R146 to R151). -/

namespace Sys2Proof.Machine

/-- Tiller and endpoint of a handle; none for BAD_HANDLE (R146, R151). -/
def chHandle (w : Word) : Option (Nat × Nat) := if w.toNat >>> 14 = 0 then some (field w 8 6, field w 0 8) else none

/-- Slots of an endpoint's queue. -/
def Endpoint.slots (e : Endpoint) : Nat := 2 ^ e.depth

/-- The local address of queue slot `i` of an endpoint of tiller `T`. -/
def Endpoint.slotAt (e : Endpoint) (T i : Nat) : Nat := tmAddr T (e.qbase * 128 + i % e.slots * 128)

/-- Whether a thread may send: nobody else owns the endpoint and a slot is free (R148, R149). -/
def Endpoint.canSend (e : Endpoint) (t : Tid) : Bool := (e.owner.isNone || e.owner = some t) && decide (e.count + e.promised < e.slots)

/-- Whether a listed or arriving request can be granted. -/
def Endpoint.canGrant (e : Endpoint) (w : ChWaiter) : Bool :=
  if w.own then e.owner.isNone || e.owner = some w.t else e.canSend w.t

/-- The endpoint after a grant: an owner, or a slot promised. -/
def Endpoint.grant (e : Endpoint) (w : ChWaiter) : Endpoint :=
  if w.own then { e with owner := some w.t } else { e with promised := e.promised + 1 }

/-- Sends the answer to a channel request back to its thread. -/
def State.answerCh (s : State) (w : ChWaiter) (handle : Nat) (b : ChBody) : State :=
  { s with chCredits := s.chCredits ++ [{ t := w.t, handle, nb := false, own := w.own, dead := w.dead, body := b }] }

/-- Serves an endpoint's list in arrival order: what can be granted is granted (R148). -/
def State.serveEp (s : State) (T e : Nat) : State :=
  forAll (s.ep T e).waiters s (fun s w =>
    if (s.ep T e).canGrant w then
      let s1 := s.modEp T e (fun x => { x with waiters := x.waiters.erase w })
      if w.own && w.dead then s1 else (s1.modEp T e (fun x => x.grant w)).answerCh w (T * 256 + e) .granted
    else s)

/-- Returns a credit to its endpoint (R130, R149). -/
def State.returnChCredit (s : State) (handle : Nat) : State :=
  (s.modEp (handle / 256) (handle % 256) (fun x => { x with promised := x.promised - 1 })).serveEp (handle / 256) (handle % 256)

/-- Releases a thread's ownership of an endpoint. -/
def State.disown (s : State) (t : Tid) (T e : Nat) : State :=
  if (s.ep T e).owner = some t then (s.modEp T e (fun x => { x with owner := none })).serveEp T e else s

/-- R130's channel releases: the staged message, the credit kept, every ownership; requests still on their way are a dead
thread's (R149). -/
def State.releaseChannels (s : State) (t : Tid) : State :=
  let s := match (s.ctx t).chCredit with | some h => s.returnChCredit h | none => s
  let s := s.modCtx t (fun c => { c with stage := [], chCredit := none })
  let s := { s with chCredits := s.chCredits.map (fun m => if m.t = t then { m with dead := true } else m) }
  forAll (s.tillers.flatMap (fun p => p.2.eps.map (fun q => (p.1, q.1)))) s (fun s p =>
    (s.modEp p.1 p.2 (fun x => { x with waiters := x.waiters.map (fun w => if w.t = t then { w with dead := true } else w) })).disown t p.1 p.2)

/-- CHANNEL at the current instruction (R151). -/
def State.channelExc (s : State) (t : Tid) (detail : Nat) (handle : Word) : State := s.fault t 0x11 detail handle

/-- CHPUT (R147). -/
def execChput (t : Tid) (ra : Reg) (i : BitVec 3) (s : State) : Out :=
  s.computeOnly t (fun s => (s.modCtx t (fun c => { c with stage := sput 0 c.stage i.toNat (s.reg t ra) })).advance t 4)

/-- Sends the staged message of `n` words as one flit and retires; CHSEND.NB's rd ← 0 (R147, R148). -/
def State.sendFlit (s : State) (t : Tid) (handle n : Nat) (rd : Reg) : State :=
  let c := s.ctx t
  let m : ChMsg :=
    { tiller := handle / 256, ep := handle % 256, header := word (n + t.unit * 16 + t.ctx * 2 ^ 14),
      words := (List.range 8).map (fun i => if i < n then sget 0 c.stage i else 0) }
  (({ s with chMsgs := s.chMsgs ++ [m] }.modCtx t (fun c => { c with stage := [], chCredit := none })).setReg t rd 0).advance t 4

/-- Whether a thread's request for an endpoint is on its way or on the list. -/
def State.asked (s : State) (t : Tid) (handle : Nat) : Bool :=
  s.chCredits.any (fun m => m.t = t && m.handle = handle && !m.own && !m.dead)
    || (s.ep (handle / 256) (handle % 256)).waiters.any (fun w => w.t = t && !w.own && !w.dead)

/-- CHSEND and CHSEND.NB: a credit kept for the endpoint is used, one for another goes back; else a credit is asked for
(R147 to R149). A twin sends nothing (R408). -/
def State.chSend (s : State) (t : Tid) (i : Instr) (rd ra rb : Reg) (nb : Bool) : State :=
  let w := s.reg t ra
  let n := (s.reg t rb).toNat
  match chHandle w with
  | none => s.channelExc t 1 w
  | some (T, e) =>
    let h := T * 256 + e
    if n = 0 ∨ 8 < n then s.channelExc t 4 w
    else if (s.ctx t).twin then ((s.modCtx t (fun c => { c with stage := [] })).setReg t rd 0).advance t 4
    else if (s.ctx t).chCredit = some h then s.sendFlit t h n rd
    else
      let s1 := match (s.ctx t).chCredit with
        | some k => (s.modCtx t (fun c => { c with chCredit := none })).returnChCredit k
        | none => s
      let s2 := if s1.asked t h then s1 else
        { s1 with chCredits := s1.chCredits ++ [{ t, handle := h, nb, own := false, dead := false, body := .asking }] }
      s2.stall t .channelCredit i

/-- CHSEND (R148). -/
def execChsend (t : Tid) (ra rb : Reg) (s : State) : Out :=
  s.computeOnly t (fun s => s.chSend t (.chsend t ra rb) 0 ra rb false)

/-- CHSEND.NB (R147). -/
def execChsendNb (t : Tid) (rd ra rb : Reg) (s : State) : Out :=
  s.computeOnly t (fun s => s.chSend t (.chsendNb t rd ra rb) rd ra rb true)

/-- Takes the oldest message of an endpoint into the receive buffer; rd ← header; the freed slot serves the list (R147,
R148). -/
def State.takeMsg (s : State) (t : Tid) (T e : Nat) (rd : Reg) (fin : State → State) : State :=
  let x := s.ep T e
  let a := x.slotAt T x.head
  match s.readAcc (tidHalf t) a 72 with
  | .error d => s.fault t 0xC d (word a)
  | .ok l =>
    let words := (List.range 8).foldl (fun m i => sput 0 m i (word (fld l (8 * i) 8))) []
    fin (((s.modCtx t (fun c => { c with rx := words })).setReg t rd (word (fld l 64 8))).modEp T e
      (fun x => { x with head := (x.head + 1) % x.slots, count := x.count - 1 }) |>.serveEp T e)

/-- CHRECV and CHRECV.NB (R147, R151). -/
def State.chRecv (s : State) (t : Tid) (i : Instr) (rd ra : Reg) (nb : Bool) : State :=
  let w := s.reg t ra
  match chHandle w with
  | none => s.channelExc t 1 w
  | some (T, e) =>
    let x := s.ep T e
    if !x.valid then s.channelExc t 2 w
    else if t.unit ≠ T * 16 + x.rxCore ∨ t.ctx ≠ x.rxCtx then s.channelExc t 3 w
    else if x.count ≠ 0 then s.takeMsg t T e rd (fun s => s.advance t 4)
    else if nb then (s.setReg t rd (-1)).advance t 4
    else s.stall t (.channelMessage e rd) i

/-- CHRECV (R147). -/
def execChrecv (t : Tid) (rd ra : Reg) (s : State) : Out := s.computeOnly t (fun s => s.chRecv t (.chrecv t rd ra) rd ra false)

/-- CHRECV.NB (R147). -/
def execChrecvNb (t : Tid) (rd ra : Reg) (s : State) : Out := s.computeOnly t (fun s => s.chRecv t (.chrecvNb t rd ra) rd ra true)

/-- CHOWN (R149): asks the endpoint's tiller for ownership. -/
def execChown (t : Tid) (ra : Reg) (s : State) : Out :=
  s.computeOnly t (fun s =>
    let w := s.reg t ra
    match chHandle w with
    | none => s.channelExc t 1 w
    | some (T, e) =>
      let m : ChCredit := { t, handle := T * 256 + e, nb := false, own := true, dead := false, body := .asking }
      State.stall { s with chCredits := s.chCredits ++ [m] } t (.channelOwner (T * 256 + e)) (.chown t ra))

/-- CHREL (R149, R151). -/
def execChrel (t : Tid) (ra : Reg) (s : State) : Out :=
  s.computeOnly t (fun s =>
    let w := s.reg t ra
    match chHandle w with
    | none => s.channelExc t 1 w
    | some (T, e) =>
      if !(s.ep T e).valid then s.channelExc t 2 w
      else if (s.ep T e).owner ≠ some t then s.channelExc t 5 w
      else (s.disown t T e).advance t 4)

/-- Whether a channel message is still on its way to the tiller. -/
def ChBody.isAsking (b : ChBody) : Bool := match b with | .asking => true | _ => false

/-- CHANNEL_CREDIT_REQUEST (R148, R149): a thread's request reaches its tiller: granted, listed, turned away (CHSEND.NB),
or answered with an error. -/
def execChannelCreditRequest (t : Tid) (s : State) : Out :=
  onUnit (tidOk t && !tidCulm t) "thread" <|
    match (if s.up then s.chCredits.find? (fun m => m.t = t && m.body.isAsking) else none) with
    | none => s
    | some m =>
      let T := m.handle / 256
      let e := m.handle % 256
      let s1 := { s with chCredits := s.chCredits.erase m }
      let w : ChWaiter := ⟨t, m.own, m.dead⟩
      match s1.routeErr (tidHalf t) (tmAddr T 0) with
      | some d => s1.answerCh w m.handle (.error (0x10 + d))
      | none =>
        if !(s1.ep T e).valid then s1.answerCh w m.handle (.error 2)
        else if m.own && m.dead then s1
        else if (s1.ep T e).canGrant w then (s1.modEp T e (fun x => x.grant w)).answerCh w m.handle .granted
        else if m.nb then s1.answerCh w m.handle .turnedAway
        else s1.modEp T e (fun x => { x with waiters := x.waiters ++ [w] })

/-- The endpoint, word count and rd of the CHSEND that a thread waits in. -/
def State.sendWait (s : State) (t : Tid) : Option (Nat × Nat × Reg) :=
  match (s.ctx t).wait with
  | some ⟨.channelCredit, .chsend _ ra rb⟩ => some ((s.reg t ra).toNat, (s.reg t rb).toNat, 0)
  | some ⟨.channelCredit, .chsendNb _ rd ra rb⟩ => some ((s.reg t ra).toNat, (s.reg t rb).toNat, rd)
  | _ => none

/-- A grant for CHSEND reaches its thread: the flit leaves; a thread taken by an interrupt keeps the credit; else it goes
back (R148, R149). -/
def State.creditArrives (s : State) (t : Tid) (m : ChCredit) : State :=
  if m.dead then s.returnChCredit m.handle
  else match s.sendWait t with
    | some (h, n, rd) => if h = m.handle then (s.sendFlit t h n rd).makeReady t else s.returnChCredit m.handle
    | none =>
      if (s.ctx t).chCredit.isNone then s.modCtx t (fun c => { c with chCredit := some m.handle })
      else s.returnChCredit m.handle

/-- CHANNEL_CREDIT_GRANT (R148, R149): the answer to a channel request reaches its thread. -/
def execChannelCreditGrant (t : Tid) (s : State) : Out :=
  onUnit (tidOk t && !tidCulm t) "thread" <|
    match (if s.up then s.chCredits.find? (fun m => m.t = t && !m.body.isAsking) else none) with
    | none => s
    | some m =>
      let s1 := { s with chCredits := s.chCredits.erase m }.dogRestart t.unit
      let waits := match (s1.ctx t).wait with
        | some ⟨.channelOwner h, _⟩ => m.own && h = m.handle
        | _ => !m.own && (match s1.sendWait t with | some (h, _, _) => h = m.handle | none => false)
      match m.body with
      | .asking => s1
      | .granted =>
        if m.own then
          (if waits && !m.dead then s1.endWait t 0 0 else s1.disown t (m.handle / 256) (m.handle % 256))
        else s1.creditArrives t m
      | .turnedAway =>
        match s1.sendWait t with
        | some (_, _, rd) => if waits && !m.dead then s1.endWait t rd (-1) else s1
        | none => s1
      | .error d => if waits && !m.dead then s1.raiseWaiting t (faultAt s1 t 0x11 d (word m.handle)) else s1

/-- The thread that waits in CHRECV on an endpoint, with its rd. -/
def State.recvWaiter (s : State) (T e : Nat) : Option (Tid × Reg) :=
  let x := s.ep T e
  let t : Tid := ⟨T * 16 + x.rxCore, x.rxCtx⟩
  match (s.ctx t).st, (s.ctx t).wait with
  | .waiting, some ⟨.channelMessage k rd, _⟩ => if k = e then some (t, rd) else none
  | _, _ => none

/-- CHANNEL_MESSAGE_ARRIVE (R148): the oldest message flit for an endpoint is written whole to its slot; a waiting
receiver takes it. -/
def execChannelMessageArrive (tiller ep : Nat) (s : State) : Out :=
  onUnit (tiller < 64 && ep < 256) "endpoint" <|
    match (if s.up then s.chMsgs.find? (fun m => m.tiller = tiller && m.ep = ep) else none) with
    | none => s
    | some m =>
      let s1 := { s with chMsgs := s.chMsgs.erase m }
      let x := s1.ep tiller ep
      if !x.valid ∨ x.promised = 0 ∨ (s1.routeErr (tillerHalf tiller) (tmAddr tiller 0)).isSome then s1
      else
        let d := m.words.flatMap (fun w => leBytes 8 w.toNat) ++ leBytes 8 m.header.toNat
        let s2 := (s1.writeAcc (tillerHalf tiller) (x.slotAt tiller (x.head + x.count)) d).2
        let s3 := ((s2.count (tillerNode tiller) 0x0D (fun _ => true) 1).modEp tiller ep (fun x => { x with count := x.count + 1, promised := x.promised - 1 })).dogRestart (tiller * 16 + x.rxCore)
        match s3.recvWaiter tiller ep with
        | some (t, rd) =>
          let s4 := s3.takeMsg t tiller ep rd (fun s => s.advance t 4)
          if (s4.ctx t).st = .waiting then s4.makeReady t else s4
        | none => s3

/-- The endpoint a word of `CHEP` describes (Table 11 of chapter 5). -/
def Endpoint.ofWord (x : Endpoint) (w : Word) : Endpoint :=
  { x with valid := bit w 0, rxCtx := field w 1 3, rxCore := field w 4 4, depth := field w 8 4, qbase := field w 16 15 }

/-- `CHEP` as read. -/
def Endpoint.read (x : Endpoint) : Word :=
  word (b2n x.valid + x.rxCtx % 8 * 2 + x.rxCore % 16 * 16 + x.depth % 16 * 256 + x.qbase % 2 ^ 15 * 2 ^ 16
    + x.count % 512 * 2 ^ 32 + b2n x.owner.isSome * 2 ^ 41)

/-- Writing VALID = 0: the queue is discarded, every waiting request and CHRECV gets CHANNEL (R150). -/
def State.closeEp (s : State) (T e : Nat) : State :=
  let r := s.recvWaiter T e
  let ws := (s.ep T e).waiters
  let s1 := s.modEp T e (fun x => { x with valid := false, head := 0, count := 0, promised := 0, waiters := [] })
  let s2 := forAll ws s1 (fun s w => s.answerCh w (T * 256 + e) (.error 2))
  match r with
  | some (t, _) => s2.raiseWaiting t (faultAt s2 t 0x11 2 (word (T * 256 + e)))
  | none => s2

/-- A level-1 write of `CHEP[e]` (R150): of a valid endpoint only VALID may be cleared, all other fields as they are. -/
def State.writeChep (s : State) (T e : Nat) (w : Word) : State :=
  let x := s.ep T e
  let y := x.ofWord w
  if x.valid then
    if { y with valid := true } = x ∧ !y.valid then s.closeEp T e else s
  else if y.valid ∧ (8 < y.depth ∨ 0x400000 < y.qbase * 128 + y.slots * 128) then s
  else s.modEp T e (fun _ => y)

/-- CHEP_WRITE (R150). Level 2 is denied. -/
def execChepWrite (lvl : Lvl) (tiller ep : Nat) (w : Word) (s : State) : Out :=
  onUnit (tiller < 64 && ep < 256) "endpoint" (if lvl = .task ∨ !s.reachable (tillerNode tiller) then s else s.writeChep tiller ep w)

end Sys2Proof.Machine
end

