-- ==== Sys2Proof/Machine/Steps.lean ====
section
/-! DEFINITION. What threads and steps have in common: how a context starts and ends, the steps threads belong to, remote
forks, and the stop of a schedule context (R126, R128 to R131, R135, R275, R285). -/

namespace Sys2Proof.Machine

/-! ## Steps in flight -/

/-- The step of a schedule context with a serial number. -/
def SqCtx.stepOf (q : SqCtx) (n : Nat) : Option Step := q.steps.find? (fun x => x.serial = n)

/-- The step a reference names. -/
def State.stepAt (s : State) (r : StepRef) : Option Step := (s.sq r.tiller r.sctx).stepOf r.serial

/-- Changes the step a reference names. -/
def State.modStep (s : State) (r : StepRef) (f : Step → Step) : State :=
  s.modSq r.tiller r.sctx (fun q => { q with steps := q.steps.map (fun x => if x.serial = r.serial then f x else x) })

/-- Aborts a schedule context with an ERR: it issues nothing further and a replay not yet issued is dropped (R285,
R286). -/
def State.abortSq (s : State) (t k err : Nat) : State :=
  s.modSq t k (fun q =>
    if q.st = .running ∨ q.st = .stopped then
      { q with st := .aborting, err := err, steps := q.steps.filter (fun x => !x.replayDue) }
    else q)

/-- Whether what a step started has ended: no fork waits, no thread is left, its chain is complete. -/
def Step.quiet (x : Step) : Bool := x.forksLeft.isEmpty && x.live.isEmpty && x.dmaDone

/-- The primary core of a duplicated thread (R408). -/
def dupKey (t : Tid) (twin : Bool) : Nat := if twin then (t.unit % 16) ^^^ 8 else t.unit % 16

/-- The digests of the other thread of a pair that differ from `d`. -/
def Step.mismatch (x : Step) (key : Nat) (twin : Bool) (d : Word) : Bool :=
  x.digests.any (fun p => p.1 = key && p.2.1 != twin && p.2.2 != d)

/-- A thread leaves its step: by EXIT with its code, or by KILL, which makes the step fail as bit 31 of a code does
(R275); a duplicated thread's digest joins its step's, and a difference is a fault (R408). -/
def State.leaveStep (s : State) (t : Tid) (code : Option Nat) : State :=
  let c := s.ctx t
  match c.step with
  | none => s
  | some r =>
    let failed := match code with | some k => k.testBit 31 | none => true
    let s1 := (s.modCtx t (fun c => { c with step := none })).modStep r (fun x => { x with live := x.live.erase t, failed := x.failed || failed })
    let s2 := if failed then s1.abortSq r.tiller r.sctx 5 else s1
    match c.dup, code with
    | true, some k =>
      let key := dupKey t c.twin
      let d := c.digest + word k
      let s3 := match s2.stepAt r with
        | some x => if x.mismatch key c.twin d then s2.reportFault r.tiller .dupMismatch (some r) else s2
        | none => s2
      s3.modStep r (fun x => { x with digests := x.digests ++ [(key, c.twin, d)] })
    | _, _ => s2

/-! ## Starting a context -/

/-- A context started anew: registers, segments, save sets, counters as R126, R128 and R131 give them; `FPS`, `MXS` and
the channel buffers are for the caller. -/
def Ctx.anew (c : Ctx) (level : Nat) (g : Sparse Word) (pc : Word) (segs : Segs) (fpm : Word) : Ctx :=
  { c with level := level, g := g, v := [], pc := pc, segs := segs, fpm := fpm,
           xs0 := { c.xs0 with valid := false, depth := 0 }, xs1 := { c.xs1 with valid := false, depth := 0 },
           prog := 0, stepArmed := false, trapDue := none, deferred := none, wait := none, otc := [],
           fetchAt := 0, fetchBuf := [], step := none, twin := false, dup := false, digest := 0, mailbox := false, entered := none }

/-- A pool context as a fork starts it (R128, R131): the generation counts the fork. -/
def Ctx.forked (c : Ctx) (g : Sparse Word) (pc : Word) (segs : Segs) (fpm : Word) : Ctx :=
  { c.anew 2 g pc segs fpm with
    fps := 0, mxs := 0, stage := [], rx := [], chCredit := none, gen := (c.gen + 1) % 256, dissolved := false }

/-- Registers g1 to g8 from a list and g31. -/
def forkRegs (args : List Word) (sp : Word) : Sparse Word :=
  sput 0 ((List.range 8).foldl (fun m i => sput 0 m (i + 1) (args.getD i 0)) []) 31 sp

/-- The context a fork takes: the lowest free of 1 to 7, or the one named if it is free (R128, R131). -/
def State.freeCtx (s : State) (core sel : Nat) : Option Nat :=
  (List.range 8).find? (fun k => k ≠ 0 && (sel = 0 || sel = k) && (s.ctx ⟨core, k⟩).st = .free)

/-! ## Remote forks (R131, R231, R273, R274) -/

/-- Whether a core takes forks: its half's clock runs and no takeover holds it (R403). -/
def State.coreOpen (s : State) (core : Nat) : Bool :=
  s.clockOn (tillerHalf (core / 16)) && (s.tiller (core / 16)).takeover != some (core % 16)

/-- Loads the pre-grant of a forked thread into its slot 0: the credits granted, or PENDING while the request is on the
inbox's list (R231, R274). -/
def State.loadPregrant (s : State) (r : StepRef) (x : Step) (t : Tid) : State :=
  let T := field (word x.rec'.pregrant) 6 6
  let i := x.rec'.pregrant % 64
  let n := x.rec'.pregrant / 4096 % 2048
  let c := t.unit % 16
  let slot : CreditSlot := (s.ctx t).slot 0
  let base : CreditSlot :=
    { slot with inbox := i, tiller := T, valid := true, n := n, range := some ((s.inbox T i).range T) }
  match x.preHeld.find? (fun p => p.1 = c) with
  | some (_, k, gen) =>
    (s.modSlot t 0 (fun _ => { base with held := k, gen := gen })).modStep r
      (fun x => { x with preHeld := x.preHeld.filter (fun p => p.1 != c) })
  | none =>
    let who := CreditWho.pregrant r.tiller r.sctx r.serial c
    if (s.inbox T i).waiters.any (fun w => w.1 = who) then
      ((s.modInbox T i (fun b => { b with waiters := b.waiters.map (fun w => if w.1 = who then (.slot t 0 slot.seq, w.2) else w) })).modSlot t 0
        (fun _ => { base with pending := true })).modStep r (fun x => { x with preWait := x.preWait ++ [(t, slot.seq)] })
    else s

/-- Serves a fork of a step that waits at its core, if a context is free (R131): PC, sp and g1 to g8 from the step,
segments from `TSEG`, `FPM` at its reset value. -/
def State.serveFork (s : State) (r : StepRef) (c : Nat) (twin : Bool) : State :=
  let core := r.tiller * 16 + c
  match s.stepAt r with
  | none => s
  | some x =>
    if !s.coreOpen core then s
    else match s.freeCtx core x.rec'.ctx with
      | none => s
      | some k =>
        let t : Tid := ⟨core, k⟩
        let regs := forkRegs x.args (word x.rec'.sp)
        let s1 := s.modCtx t (fun y =>
          { y.forked regs (word x.rec'.pc) (s.core core).tseg 0 with step := some r, twin := twin, dup := x.rec'.dup })
        let s2 := s1.modStep r (fun x => { x with forksLeft := x.forksLeft.erase (c, twin), live := x.live ++ [t] })
        let s3 := if twin then s2 else s2.loadPregrant r x t
        s3.makeReady t

/-- Puts a waiting fork in its place by the age of its step. -/
def forkInsert (a : StepRef × Bool) : List (StepRef × Bool) → List (StepRef × Bool)
  | [] => [a]
  | b :: l => if a.1.serial < b.1.serial then a :: b :: l else b :: forkInsert a l

/-- The forks that wait at core `c` of tiller `T`, oldest step first. -/
def State.waitingForks (s : State) (T c : Nat) : List (StepRef × Bool) :=
  ((List.range 8).flatMap (fun k => (s.sq T k).steps.flatMap (fun x =>
    (x.forksLeft.filter (fun p => p.1 = c)).map (fun p => (⟨T, k, x.serial⟩, p.2))))).foldr forkInsert []

/-- Serves the forks that wait at a core. -/
def State.serveForks (s : State) (core : Nat) : State :=
  forAll (s.waitingForks (core / 16) (core % 16)) s (fun s p => s.serveFork p.1 (core % 16) p.2)

/-! ## Tiles and gangs of a thread that ends -/

/-- The tiles a context owns (R165). -/
def Core.tilesOf (c : Core) (k : Nat) : List Nat := (List.range 16).filter (fun n => field c.town (4 * n) 4 = k)

/-- Makes tiles EMPTY: their tags alone change (R166). -/
def Core.emptyTiles (c : Core) (l : List Nat) : Core :=
  l.foldl (fun c n => { c with tiles := sput {} c.tiles n (let x : Tile := sget {} c.tiles n; { data := x.data, scale := x.scale }) }) c

/-- R166 and R173 for a thread that ends: its MMAs not started go, its tiles become EMPTY, at once or when its MMA on the
array completes. -/
def Core.releaseTiles (c : Core) (k : Nat) : Core :=
  let c := { c with mmaQueue := c.mmaQueue.filter (fun m => m.ctx ≠ k) }
  match c.mmaArray with
  | some m =>
    if m.ctx = k ∧ !m.dead then { c with mmaArray := some { m with dead := true, empties := c.tilesOf k } }
    else c.emptyTiles (c.tilesOf k)
  | none => c.emptyTiles (c.tilesOf k)

/-- The members of the gang a core's thread is in. -/
def State.gangMembers (s : State) (core : Nat) : List Tid :=
  match (s.core core).gang with
  | none => []
  | some (mask, _) =>
    ((List.range 4).filter (fun i => mask.testBit i)).filterMap (fun i =>
      match (s.core (core / 4 * 4 + i)).gang with
      | some (m, k) => if m = mask then some ⟨core / 4 * 4 + i, k⟩ else none
      | none => none)

/-- Dissolves the gang of a core (R178): members waiting in MMA.G take GANG with DISSOLVED. -/
def State.dissolve (s : State) (core : Nat) : State :=
  let ms := s.gangMembers core
  let s1 := forAll ms s (fun s t => (s.modCore t.unit (fun c => { c with gang := none })).modCtx t (fun c => { c with dissolved := true }))
  forAll ms s1 (fun s t =>
    match (s.ctx t).st, (s.ctx t).wait with
    | .waiting, some ⟨.gangMma, _⟩ => s.raiseWaiting t (faultAt s t 0xF 3 0)
    | _, _ => s)

/-- Discards the MMA.G of a killed thread that have not started, in every member (R173, R177); a member that waits for
one to complete takes GANG with DISSOLVED. -/
def State.dropGangMmas (s : State) (t : Tid) : State :=
  let lists := (((s.core t.unit).mmaQueue.filter (fun m => m.ctx = t.ctx && !m.gang.isEmpty)).map AccMma.gang).eraseDups
  forAll lists s (fun s l => forAll (l.filter (· != t.unit)) s (fun s c =>
    let s1 := s.modCore c (fun x => { x with mmaQueue := x.mmaQueue.filter (fun m => m.gang ≠ l) })
    forAll (List.range 8) s1 (fun s k =>
      match (s.ctx ⟨c, k⟩).st, (s.ctx ⟨c, k⟩).wait with
      | .waiting, some ⟨.mmaDone, .mmaG _ _⟩ => s.raiseWaiting ⟨c, k⟩ (faultAt s ⟨c, k⟩ 0xF 3 0)
      | _, _ => s)))

/-- The lowest context of a core that waits in GANG with a mask. -/
def Core.gangWaiter (c : Core) (mask : Nat) : Option Nat :=
  (List.range 8).find? (fun k =>
    match (sget {} c.ctx k).st, (sget {} c.ctx k).wait with
    | .waiting, some ⟨.gang m, _⟩ => m = mask
    | _, _ => false)

/-- Forms the gang of a mask in a quad once every named core has a thread waiting for it and none is in a gang (R176). -/
def State.formGang (s : State) (quad mask : Nat) : State :=
  let cores := ((List.range 4).filter (fun i => mask.testBit i)).map (quad * 4 + ·)
  let members := cores.filterMap (fun c => ((s.core c).gangWaiter mask).map (fun k => (⟨c, k⟩ : Tid)))
  if members.length = cores.length ∧ cores.all (fun c => (s.core c).gang.isNone) then
    forAll members s (fun s t =>
      ((s.modCore t.unit (fun c => { c with gang := some (mask, t.ctx) })).modCtx t (fun c => { c with dissolved := false })).endWait t 0 0)
  else s

/-- The masks a gang may have: two or four of a quad's cores (R176). -/
def gangMasks : List Nat := [3, 5, 6, 9, 10, 12, 15]

/-- Dissolves a thread's gang, if it is in one; a gang that waited for these cores may then form. -/
def State.leaveGang (s : State) (t : Tid) : State :=
  match (s.core t.unit).gang with
  | some (_, k) =>
    if k = t.ctx then forAll gangMasks (s.dissolve t.unit) (fun s m => s.formGang (t.unit / 4) m) else s
  | none => s

/-! ## Ending a thread -/

/-- What a JOIN on a handle answers now; none while it waits (R129). -/
def State.joinNow (s : State) (t : Tid) (h : Word) : Option Word :=
  let k := field h 0 3
  let gen := field h 8 8
  let x := s.ctx ⟨t.unit, k⟩
  if k = 0 ∨ k = t.ctx ∨ h.toNat ≠ gen * 256 + k then some (-1)
  else match x.lastExit with
    | some (g, code) => if gen = g then some (word code) else if gen = x.gen ∧ x.st ≠ .free then none else some (-1)
    | none => if gen = x.gen ∧ x.st ≠ .free then none else some (-1)

/-- Ends the JOINs of a core whose condition has come. -/
def State.wakeJoins (s : State) (core : Nat) : State :=
  forAll (List.range 8) s (fun s j =>
    let t : Tid := ⟨core, j⟩
    match (s.ctx t).st, (s.ctx t).wait with
    | .waiting, some ⟨.join k g rd, _⟩ =>
      match s.joinNow t (word (k + g * 256)) with
      | some v => s.endWait t rd v
      | none => s
    | _, _ => s)

/-- The errors and data of a thread's accesses in flight are discarded from now on (R135). -/
def State.orphanReqs (s : State) (t : Tid) : State :=
  { s with reqs := s.reqs.map (fun (r : Req) => if r.src = t then { r with dead := true } else r) }

/-- The end of a pool thread by EXIT (`code`) or KILL: R130's releases, the tiles EMPTY, the gang dissolved, the context
FREE; a JOIN and a waiting fork may now go on (R130, R131, R135, R173, R178). -/
def State.endThread (s : State) (t : Tid) (code : Option Nat) : State :=
  let s := (s.modCtx t (fun c => { c with wait := none })).leave t .free
  let s := s.modCtx t (fun c =>
    { c with lastExit := match code with | some k => some (c.gen, k) | none => c.lastExit, deferred := none, trapDue := none,
             dbg := { c.dbg with byDebugger := false, pending := false, late := false, stepping := false, skip := false } })
  let s := (s.releaseChannels t).releaseSlots t
  let s := ((s.dropGangMmas t).modCore t.unit (fun c => c.releaseTiles t.ctx)).leaveGang t
  ((((s.orphanReqs t).leaveStep t code).serveForks t.unit).wakeJoins t.unit)

/-- KILL of a pool context in any state but FREE (R135). -/
def State.kill (s : State) (t : Tid) : State :=
  if t.ctx = 0 ∨ (s.ctx t).st = .free then s else (s.clearMailbox t).endThread t none

/-- KILL by the sequencer or the loader of a thread that no longer counts for its step (R77, R281). -/
def State.killQuiet (s : State) (t : Tid) : State :=
  let s1 := match (s.ctx t).step with
    | some r => (s.modCtx t (fun c => { c with step := none })).modStep r (fun x => { x with live := x.live.erase t })
    | none => s
  s1.kill t

/-! ## Context 0 (R126) -/

/-- Returns context 0 to its entry, HALTED until its region next enters SERVING. -/
def State.stopCtx0 (s : State) (core : Nat) : State :=
  let t : Tid := ⟨core, 0⟩
  let s := (s.modCtx t (fun c => { c with wait := none })).leave t .free
  let s := (s.releaseChannels t).releaseSlots t
  let s := ((s.dropGangMmas t).modCore core (fun c => { c.releaseTiles 0 with mailWake := false, urgent := false })).leaveGang t
  (s.modCtx t (fun c => { c with deferred := none, trapDue := none, step := none })).orphanReqs t

/-- Starts context 0: at level 1 from level record 1 with `XDTB.EN`, else at level 0 from `TSEG`; where the record cannot
be used it is FENCED and its core reported (R126). -/
def State.startCtx0 (s : State) (core : Nat) : State :=
  let t : Tid := ⟨core, 0⟩
  let c := s.core core
  let start := fun (level : Nat) (sp : Word) (segs : Segs) =>
    (s.modCtx t (fun x => x.anew level (sput 0 [] 31 sp) c.ctx0pc segs 0)).makeReady t
  if bit c.xdtb 0 then
    match s.levelRec t 1 with
    | some r => start 1 (levelTop r 0 - 64) (segsOf r)
    | none => (s.modCtx t (fun x => { x with st := .fenced })).reportFault (core / 16) (.coreFault core) none
  else start 0 (word (c.tseg.s0.bound.toNat / 8 * 8)) c.tseg

/-- Whether context 0 of a core runs: its region serves in mode SPMD (R126, R288). -/
def State.ctx0Due (s : State) (core : Nat) : Bool :=
  match s.regionOf (core / 16) with
  | some r => ((s.region r).st = .serving || (s.region r).st = .draining) && (s.region r).mode = 1
  | none => false

/-- Kills contexts 1 to 7 of a core and restarts context 0 (R406, R486). -/
def State.restartCore (s : State) (core : Nat) : State :=
  let s1 := (forAll (List.range 8) s (fun s k => s.kill ⟨core, k⟩)).stopCtx0 core
  if s1.ctx0Due core then s1.startCtx0 core else s1

end Sys2Proof.Machine
end

