-- ==== Sys2Proof/Machine/Threads.lean ====
section
/-! DEFINITION. Threads: FORK, JOIN, EXIT, the supervision of the pool, events, the wait watchdog, slots and interrupts
(chapters 4 and 5). -/

namespace Sys2Proof.Machine

/-! ## FORK, JOIN, EXIT -/

/-- FORK (R127, R128): ALIGN for an odd entry; −1 where the pool is empty; else the lowest free context starts. -/
def execFork (t : Tid) (rd ra rb : Reg) (s : State) : Out :=
  s.computeOnly t (fun s =>
    let pc := s.reg t ra
    if bit pc 0 then s.fault t 8 0 pc
    else match s.freeCtx t.unit 0 with
      | none => (s.setReg t rd (-1)).advance t 4
      | some k =>
        let c := s.ctx t
        let u : Tid := ⟨t.unit, k⟩
        let args := (List.range 8).map (fun i => s.reg t (bv 5 (i + 1)))
        let segs := if c.level = 2 then c.segs else (s.core t.unit).tseg
        let s1 := s.modCtx u (fun y => { y.forked (forkRegs args (s.reg t rb)) pc segs c.fpm with step := c.step })
        let s2 := match c.step with
          | some r => s1.modStep r (fun x => { x with live := x.live ++ [u] })
          | none => s1
        (((s2.makeReady u).setReg t rd (word (k + (s2.ctx u).gen * 256))).advance t 4))

/-- JOIN (R129). -/
def execJoin (t : Tid) (rd ra : Reg) (s : State) : Out :=
  s.computeOnly t (fun s =>
    let h := s.reg t ra
    match s.joinNow t h with
    | some v => (s.setReg t rd v).advance t 4
    | none => s.stall t (.join (field h 0 3) (field h 8 8) rd) (.join t rd ra))

/-- The MMAs of a thread that the engine has accepted and not completed (R173). -/
def Core.mmasOf (c : Core) (k : Nat) : List AccMma := (c.mmaQueue ++ c.mmaArray.toList).filter (fun m => m.ctx = k && !m.dead)

/-- EXIT (R130, R173): waits for the thread's posted stores and MMAs, then ends it. -/
def execExit (t : Tid) (ra : Reg) (s : State) : Out :=
  s.computeOnly t (fun s =>
    if t.ctx = 0 then s.illegal t
    else if !(s.posted t).isEmpty then s.stall t .drain (.exit t ra)
    else if !((s.core t.unit).mmasOf t.ctx).isEmpty then s.stall t .mmaDone (.exit t ra)
    else s.endThread t (some (field (s.reg t ra) 0 32)))

/-! ## Supervision of the pool (R133 to R135) -/

/-- A write of `CTX_CTL` with operation `op`: the fields are kept, context 0 is never an object, and a refused operation
sets ERR; `act` answers none where it is refused. The context's mailbox slot is cleared first (R135). -/
def State.ctxCtl (s : State) (t : Tid) (w : Word) (allowed : CtxState → Bool) (act : State → Tid → State) : State :=
  if (s.ctx t).level = 2 then s.privilege t
  else
    let u : Tid := ⟨t.unit, field w 0 3⟩
    let ok := u.ctx ≠ 0 && allowed (s.ctx u).st
    let s1 := (s.modCore t.unit (fun c => { c with ctxCtl := word (field w 0 3 + field w 4 3 * 16), ctxErr := !ok })).advance t 4
    if ok then act (s1.clearMailbox u) u else s1

/-- A write of `CTX_CTL` with OP KILL (R135). -/
def State.ctxKill (s : State) (t : Tid) (w : Word) : State := s.ctxCtl t w (fun st => st != .free) (fun s u => s.kill u)

/-- A write of `CTX_CTL` with OP RETURN (R118, R135): RETX at the level the entry made; a failed check raises
RETURN_CHECK in the context. -/
def State.ctxReturn (s : State) (t : Tid) (w : Word) : State :=
  s.ctxCtl t w (fun st => st == .faulted) (fun s u =>
    match s.retx u (s.ctx u).level with
    | .ok s' => s'.makeReady u
    | .error d =>
      (s.modCtx u (fun c => { c with st := .waiting, entered := none })).raiseWaiting u
        { faultAt s u 4 d 0 with fixed := some 0 })

/-- A write of `CTX_CTL` with OP ENTER (R135): the handler of the recorded entry runs, as if MAILBOX had been 0. -/
def State.ctxEnter (s : State) (t : Tid) (w : Word) : State :=
  s.ctxCtl t w (fun st => st == .faulted) (fun s u =>
    match (s.ctx u).entered with
    | some (_, pc, _) => (s.modCtx u (fun c => { c with pc := pc, entered := none, fetchBuf := [] })).makeReady u
    | none => s)

/-- Restarts a halted or fenced context at its held PC and level: no breakpoint or watchpoint matches on the first
instruction after a halt (R135, R443). -/
def State.restart (s : State) (u : Tid) (step : Bool) : State :=
  (s.modCtx u (fun c =>
    { c with fetchBuf := [], dbg := { c.dbg with byDebugger := false, skip := c.dbg.byDebugger, stepping := step } })).makeReady u

/-- A write of `CTX_CTL` with OP CONTINUE (R135, R443). -/
def State.ctxContinue (s : State) (t : Tid) (w : Word) : State :=
  s.ctxCtl t w (fun st => st == .fenced || st == .halted) (fun s u => s.restart u false)

/-- A command that writes `CTX_CTL` with its own operation; another operation in the word is not this command. -/
def State.ctxCommand (s : State) (t : Tid) (w : Word) (op : Nat) (act : State → State) : Out :=
  s.computeOnly t (fun s => if field w 4 3 = op then act s else s)

/-- CTX_KILL (R135). -/
def execCtxKill (t : Tid) (w : Word) (s : State) : Out := s.ctxCommand t w 1 (fun s => s.ctxKill t w)
/-- CTX_RETURN (R135). -/
def execCtxReturn (t : Tid) (w : Word) (s : State) : Out := s.ctxCommand t w 2 (fun s => s.ctxReturn t w)
/-- CTX_ENTER (R135). -/
def execCtxEnter (t : Tid) (w : Word) (s : State) : Out := s.ctxCommand t w 3 (fun s => s.ctxEnter t w)
/-- CTX_CONTINUE (R135, R443). -/
def execCtxContinue (t : Tid) (w : Word) (s : State) : Out := s.ctxCommand t w 4 (fun s => s.ctxContinue t w)

/-! ## Events (R141 to R144) -/

/-- The lowest pending event of a mask. -/
def lowestEvent (w : Word) : Option Nat := (List.range 64).find? (fun e => bit w e)

/-- WAITEV (R143): in context 0 a kept mailbox wake answers −2 first. -/
def execWaitev (t : Tid) (rd ra : Reg) (s : State) : Out :=
  s.computeOnly t (fun s =>
    let mask := s.reg t ra
    let c := s.core t.unit
    if t.ctx = 0 ∧ c.mailWake then ((s.modCore t.unit (fun c => { c with mailWake := false })).setReg t rd (-2)).advance t 4
    else match lowestEvent (c.evPend &&& mask) with
      | some e => ((s.modCore t.unit (fun c => { c with evPend := c.evPend &&& ~~~(word (2 ^ e)) })).setReg t rd (word e)).advance t 4
      | none => s.stall t (.event mask rd) (.waitev t rd ra))

/-- EVPOST (R141, R142): pulses every bit set in ra. -/
def execEvpost (t : Tid) (ra : Reg) (s : State) : Out :=
  s.computeOnly t (fun s =>
    forAll ((List.range 64).filter (fun e => bit (s.reg t ra) e)) (s.advance t 4) (fun s e => s.pulse t.unit e))

/-- EVINC (R144): a posted class-0 increment; a refusal under R31 becomes DEFERRED_STORE with DENIED. A twin sends none
(R408). -/
def execEvinc (t : Tid) (ra rb : Reg) (s : State) : Out :=
  s.computeOnly t (fun s =>
    let w := s.reg t ra
    if field w 28 36 ≠ 0 then s.illegal t
    else if (s.ctx t).twin then s.advance t 4
    else
      let r := s.increment (tidNode t) (field w 14 14) (field w 8 6) (field w 0 8) (field (s.reg t rb) 0 32)
      let s1 := if r.2 then r.1 else
        r.1.modCtx t (fun c => { c with deferred := some (c.deferred.getD (word (field w 0 28), dDenied)) })
      s1.advance t 4)

/-- WAITC (R142, R261). -/
def execWaitc (t : Tid) (ra rb : Reg) (s : State) : Out :=
  s.computeOnly t (fun s =>
    let i := field (s.reg t ra) 0 8
    let v := field (s.reg t rb) 0 32
    if reached (s.evc (tidTiller t) i) v then s.advance t 4 else s.stall t (.counter i v) (.waitc t ra rb))

/-! ## The wait watchdog (R145) and slots (R138, R139) -/

/-- Whether a context is live (R125). -/
def CtxState.live (x : CtxState) : Bool := match x with | .ready | .running | .waiting => true | _ => false

/-- Whether some context of a core is live and every live one waits. -/
def Core.allWait (c : Core) : Bool :=
  (List.range 8).any (fun k => (sget {} c.ctx k).st.live) &&
  (List.range 8).all (fun k => !(sget {} c.ctx k).st.live || (sget {} c.ctx k).st = .waiting)

/-- TWDOG_EXPIRE (R145): DEADLOCK_SUSPECT becomes pending for context 0, a WAITEV there ends with −1, FIRED is set and
COUNT counts; at most once until the count restarts. -/
def execTwdogExpire (core : Nat) (s : State) : Out :=
  onUnit (core < 1024) "core" <|
    let c := s.core core
    if !s.up || !s.coreOpen core || c.twdogExp % 64 = 0 || c.twdogDone || !c.allWait then s
    else
      let s1 := s.modCore core (fun c =>
        { c with deadlock := true, twdogFired := true, twdogDone := true, twdogCount := satAdd 16 c.twdogCount 1 })
      match (s1.ctx ⟨core, 0⟩).st, (s1.ctx ⟨core, 0⟩).wait with
      | .waiting, some ⟨.event _ rd, _⟩ => (s1.modCore core (fun c => { c with urgent := true })).endWait ⟨core, 0⟩ rd (-1)
      | _, _ => s1

/-- SLOT_START (R138, R139): the next slot begins, the first one of a turn with a `SLOT_TBL` written before; the core
chooses, its running thread being READY like the others. -/
def execSlotStart (core : Nat) (s : State) : Out :=
  onUnit (core < 1024) "core" <|
    if !s.up || !s.coreOpen core then s
    else
      let c := s.core core
      let slot := (c.slot + 1) % 16
      let c1 := { c with slot := slot,
                         slotTbl := if slot = 0 then c.slotTblNext.getD c.slotTbl else c.slotTbl,
                         slotTblNext := if slot = 0 then none else c.slotTblNext }
      let c2 := match c1.running with
        | some k => { c1 with running := none, ctx := sput {} c1.ctx k (let x : Ctx := sget {} c1.ctx k; { x with st := .ready }) }
        | none => c1
      match c2.choose slot true none with
      | none => s.setCore core c2
      | some k =>
        if c1.running = some k then s.setCore core { c1 with urgent := if k = 0 then false else c1.urgent }
        else s.setCore core (c2.run k)

/-! ## Interrupts (R111, R122, R145, R253, R389, R390) -/

/-- Whether an interrupt may be taken in a wait (R122, R174, R176, R229, R377). -/
def Wait.open' (w : Wait) : Bool :=
  match w.reason, w.instr with
  | .event _ _, _ | .join _ _ _, _ | .channelMessage _ _, _ | .channelCredit, _ | .credit _ _, _ | .interrupt, _ | .gang _, _ => true
  | .data, .tld .. | .data, .tst .. | .postedRoom, .tst .. => true
  | _, _ => false

/-- Whether a thread may take an interrupt for level 1 where it stands (R122). -/
def Ctx.mayInterrupt (c : Ctx) : Bool :=
  (c.level = 2 || (c.level = 1 && !c.xs1.valid)) &&
  match c.st, c.wait with
  | .running, _ => true
  | .waiting, some w => w.open'
  | _, _ => false

/-- Takes an entry in a thread that runs or waits: the wait ends, and context 0 is woken (R122, R139). -/
def State.takeIn (s : State) (t : Tid) (f : State → State) : State :=
  let s1 := f s
  let s2 := if (s1.ctx t).st = .waiting then
      (if t.ctx = 0 ∧ t.unit < 1024 then s1.modCore t.unit (fun c => { c with urgent := true }) else s1).makeReady t
    else s1
  s2.settleDebug t

/-- The interrupt a compute thread takes first, and what its entry clears: DEADLOCK_SUSPECT in context 0 before DMA_INT
for the lowest bit (R111, R253). -/
def State.computeInterrupt (s : State) (t : Tid) : Option (Exc × (State → State)) :=
  let c := s.ctx t
  if t.ctx = 0 ∧ (s.core t.unit).deadlock then
    some ({ code := 0x18, kind := 2, pc := c.pc, retry := c.pc, fixed := some 1 },
      fun s => s.modCore t.unit (fun c => { c with deadlock := false }))
  else match lowestEvent c.dintPend with
    | some b => some ({ code := 0x19, kind := 2, addr := word b, pc := c.pc, retry := c.pc, fixed := some 1 },
        fun s => s.modCtx t (fun c => { c with dintPend := c.dintPend &&& ~~~(word (2 ^ b)) }))
    | none => none

/-- The interrupt a Culm core takes first: EXT_INT for the lowest source before TIMER (R389, R390). -/
def State.culmInterrupt (s : State) (t : Tid) : Option (Exc × (State → State)) :=
  let c := s.ctx t
  let k := t.unit - 1024
  match lowestEvent (s.culmCore k).xint with
  | some b => some ({ code := 0x1A, kind := 2, addr := word b, pc := c.pc, retry := c.pc },
      fun s => s.modCulm k (fun c => { c with xint := c.xint &&& ~~~(word (2 ^ b)) }))
  | none => match (s.culmCore k).timerAt with
    | some at' => some ({ code := 0x1B, kind := 2, addr := word at', pc := c.pc, retry := c.pc },
        fun s => s.modCulm k (fun c => { c with timerAt := none, tmr := 0 }))
    | none => none

/-- INTERRUPT_TAKE (R111, R122): at a boundary, after DEFERRED_STORE and a due trap, or while the thread waits. An
interrupt whose entry was re-delivered under another cause stays pending (R113, R114). -/
def execInterruptTake (t : Tid) (s : State) : Out :=
  onUnit (tidOk t) "thread" <|
    let c := s.ctx t
    let core := s.up && s.clockOn (tidHalf t) && (if t.unit < 1024 then s.coreOpen t.unit
      else (s.culmNode ((t.unit - 1024) / 4)).st = 1 && !(s.culmCore (t.unit - 1024)).stopped)
    match (if t.unit < 1024 then s.computeInterrupt t else s.culmInterrupt t) with
    | none => s
    | some (e, clear) =>
      if !core || !c.mayInterrupt then s
      else match c.deferred, c.trapDue with
        | some (a, d), _ => s.takeIn t (fun s => s.takeDeferred t a d)
        | none, some (k, d) => if c.st = .running then s.takeIn t (fun s => s.takeTrap t k d) else s
        | none, none => (if c.st = .waiting then s.dropLoads t else s).takeIn t (fun s =>
            let r := s.raiseX t e
            if r.2 then clear r.1 else r.1)

end Sys2Proof.Machine
end

