-- ==== Sys2Proof/Machine/Dma.lean ====
section
/-! DEFINITION. The DMA engines: descriptors and their checks, channels, bursts, credits, completion, errors and disabling
(R233 to R259). -/

namespace Sys2Proof.Machine

/-! ## Channels and engines -/

/-- The tiller of a channel, the core of a core channel, and its number. -/
def chTiller (c : ChanRef) : Nat := match c with | .core n _ => n / 16 | .tiller t _ => t
def chCore (c : ChanRef) : Option Nat := match c with | .core n _ => some n | .tiller _ _ => none
def chNum (c : ChanRef) : Nat := match c with | .core _ k => k | .tiller _ k => k
/-- Whether the channel exists (R233). -/
def chOk (c : ChanRef) : Bool := match c with | .core n k => n < 1024 && k < 8 | .tiller t k => t < 64 && k < 32
/-- Another channel of the same engine. -/
def chPeer (c : ChanRef) (k : Nat) : ChanRef := match c with | .core n _ => .core n k | .tiller t _ => .tiller t k
/-- The half whose clock the engine runs on. -/
def chHalf (c : ChanRef) : Half := tillerHalf (chTiller c)
/-- The channels of an engine. -/
def engChans (e : EngRef) : List ChanRef :=
  match e with
  | .core n => (List.range 8).map (.core n)
  | .tiller t => (List.range 32).map (.tiller t)
/-- The engine of a channel. -/
def chEng (c : ChanRef) : EngRef := match c with | .core n _ => .core n | .tiller t _ => .tiller t
def engOk (e : EngRef) : Bool := match e with | .core n => n < 1024 | .tiller t => t < 64

/-- Whether a tiller's region is in mode THALLUS. -/
def State.inThallus (s : State) (T : Nat) : Bool :=
  match s.regionOf T with | some r => (s.region r).mode = 2 | none => false

/-- Owner codes (R243). -/
def owSeq : Nat := 0
def owCore : Nat := 1
def owSup : Nat := 2

/-- The owner of a tiller channel (R243). -/
def State.chOwner (s : State) (c : ChanRef) : Nat := (s.chan c).owner.getD (if chNum c < 16 then owSeq else owSup)

/-- STATE codes of `DCH` (Table 8 of chapter 9). -/
def ChanState.code (x : ChanState) : Nat :=
  match x with | .idle => 0 | .running => 1 | .waitCredit => 2 | .draining => 3 | .armed => 4

/-- `DCH` as read; HELD counts credits reserved for writes that have not left. -/
def DmaChan.read (x : DmaChan) : Word :=
  let resv := (x.bursts.filter (fun b => !b.left)).foldl (fun n b => n + (match b.credit with | some (_, _, k) => k | none => 0)) 0
  word (b2n x.en + x.st.code * 2 + x.prio % 4 * 16 + x.err % 256 * 256 + x.descs % 2 ^ 16 * 2 ^ 16 + x.lost % 256 * 2 ^ 32
    + min (x.held + resv) 65535 * 2 ^ 48)

/-! ## Descriptors (R235 to R238) -/

/-- A descriptor from its 64 bytes (Table 2 of chapter 9). -/
def descOf (l : List Byte) : Desc :=
  { op := bv 16 (fld l 0 2), session := fld l 2 2, esize := fld l 4 2, group := fld l 6 1, mkind := fld l 7 1,
    src := fld l 8 8, dst := fld l 16 8, count := fld l 24 4, sstride := fld l 28 4, dstride := fld l 32 4,
    credit := fld l 36 4, index := fld l 40 8, done := bv 32 (fld l 48 4), evc := bv 32 (fld l 52 4), next := fld l 56 8 }

def Desc.kind (d : Desc) : Nat := field d.op 0 4
def Desc.aowop (d : Desc) : Nat := field d.op 4 4
def Desc.aow (d : Desc) : Bool := bit d.op 8
def Desc.fence (d : Desc) : Bool := bit d.op 9
def Desc.halfInt (d : Desc) : Bool := bit d.op 10
def Desc.fullInt (d : Desc) : Bool := bit d.op 11
def Desc.intSeq (d : Desc) : Bool := bit d.op 12
def Desc.evcEn (d : Desc) : Bool := bit d.op 13
def Desc.mcast (d : Desc) : Bool := bit d.op 14
def Desc.chain (d : Desc) : Bool := bit d.op 15
/-- Inbox handle and credits per request. -/
def Desc.inbox (d : Desc) : Nat := d.credit % 4096
def Desc.credits (d : Desc) : Nat := d.credit / 4096 % 2048

/-- The operation of an AOW code (Table 4 of chapter 8). -/
def aowOpOf (n : Nat) : Option AowOp :=
  ([.add64, .add2f32, .add4bf16, .max64, .min64, .max2f32, .min2f32, .max4bf16, .min4bf16] : List AowOp)[n]?

/-- Whether a descriptor is valid on a channel (R235, R238, R243, R257). -/
def State.descValid (s : State) (c : ChanRef) (d : Desc) : Bool :=
  let k := d.kind
  let x := s.chan c
  let common := decide (k ≤ 4)
    && (if d.aow then k ≠ 4 && (aowOpOf d.aowop).isSome else d.aowop = 0)
    && (if k = 1 ∨ k = 2 ∨ k = 3 then decide (1 ≤ d.esize ∧ d.esize ≤ 4096) else d.esize = 0)
    && (if d.mcast then decide (d.mkind ≤ 1 ∧ k ≤ 1 ∧ d.dst < 2 ^ 22) && !(d.mkind = 1 && d.aow) else d.group = 0 && d.mkind = 0)
    && (k = 1 || k = 2 || d.sstride = 0) && (k = 1 || k = 3 || d.dstride = 0)
    && decide (d.credit < 2 ^ 23) && (k = 2 || k = 3 || d.index = 0)
    && field d.done 10 2 ≠ 3 && field d.evc 28 4 = 0 && (d.chain || d.next = 0)
  match c with
  | .core _ _ =>
    common && d.session = 0xFFFF && !d.halfInt && !d.fullInt && !d.intSeq && !d.evcEn && !d.mcast
      && field d.done 17 15 = 0 && field d.done 6 4 = 0 && field d.done 12 5 < 8
  | .tiller t _ =>
    common && (d.session = 0xFFFF || (x.sessOk && decide (d.session < 16384)))
      && (!d.mcast || (x.mcastOk && (!d.evcEn || field d.evc 14 14 = 0x3FFF) &&
        if d.mkind = 0 then
          let g := sget {} s.loader.dieGroups d.group
          g.valid && g.root = tillerNode t
        else (sget {} s.loader.stolonGroups d.group).valid))

/-! ## Reach (R234, R242) -/

/-- The local address a descriptor's address names, if it names this module (R234). -/
def State.dmaLocal (s : State) (a : Nat) : Option Nat :=
  if a < 2 ^ 44 then some a
  else if a >>> 58 = 0 ∧ (a >>> 44 = 0x3FFF ∨ a >>> 44 = s.moduleId) then some (a % 2 ^ 44) else none

/-- The stores a local range lies in wholly, if it lies in one of the kinds a channel reaches (R234). -/
def dmaReaches (c : ChanRef) (a n : Nat) : Bool :=
  let whole := fun (f : Nat → Bool) => f a && f (a + n - 1)
  match c with
  | .tiller _ _ => whole (fun x => match locOf x with | .hbm _ => true | _ => false)
      || whole (fun x => match locOf x with | .cs _ => true | _ => false)
      || whole (fun x => match locOf x, locOf a with | .tm t _, .tm u _ => t = u | _, _ => false)
      || whole (fun x => match locOf x, locOf a with | .clm t _, .clm u _ => t = u | _, _ => false)
      || whole (fun x => match locOf x with | .eb _ _ => true | _ => false)
  | .core m _ => whole (fun x => match locOf x with | .cs _ => true | _ => false)
      || whole (fun x => match locOf x with | .tm t _ => t = m / 16 | _ => false)
      || whole (fun x => match locOf x with | .clm k _ => k = m | _ => false)
      || whole (fun x => match locOf x with | .eb k _ => k = m | _ => false)

/-- Whether a range lies wholly within one captured segment (R242). -/
def inSegs (g : Option Segs) (a n : Nat) : Bool :=
  match g with
  | none => true
  | some x => [x.s0, x.s1, x.s2, x.s3].any (fun p => decide (p.base.toNat ≤ a) && decide (a + n ≤ p.base.toNat + p.bound.toNat))

/-- Whether a channel reaches a range of a descriptor: no wrap, within a segment, local or under a session (R234, R236,
R242). -/
def State.reaches (s : State) (c : ChanRef) (sess : Nat) (g : Option Segs) (a n : Nat) : Bool :=
  n = 0 || (decide (a + n ≤ 2 ^ 64) && inSegs g a n &&
    match s.dmaLocal a with
    | some l => dmaReaches c l n
    | none => sess ≠ 0xFFFF && a >>> 58 = 0 && decide (a % 2 ^ 44 + n ≤ 2 ^ 44))

/-- The ranges of a descriptor known before its index list is read; a multicast's destination is an offset. -/
def Desc.ranges (d : Desc) : List (Nat × Nat) :=
  let dst := fun (a n : Nat) => if d.mcast then [] else [(a, n)]
  match d.kind with
  | 0 => (d.src, d.count) :: dst d.dst d.count
  | 1 => (List.range d.count).flatMap (fun r => (d.src + r * d.sstride, d.esize) :: dst (d.dst + r * d.dstride) d.esize)
  | 2 => [(d.index, 4 * d.count), (d.dst, d.count * d.esize)]
  | 3 => [(d.index, 4 * d.count), (d.src, d.count * d.esize)]
  | _ => [(d.dst, d.count)]

/-- Whether a multicast's destination bytes lie in tiller memory. -/
def Desc.mcastFits (d : Desc) : Bool :=
  !d.mcast || (if d.kind = 0 then decide (d.dst + d.count ≤ 2 ^ 22)
    else (List.range d.count).all (fun r => decide (d.dst + r * d.dstride + d.esize ≤ 2 ^ 22)))

/-- The alignment of an index list and of AOW destinations (R236, R240 item 9). -/
def Desc.aligned (d : Desc) : Bool :=
  (d.index % 4 = 0) && (!d.aow || (d.dst % 8 = 0 && d.esize % 8 = 0 && d.dstride % 8 = 0 && (d.kind ≠ 0 || d.count % 8 = 0)))

/-- Items 7 to 9 of R240, with R242's check of the descriptor itself. -/
def State.descCheck (s : State) (c : ChanRef) (g : Option Segs) (at' : Nat) (d : Desc) : Option Nat :=
  if !s.descValid c d then some 5
  else if !inSegs g at' 64 || !d.ranges.all (fun r => s.reaches c d.session g r.1 r.2) || !d.mcastFits then some 6
  else if !d.aligned then some 7
  else none

/-- Reads a descriptor at a local address: outside memory it is reserved or denied. -/
def State.readDesc (s : State) (h : Half) (a : Nat) : Except Nat Desc :=
  if isCtl a then .error dDenied else (s.readAcc h a 64).map descOf

/-! ## The bursts of a descriptor (R236, R245) -/

/-- A run of destination bytes that lie one after another: its start, its source pieces, and the linear number of its
first byte (of its element, for gathered and scattered elements). -/
structure DmaRow where
  dst : Nat
  src : List (Option Nat × Nat)
  start : Nat

/-- The rows of a descriptor (Table 4 of chapter 9). -/
def Desc.rows (d : Desc) (idx : List Nat) : List DmaRow :=
  match d.kind with
  | 0 => [⟨d.dst, [(some d.src, d.count)], 0⟩]
  | 1 => (List.range d.count).map (fun r => ⟨d.dst + r * d.dstride, [(some (d.src + r * d.sstride), d.esize)], r * d.esize⟩)
  | 2 => [⟨d.dst, idx.map (fun i => (if i = 0xFFFFFFFF then none else some (d.src + i * d.sstride), d.esize)), 0⟩]
  | 3 => (idx.zipIdx.filter (fun p => p.1 ≠ 0xFFFFFFFF)).map (fun p =>
      ⟨d.dst + p.1 * d.dstride, [(some (d.src + p.2 * d.esize), d.esize)], p.2 * d.esize⟩)
  | _ => [⟨d.dst, [(none, d.count)], 0⟩]

/-- `n` bytes from byte `o` of a list of source pieces. -/
def slicePieces : List (Option Nat × Nat) → (o n : Nat) → List (Option Nat × Nat)
  | [], _, _ => []
  | (a, k) :: l, o, n =>
    if n = 0 then []
    else if k ≤ o then slicePieces l (o - k) n
    else
      let m := min (k - o) n
      (a.map (· + o), m) :: slicePieces l 0 (n - m)

/-- A range cut at multiples of `w`. -/
def cutAt (w a n : Nat) : List (Nat × Nat) :=
  if n = 0 then []
  else (List.range ((a + n - 1) / w - a / w + 1)).map (fun i =>
    let lo := max a ((a / w + i) * w)
    (lo, min (a + n) ((a / w + i + 1) * w) - lo))

/-- A source piece cut at 512-byte boundaries (R245). -/
def cutPiece (p : Option Nat × Nat) : List (Option Nat × Nat) :=
  match p.1 with
  | none => [p]
  | some a => (cutAt 512 a p.2).map (fun q => (some q.1, q.2))

/-- The groups of writes of `n` destination bytes at `a`: head, middle bursts, tail (R245). -/
def writeGroups (a n : Nat) : List (List (Nat × Nat)) :=
  let head := min n ((a + 63) / 64 * 64 - a)
  let mid := (n - head) / 64 * 64
  let tail := n - head - mid
  ([cutAt 8 a head] ++ (cutAt 512 (a + head) mid).map (fun p => [p]) ++ [cutAt 8 (a + head + mid) tail]).filter (fun g => !g.isEmpty)

/-- A burst to come: linear number of its first byte, source pieces and writes. -/
structure DmaUnit where
  start : Nat
  src : List (Option Nat × Nat)
  dst : List (Nat × Nat)

/-- The bursts of a row. -/
def DmaRow.units (r : DmaRow) : List DmaUnit :=
  (writeGroups r.dst (r.src.map Prod.snd).sum).map (fun g =>
    let a := (g.headD (0, 0)).1
    let n := (g.map Prod.snd).sum
    ⟨r.start + (a - r.dst), (slicePieces r.src (a - r.dst) n).flatMap cutPiece, g⟩)

/-- The bursts of a descriptor, in destination order. -/
def Desc.units (d : Desc) (idx : List Nat) : List DmaUnit := (d.rows idx).flatMap DmaRow.units

/-- Whether a descriptor needs an index list. -/
def Desc.indexed (d : Desc) : Bool := d.kind = 2 || d.kind = 3

/-- Its bursts, if they are known. -/
def DescRun.units (r : DescRun) : Option (List DmaUnit) :=
  if r.desc.indexed && r.desc.count ≠ 0 then r.idx.map r.desc.units else some (r.desc.units [])

/-- How many bursts the half point waits for (Table 11 of chapter 9). -/
def Desc.halfUnits (d : Desc) (us : List DmaUnit) : Nat :=
  let total := if d.kind = 0 ∨ d.kind = 4 then d.count else d.count * d.esize
  let last := if d.indexed then (d.count + 1) / 2 * d.esize else (total + 1) / 2
  (us.filter (fun u => u.start < last)).length

/-! ## Credits of a channel (R249) -/

/-- Returns what a channel holds for its inbox, and forgets the inbox. -/
def State.dropCredits (s : State) (c : ChanRef) : State :=
  let x := s.chan c
  let s1 := s.modChan c (fun x => { x with held := 0, box := none, creditAsked := false })
  match x.box with
  | some b => s1.returnCredits (b / 64) (b % 64) x.heldGen x.held
  | none => s1

/-- Returns the credits reserved for bursts that have not left. -/
def State.dropReserved (s : State) (bs : List Burst) : State :=
  forAll bs s (fun s b => match b.left, b.credit with
    | false, some (i, g, k) => s.returnCredits (i / 64) (i % 64) g k
    | _, _ => s)

/-- Credits a burst's writes take: one for each access of at most 128 bytes. -/
def creditNeed (dst : List (Nat × Nat)) : Nat := (dst.map (fun p => (p.2 + 127) / 128)).sum

/-- Asks for `n` credits of an inbox for a channel. -/
def State.askDma (s : State) (c : ChanRef) (box n : Nat) : State :=
  let s1 := s.modChan c (fun x => { x with creditAsked := true })
  match s1.routeErr (chHalf c) (tmAddr (box / 64) 0) with
  | some e => s1.refuseTo (box / 64) (box % 64) (.dma c) e
  | none => s1.askInbox (box / 64) (box % 64) (.dma c) n

/-! ## Completion actions (R250, R253, R256, R257) -/

/-- A half or full point for a context (R253): bit `b` of its `DINT_PEND`, or a loss counted. -/
def State.dmaPoint (s : State) (t : Tid) (b : Nat) : State :=
  s.modCtx t (fun c =>
    if c.dintPend.getLsbD b then { c with dintOver := satAdd 32 c.dintOver 1 } else { c with dintPend := c.dintPend ||| word (2 ^ b) })

/-- The half (`off` 0) or full (`off` 32) point of a descriptor. -/
def State.dmaInt (s : State) (c : ChanRef) (d : Desc) (off : Nat) : State :=
  let T := chTiller c
  if d.intSeq then (s.increment (tillerNode T) 0x3FFF T (field d.done 24 8) 1).1
  else s.dmaPoint ⟨T * 16 + field d.done 20 4, field d.done 17 3⟩ (off + chNum c)

/-- Starts an armed channel, or counts a lost trigger (R240). -/
def State.dmaTrigger (s : State) (c : ChanRef) : State :=
  s.modChan c (fun x =>
    if x.st = .armed then { x with st := .running, err := 0, descs := 0, nextDesc := some x.addr, step := none }
    else { x with lost := satAdd 8 x.lost 1 })

/-- The pulse or trigger and the full point. -/
def State.dmaFull (s : State) (c : ChanRef) (d : Desc) : State :=
  let k := field d.done 10 2
  let s1 := if k = 1 then
      s.pulse (match c with | .core n _ => n | .tiller t _ => t * 16 + field d.done 6 4) (field d.done 0 6)
    else if k = 2 then s.dmaTrigger (chPeer c (field d.done 12 5))
    else s
  if d.fullInt then s1.dmaInt c d 32 else s1

/-- The EVC increment (R250, R257, R258): one counter, or one in every member of the multicast group; a refusal under
R31 is an error response. -/
def State.dmaEvc (s : State) (c : ChanRef) (d : Desc) : State × Bool :=
  let src := tillerNode (chTiller c)
  let ctr := field d.evc 0 8
  if d.mcast then
    if d.mkind = 0 then
      let g := sget {} s.loader.dieGroups d.group
      s.injectC0 src src (.tree g.plane g.members ctr)
    else
      let ports := (List.range 32).filter (fun p => bit (sget {} s.loader.stolonGroups d.group).members p && (s.port p).st = .up)
      ports.foldl (fun r p => let x := r.1.injectC0 src (portNodeNode p) (.awayTree p d.group ctr); (x.1, r.2 && x.2)) (s, true)
  else s.increment src (field d.evc 14 14) (field d.evc 8 6) ctr 1

/-- Changes a run of a channel. -/
def State.modRun (s : State) (c : ChanRef) (n : Nat) (f : DescRun → DescRun) : State :=
  s.modChan c (fun x => { x with runs := x.runs.map (fun r => if r.serial = n then f r else r) })

/-- The run of a serial number. -/
def DmaChan.runOf (x : DmaChan) (n : Nat) : Option DescRun := x.runs.find? (fun r => r.serial = n)

/-- Reports an error of a step's chain: UNCORRECTABLE and REMOTE are step faults, any other stops the schedule context
with DMA_FAILED (R254, R280). -/
def State.dmaStepError (s : State) (step : Option StepRef) (code : Nat) : State :=
  match step with
  | none => s
  | some r => if code = 0x15 ∨ code = 0x16 then s.reportFault r.tiller .dmaError (some r) else s.abortSq r.tiller r.sctx 8

/-- Fires the actions of a run that have fallen due (Table 11 of chapter 9). -/
def State.fireRun (s : State) (c : ChanRef) (n : Nat) : State :=
  match (s.chan c).runOf n with
  | none => s
  | some r =>
    match r.failed, r.units with
    | false, some us =>
      let d := r.desc
      let past := if d.fence then r.arrived else r.left
      let half := !r.halfDone && decide (d.halfUnits us ≤ past)
      let full := !r.doneFired && decide (us.length ≤ past)
      let evc := !r.evcFired && decide (us.length ≤ r.arrived)
      let s1 := s.modRun c n (fun r => { r with halfDone := r.halfDone || half, doneFired := r.doneFired || full, evcFired := r.evcFired || evc })
      let s2 := if half && d.halfInt then s1.dmaInt c d 0 else s1
      let s3 := if full then (s2.modChan c (fun x => { x with descs := satAdd 16 x.descs 1 })).dmaFull c d else s2
      if evc && d.evcEn then
        let e := s3.dmaEvc c d
        if e.2 then e.1 else (e.1.modChan c (fun x => { x with err := 0x10 + dDenied })).dmaStepError r.step (0x10 + dDenied)
      else s3
    | _, _ => s

/-- Whether a run has ended: all its actions have fired, or it failed and nothing of it is outstanding. -/
def DmaChan.runEnded (x : DmaChan) (r : DescRun) : Bool :=
  if r.failed then !x.bursts.any (fun b => b.desc = r.serial) else r.doneFired && r.evcFired

/-- Marks the chain of a step complete once no descriptor of it is left on the channel (R275). -/
def State.chainDone (s : State) (c : ChanRef) (step : Option StepRef) : State :=
  match step with
  | none => s
  | some r =>
    let x := s.chan c
    if x.runs.any (fun q => q.step = some r) || (x.step = some r && x.st ≠ .idle) then s
    else s.modStep r (fun y => { y with dmaDone := true })

/-- Fires what has fallen due on a channel, removes ended descriptors, and makes it IDLE when its chain is complete
(R249, R250). -/
def State.dmaSettle (s : State) (c : ChanRef) : State :=
  let s1 := forAll ((s.chan c).runs.map DescRun.serial) s (fun s n => s.fireRun c n)
  let x := s1.chan c
  let ended := x.runs.filter x.runEnded
  let s2 := s1.modChan c (fun x => { x with runs := x.runs.filter (fun r => !x.runEnded r) })
  let y := s2.chan c
  let finished := (y.st = .running || y.st = .waitCredit) && y.nextDesc.isNone && y.runs.all (fun r => r.doneFired || r.failed)
  let s3 := if finished then (s2.modChan c (fun x => { x with st := .idle })).dropCredits c else s2
  forAll ((x.step :: ended.map DescRun.step).eraseDups) s3 (fun s r => s.chainDone c r)

/-- An error of a running channel (R254): ERR, IDLE, credits back; pulse or trigger and full point of every descriptor
not complete fire at once; half points and increments not yet fired never do. -/
def State.dmaFail (s : State) (c : ChanRef) (code : Nat) : State :=
  let x := s.chan c
  let opens := x.runs.filter (fun r => !r.doneFired && !r.failed)
  let s1 := s.dropReserved x.bursts
  let s2 := (s1.modChan c (fun x =>
    { x with st := .idle, err := code, nextDesc := none, bursts := x.bursts.filter Burst.left,
             runs := x.runs.map (fun r => { r with failed := true, halfDone := true, doneFired := true, evcFired := true }) })).dropCredits c
  ((forAll opens s2 (fun s r => s.dmaFull c r.desc)).dmaStepError x.step code).dmaSettle c

/-! ## Starting (R240 to R244) -/

/-- Puts a descriptor on a channel. -/
def State.pushRun (s : State) (c : ChanRef) (d : Desc) : State :=
  s.modChan c (fun x =>
    { x with serial := x.serial + 1, nextDesc := if d.chain then some d.next else none,
             runs := x.runs ++ [{ serial := x.serial, desc := d, step := x.step }] })

/-- Starts a channel on a checked descriptor. -/
def State.dmaGo (s : State) (c : ChanRef) (at' : Nat) (d : Desc) (g : Option Segs) (step : Option StepRef) : State :=
  let s1 := s.modChan c (fun x => { x with st := .running, err := 0, descs := 0, addr := at', captured := g, step := step })
  (s1.pushRun c d).dmaSettle c

/-- R240's checks 3 to 9 on a descriptor read. -/
def State.startCheck (s : State) (c : ChanRef) (at' : Nat) (g : Option Segs) (rd : Except Nat Desc) : Except Nat Desc :=
  let x := s.chan c
  if x.st ≠ .idle then .error 3
  else if !x.en then .error 4
  else if at' % 64 ≠ 0 then .error 7
  else match rd with
    | .error n => .error (0x10 + n)
    | .ok d => match s.descCheck c g at' d with
      | some k => .error k
      | none => .ok d

/-- The channel a selector names (R239). -/
def chSelect (t : Tid) (w : Word) : Option ChanRef :=
  if w.toNat >>> 6 ≠ 0 then none
  else if bit w 5 then some (.tiller (tidTiller t) (field w 0 5))
  else if field w 0 5 < 8 then some (.core t.unit (field w 0 5)) else none

/-- Whether a thread may start a channel (R243). -/
def State.chMine (s : State) (t : Tid) (c : ChanRef) : Bool :=
  match c with
  | .core _ _ => true
  | .tiller _ _ =>
    (s.chOwner c = owCore && (s.chan c).ownerCore = t.unit % 16) || (s.chOwner c = owSup && (s.ctx t).level ≠ 2)

/-- DMA_ISSUE (R240). -/
def State.dmaIssue (s : State) (t : Tid) (detail : Nat) (a : Word) : State := s.fault t 0x13 detail a

/-- The end of DMSTART (`arm` false) or DMARM, its descriptor read (R240, R242). -/
def State.dmStartNow (s : State) (t : Tid) (ra rb : Reg) (arm : Bool) : State :=
  let a := s.reg t ra
  match chSelect t (s.reg t rb) with
  | none => s.dmaIssue t 1 a
  | some c =>
    if !s.chMine t c then s.dmaIssue t 2 a
    else
      let g := if (s.ctx t).level = 2 then some (s.ctx t).segs else none
      let rd : Except (Nat × State) (List Byte × State) :=
        if isCtl a.toNat then .error (dDenied, s) else s.threadRead t a.toNat 64
      let r : Except Nat Desc := match rd with | .ok (l, _) => .ok (descOf l) | .error (e, _) => .error e
      let s1 := match rd with | .ok (_, s1) => s1 | .error (_, s1) => s1
      match s1.startCheck c a.toNat g r with
      | .error k => s1.dmaIssue t k a
      | .ok d =>
        if arm then (s1.modChan c (fun x => { x with st := .armed, addr := a.toNat, captured := g })).advance t 4
        else (s1.dmaGo c a.toNat d g none).advance t 4

/-- DMSTART and DMARM: the descriptor's read is a long stall beyond the thread's near stores (R136, R240). A twin starts
nothing (R408). -/
def State.dmStart (s : State) (t : Tid) (i : Instr) (ra rb : Reg) (arm : Bool) : State :=
  let a := (s.reg t ra).toNat
  if (s.ctx t).twin then s.advance t 4
  else if isNear t a || (locOf a = .reserved) then s.dmStartNow t ra rb arm else s.stall t .data i

/-- DMSTART (R240, R241). -/
def execDmstart (t : Tid) (ra rb : Reg) (s : State) : Out :=
  s.computeOnly t (fun s => s.dmStart t (.dmstart t ra rb) ra rb false)

/-- DMARM (R240). -/
def execDmarm (t : Tid) (ra rb : Reg) (s : State) : Out :=
  s.computeOnly t (fun s => s.dmStart t (.dmarm t ra rb) ra rb true)

/-- DMSTAT (R239, R241). -/
def execDmstat (t : Tid) (rd rb : Reg) (s : State) : Out :=
  s.computeOnly t (fun s =>
    match chSelect t (s.reg t rb) with
    | none => s.dmaIssue t 1 0
    | some c => (s.setReg t rd (s.chan c).read).advance t 4)

/-! ## Disabling (R255) -/

/-- Disables a channel: it stops, drops what has not left, and drains; DESC takes a free value. -/
def State.dmaDisable (s : State) (c : ChanRef) : State :=
  let x := s.chan c
  if x.st = .draining then s.modChan c (fun x => { x with en := false })
  else
    let (f, s0) := s.draw 16
    let s1 := (s0.dropReserved x.bursts).modChan c (fun x =>
      let bs := (x.bursts.filter (fun b => b.left || !b.read)).map (fun b => { b with dead := true })
      { x with en := false, err := 0x0A, descs := f.toNat, nextDesc := none, bursts := bs,
               runs := x.runs.map (fun r => { r with failed := true, halfDone := true, doneFired := true, evcFired := true }),
               st := if bs.isEmpty then .idle else .draining })
    (s1.dropCredits c).dmaSettle c

/-- Writes EN of a channel: 1 is ignored while DRAINING (R241). -/
def State.writeEn (s : State) (c : ChanRef) (v : Bool) : State :=
  if v then s.modChan c (fun x => if x.st = .draining then x else { x with en := true }) else s.dmaDisable c

/-- DMEN (R239, R241, R243). -/
def execDmen (t : Tid) (ra rb : Reg) (s : State) : Out :=
  s.computeOnly t (fun s =>
    let a := s.reg t ra
    match chSelect t (s.reg t rb) with
    | none => s.dmaIssue t 1 a
    | some c =>
      if a.toNat >>> 1 ≠ 0 then s.illegal t
      else if !s.chMine t c && (s.ctx t).level = 2 then s.dmaIssue t 2 a
      else (s.writeEn c (bit a 0)).advance t 4)

/-- A write of a word to `DCH` at a level (Table 8 of chapter 9): PRIO and LOST at level 1. -/
def State.writeDch (s : State) (c : ChanRef) (lvl1 : Bool) (w : Word) : State :=
  let s1 := if lvl1 then
      s.modChan c (fun x => { x with prio := field w 4 2, lost := if field w 32 8 = 0 then 0 else x.lost })
    else s
  s1.writeEn c (bit w 0)

/-- Whether an engine's clock runs. -/
def State.engOn (s : State) (c : ChanRef) : Bool := s.up && s.clockOn (chHalf c)

/-- DCH_EN_WRITE (R244, R255): a write of `DCH` with EN = 0, as level 1 makes it. -/
def execDchEnWrite (c : ChanRef) (w : Word) (s : State) : Out :=
  onUnit (chOk c) "DMA channel" <|
    if !s.reachable (tillerNode (chTiller c)) || bit w 0 then s else s.writeDch c true w

/-- A write of `DCH_DESC` at level 1 (R243, R244): START starts a channel of owner SUPERVISOR under R240's checks; a
failure sets ERR, and a busy channel goes on. -/
def State.writeDchDesc (s : State) (c : ChanRef) (w : Word) : State :=
  let a := field w 6 38 * 64
  let x := s.chan c
  if !bit w 0 then (if x.st = .idle then s.modChan c (fun x => { x with addr := a }) else s)
  else if s.chOwner c ≠ owSup then (if x.st = .idle then s.modChan c (fun x => { x with addr := a, err := 2 }) else s)
  else match s.startCheck c a none (s.readDesc (chHalf c) a) with
    | .ok d => s.dmaGo c a d none none
    | .error k => if k = 3 then s else s.modChan c (fun x => { x with addr := a, err := if k = 4 then 0x0A else k })

/-- DCH_DESC_START (R244). -/
def execDchDescStart (tiller ch : Nat) (w : Word) (s : State) : Out :=
  onUnit (tiller < 64 && ch < 32) "DMA channel" <|
    if !s.reachable (tillerNode tiller) || !bit w 0 then s else s.writeDchDesc (.tiller tiller ch) w

/-! ## Moving the bytes (R245 to R249) -/

/-- Read tags a burst holds: elements in ascending order in one source block share one (R245, R247). -/
def readTags (b : Burst) : Nat :=
  ((b.src.filterMap Prod.fst).foldl (fun (r : Nat × Option Nat) a =>
    match r.2 with
    | some p => if p / 512 = a / 512 ∧ p ≤ a then (r.1, some a) else (r.1 + 1, some a)
    | none => (r.1 + 1, some a)) (0, none)).1

/-- Read and write tags in use on an engine. -/
def State.tagsUsed (s : State) (e : EngRef) : Nat × Nat :=
  (engChans e).foldl (fun r c => (s.chan c).bursts.foldl (fun r b =>
    (r.1 + (if b.read then 0 else readTags b), r.2 + (if b.left then b.dst.length else 0))) r) (0, 0)

/-- Whether an engine has `r` read tags and `w` write tags free. -/
def State.tagsFree (s : State) (e : EngRef) (r w : Nat) : Bool :=
  let u := s.tagsUsed e
  match e with
  | .core _ => decide (u.1 + u.2 + r + w ≤ 64)
  | .tiller t => if s.inThallus t then decide (u.1 + r ≤ 256 ∧ u.2 + w ≤ 128) else decide (u.1 + r ≤ 512 ∧ u.2 + w ≤ 256)

/-- The address of each member of a multicast's delivery on this module. -/
def State.mcastAddrs (s : State) (group off : Nat) : List Nat :=
  ((List.range 64).filter (fun t => bit (sget {} s.loader.dieGroups group).members t)).map (fun t => tmAddr t off)

/-- One write of a channel at a local address, in accesses of at most 128 bytes: the first error's DETAIL (R217, R223,
R245). -/
def State.dmaWriteAt (s : State) (c : ChanRef) (aow : Option AowOp) (gen : Option Nat) (a : Nat) (d : List Byte) : Option Nat × State :=
  let step := fun (r : Option Nat × State) (p : Nat × Nat) =>
    let b := (d.drop (p.1 - a)).take p.2
    let act := fun (s : State) => match aow with
      | none => s.writeAcc (chHalf c) p.1 b
      | some op => (List.range (p.2 / 8)).foldl (fun (x : Option Nat × State) k =>
          let y := x.2.aowAt (chHalf c) (p.1 + 8 * k) op (fld b (8 * k) 8)
          (x.1.or y.1, y.2)) (none, s)
    let y := r.2.creditedWrite (chHalf c) (chCore c) p.1 p.2 gen act
    (r.1.or y.1, if y.1 = some dUncorrectable then y.2.noteUe p.1 else y.2)
  (cutAt 128 a d.length).foldl step (none, s)

/-- Performs the local writes of a burst: its first error code, and whether a multicast member refused. -/
def State.performBurst (s : State) (c : ChanRef) (d : Desc) (b : Burst) : Nat × Bool × State :=
  let aow := if d.aow then aowOpOf d.aowop else none
  let gen := b.credit.map (fun p => p.2.1)
  (b.dst.foldl (fun (r : (Nat × Bool × State) × Nat) p =>
    let data := (b.data.drop r.2).take p.2
    if d.mcast then
      if d.mkind = 0 then
        ((s.mcastAddrs d.group p.1).foldl (fun (x : Nat × Bool × State) a =>
          let y := x.2.2.dmaWriteAt c aow none a data
          (x.1, x.2.1 || y.1.isSome, y.2)) r.1, r.2 + p.2)
      else (r.1, r.2 + p.2)
    else match s.dmaLocal p.1 with
      | none => (r.1, r.2 + p.2)
      | some a =>
        let y := r.1.2.2.dmaWriteAt c aow gen a data
        ((if r.1.1 ≠ 0 then r.1.1 else match y.1 with | some e => 0x10 + e | none => 0, r.1.2.1, y.2), r.2 + p.2))
    ((0, false, s), 0)).1

/-- Whether a descriptor's writes go to the fabric: another module's memory or a Stolon group. -/
def State.writesAway (s : State) (d : Desc) (b : Burst) : Bool :=
  if d.mcast then d.mkind = 1 else b.dst.any (fun p => (s.dmaLocal p.1).isNone)

/-- Whether a burst's bytes come from another module. -/
def State.readsAway (s : State) (b : Burst) : Bool := b.src.any (fun p => match p.1 with | some a => (s.dmaLocal a).isNone | none => false)

/-- Whether a core channel writes into its own core's stores, whose bank performs a write as it leaves (R250). -/
def ownWrites (c : ChanRef) (b : Burst) : Bool :=
  match c with
  | .core n _ => b.dst.all (fun p => match locOf p.1 with | .clm k _ => k = n | .eb k _ => k = n | _ => false)
  | .tiller _ _ => false

/-- Takes `n` tags of a port node's pool for one packet each, if it has them: their numbers (R352, R363). -/
def PortNode.freeTags (x : PortNode) (n : Nat) : Option (List Nat) :=
  let l := ((List.range 8192).filter (fun i => (sget none x.tags i).isNone)).take n
  if l.length = n then some l else none

/-- Sends a burst's multicast to a Stolon group (R258, R363): one packet for each write on every UP port of MEMBERS,
with tags of the lowest member port's node; a port that is not UP is a refused branch. None while no tag is free. -/
def State.mcastSend (s : State) (c : ChanRef) (d : Desc) (b : Burst) : Option State :=
  let g := sget {} s.loader.stolonGroups d.group
  let ports := (List.range 32).filter (fun p => bit g.members p)
  let up := ports.filter (fun p => (s.port p).st = .up)
  let home := ports.headD 0 / 2
  match (s.portNode home).freeTags b.dst.length with
  | none => none
  | some tags =>
    let rows := (b.dst.zip tags).zipIdx
    let r := rows.foldl (fun (r : State × Nat) q =>
      let p := q.1.1
      let tag : Tag := ⟨home, q.1.2⟩
      let data := (b.data.drop r.2).take p.2
      let use : TagUse := { sess := none, req := .dma c (b.id * 1024 + 512 + q.2), write := true, branches := up, failed := up.length ≠ ports.length }
      let s1 := if up.isEmpty then r.1 else r.1.modPortNode home (fun x => { x with tags := sput none x.tags q.1.2 (some use) })
      (forAll up s1 (fun s port => s.leaveBy port { dest := 0, cls := .bulk, hops := 0, body := .mcast d.group p.1 data tag } true), r.2 + p.2))
      (s, 0)
    let s2 := forAll (ports.filter (fun p => !up.contains p)) r.1 (fun s p =>
      s.modPortNode (p / 2) (fun x => { x with mcPartial := satAdd 15 x.mcPartial b.dst.length }))
    some (if up.isEmpty then
        s2.modChan c (fun x => { x with bursts := x.bursts.map (fun y => if y.id = b.id then
          { y with acks := (List.range b.dst.length).map (512 + ·), partialFail := true } else y) })
      else s2)

/-- Changes a burst of a channel. -/
def State.modBurst (s : State) (c : ChanRef) (id : Nat) (f : Burst → Burst) : State :=
  s.modChan c (fun x => { x with bursts := x.bursts.map (fun b => if b.id = id then f b else b) })

/-- Whether the writes of descriptor `n` wait for an earlier descriptor with FENCE to arrive (R250, R251). -/
def DmaChan.gated (x : DmaChan) (n : Nat) : Bool := x.runs.any (fun r => r.desc.fence && decide (r.serial < n) && !(r.doneFired && r.evcFired))

/-- The oldest burst whose data is in and whose writes may leave, leaves (R245, R246). -/
def State.leaveOne (s : State) (c : ChanRef) : Option State :=
  let x := s.chan c
  match x.bursts.find? (fun b => !b.left) with
  | none => none
  | some b =>
    match x.runOf b.desc with
    | none => none
    | some r =>
      if !b.read || x.gated b.desc || !s.tagsFree (chEng c) 0 b.dst.length then none
      else
        let sent := if r.desc.mcast && r.desc.mkind = 1 then s.mcastSend c r.desc b else some s
        sent.map (fun s1 =>
          let s2 := (s1.modBurst c b.id (fun b => { b with left := true })).modRun c b.desc (fun r => { r with left := r.left + 1 })
          if ownWrites c b && !r.desc.mcast then
            let (e, p, s3) := s2.performBurst c r.desc b
            s3.modBurst c b.id (fun b => { b with performed := true, err := e, partialFail := p })
          else s2)

/-- Lets every burst leave that may. -/
def State.dmaPump (s : State) (c : ChanRef) : (fuel : Nat) → State
  | 0 => s.dmaSettle c
  | fuel + 1 =>
    match s.leaveOne c with
    | some s1 => s1.dmaPump c fuel
    | none => s.dmaSettle c

def State.dmaFlow (s : State) (c : ChanRef) : State := s.dmaPump c (s.chan c).bursts.length

/-- The run whose bursts are still to issue. -/
def DmaChan.current (x : DmaChan) : Option DescRun :=
  x.runs.find? (fun r => !r.failed && match r.units with | some us => decide (r.issued < us.length) | none => true)

/-- Reads what a running channel needs before its next burst: the next descriptor once the last read of this one has
issued, or an index list (R240, R242, R250, R254). -/
def State.dmaPrep (s : State) (c : ChanRef) : State :=
  let x := s.chan c
  if x.st ≠ .running then s
  else match x.current with
    | some r =>
      if r.desc.indexed && r.idx.isNone then
        match s.dmaLocal r.desc.index with
        | none => s.dmaFail c 6
        | some a => match s.readAcc (chHalf c) a (4 * r.desc.count) with
          | .error e => (if e = dUncorrectable then s.noteUe a else s).dmaFail c (0x10 + e)
          | .ok l => (s.modRun c r.serial (fun r => { r with idx := some ((List.range r.desc.count).map (fun i => fld l (4 * i) 4)) })).dmaSettle c
      else s
    | none => match x.nextDesc with
      | none => s
      | some a =>
        let s0 := s.modChan c (fun x => { x with addr := a })
        if a % 64 ≠ 0 then s0.dmaFail c 7
        else match s0.readDesc (chHalf c) a with
          | .error e => s0.dmaFail c (0x10 + e)
          | .ok d =>
            match s0.descCheck c x.captured a d with
            | some 5 => s0.dmaFail c 5
            | some k => (s0.pushRun c d).dmaFail c k
            | none =>
              let s1 := if d.credits ≠ 0 ∧ x.box.isSome ∧ x.box ≠ some d.inbox then s0.dropCredits c else s0
              (s1.pushRun c d).dmaSettle c

/-- The next burst of a channel: the run, its unit. -/
def DmaChan.nextUnit (x : DmaChan) : Option (DescRun × DmaUnit) :=
  if x.st ≠ .running then none
  else x.current.bind (fun r => r.units.bind (fun us => us[r.issued]?.map (fun u => (r, u))))

/-- Asks for the credits that a channel's next burst lacks, and waits for them (R249). -/
def State.dmaCredit (s : State) (c : ChanRef) : State :=
  match (s.chan c).nextUnit with
  | none => s
  | some (r, u) =>
    let n := r.desc.credits
    if n = 0 then s
    else
      let x := s.chan c
      let s1 := if x.box = some r.desc.inbox then s else (s.dropCredits c).modChan c (fun x => { x with box := some r.desc.inbox })
      let y := s1.chan c
      if creditNeed u.dst ≤ y.held then s1
      else
        let s2 := if y.creditAsked then s1 else s1.askDma c r.desc.inbox n
        s2.modChan c (fun x => { x with st := .waitCredit })

/-- Whether a channel has a burst ready: tags and credits are there (R248). -/
def State.dmaReady (s : State) (c : ChanRef) : Bool :=
  match (s.chan c).nextUnit with
  | none => false
  | some (_, u) => s.tagsFree (chEng c) (readTags { id := 0, desc := 0, src := u.src, dst := u.dst }) 0

/-- Bytes of a pattern at destination addresses `a` on (R236). -/
def fillBytes (pat a n : Nat) : List Byte := (List.range n).map (fun i => bv 8 (pat >>> (8 * ((a + i) % 8))))

/-- Issues a channel's next burst. -/
def State.dmaBurst (s : State) (c : ChanRef) : State :=
  match (s.chan c).nextUnit with
  | none => s
  | some (r, u) =>
    let d := r.desc
    let g := (s.chan c).captured
    let ok := u.src.all (fun p => match p.1 with | some a => s.reaches c d.session g a p.2 | none => true)
      && (d.mcast || u.dst.all (fun p => s.reaches c d.session g p.1 p.2))
    if !ok then s.dmaFail c 6
    else
      let need := if d.credits = 0 then 0 else creditNeed u.dst
      let fill := u.src.all (fun p => p.1.isNone)
      let data := if d.kind = 4 then u.dst.flatMap (fun p => fillBytes d.src p.1 p.2)
        else if fill then List.replicate (u.dst.map Prod.snd).sum 0 else []
      let s1 := s.modChan c (fun x =>
        { x with held := x.held - need, serial := x.serial + 1,
                 bursts := x.bursts ++ [{ id := x.serial, desc := r.serial, src := u.src, dst := u.dst, data := data, read := fill,
                                          credit := if need = 0 then none else some (d.inbox, x.heldGen, need) }] })
      (s1.modRun c r.serial (fun r => { r with issued := r.issued + 1 })).dmaFlow c

/-- The position of the engine's last burst, for round-robin (R248). -/
def State.engLast (s : State) (e : EngRef) : Nat := match e with | .core n => (s.core n).dmaLast | .tiller t => (s.tiller t).dmaLast
def State.setEngLast (s : State) (e : EngRef) (k : Nat) : State :=
  match e with
  | .core n => s.modCore n (fun c => { c with dmaLast := k })
  | .tiller t => s.modTiller t (fun x => { x with dmaLast := k })

/-- The ready channel a funnel takes next: highest priority, then channel order from the last (R248). -/
def State.dmaPick (s : State) (e : EngRef) : Option ChanRef :=
  let n := (engChans e).length
  let last := s.engLast e
  let order := (List.range n).filterMap (fun i => (engChans e)[(last + 1 + i) % n]?)
  let ready := order.filter s.dmaReady
  (List.range 4).findSome? (fun p => ready.find? (fun c => (s.chan c).prio = p))

/-- DMA_BURST_ISSUE (R245, R248, R249). -/
def execDmaBurstIssue (e : EngRef) (s : State) : Out :=
  onUnit (engOk e) "DMA engine" <|
    let on := match e with | .core n => s.up && s.coreOpen n | .tiller t => s.up && s.clockOn (tillerHalf t)
    if !on then s
    else
      let s1 := forAll (engChans e) s (fun s c => (s.dmaPrep c).dmaCredit c)
      match s1.dmaPick e with
      | none => s1
      | some c => (s1.setEngLast e (chNum c)).dmaBurst c

/-- The data of a burst's sources: local bytes read now, remote ones as they returned; or an ERR code with the address. -/
def State.burstData (s : State) (c : ChanRef) (b : Burst) : Except (Nat × Nat) (List Byte) :=
  if b.err ≠ 0 then .error (b.err, 0)
  else b.src.zipIdx.foldl (fun (r : Except (Nat × Nat) (List Byte)) p =>
    match r with
    | .error e => .error e
    | .ok l =>
      match p.1.1 with
      | none => .ok (l ++ List.replicate p.1.2 0)
      | some a => match s.dmaLocal a with
        | none => .ok (l ++ ((b.got.find? (fun g => g.1 = p.2)).map Prod.snd).getD [])
        | some k => match s.readAcc (chHalf c) k p.1.2 with
          | .ok x => .ok (l ++ x)
          | .error e => .error (0x10 + e, k)) (.ok [])

/-- Whether every remote source piece of a burst has returned, or one has failed. -/
def State.readBack (s : State) (b : Burst) : Bool :=
  b.err ≠ 0 || b.src.zipIdx.all (fun p => match p.1.1 with
    | some a => (s.dmaLocal a).isSome || b.got.any (fun g => g.1 = p.2)
    | none => true)

/-- Bytes that a tiller channel read (event 9) or wrote (event 10): its own count and that of all channels (R426). -/
def State.countDma (s : State) (c : ChanRef) (ev n : Nat) : State :=
  match c with
  | .core _ _ => s
  | .tiller t ch => (s.count (tillerNode t) ev (· = ch) n).count (tillerNode t) (ev + 5) (fun _ => true) n

/-- DMA_READ_RETURN (R247, R254, R255): the oldest read of a channel returns; after a disable its data is discarded. -/
def execDmaReadReturn (c : ChanRef) (s : State) : Out :=
  onUnit (chOk c) "DMA channel" <|
    if !s.engOn c then s
    else match (s.chan c).bursts.find? (fun b => !b.read) with
      | none => s
      | some b =>
        if !s.readBack b then s
        else if b.dead then (s.modChan c (fun x => { x with bursts := x.bursts.filter (fun y => y.id ≠ b.id) })).dmaSettle c
        else match s.burstData c b with
          | .error (e, a) => (if e = 0x15 then s.noteUe a else s).dmaFail c e
          | .ok l => ((s.modBurst c b.id (fun b => { b with data := l, read := true })).countDma c 9 (b.src.map Prod.snd).sum).dmaFlow c

/-- DMA_WRITE_ACK (R250, R254, R256): the oldest writes that left are performed and acknowledged; actions fall due. -/
def execDmaWriteAck (c : ChanRef) (s : State) : Out :=
  onUnit (chOk c) "DMA channel" <|
    if !s.engOn c then s
    else
      let x := s.chan c
      match x.bursts.find? Burst.left with
      | none => s
      | some b =>
        let run := x.runOf b.desc
        let d := match run with | some r => r.desc | none => {}
        let away := s.writesAway d b
        if away && !(b.dst.zipIdx.all (fun p => b.acks.contains (512 + p.2))) then s
        else
          let (e, p, s1) := if b.performed || away then (b.err, b.partialFail, s) else s.performBurst c d b
          let s2 := (s1.modChan c (fun x => { x with bursts := x.bursts.filter (fun y => y.id ≠ b.id) })).countDma c 10 (if e = 0 then b.data.length else 0)
          match run with
          | none => s2
          | some r =>
            let s3 := (if p then s2.modChan c (fun x => { x with err := 9 }) else s2).modRun c r.serial (fun r => { r with arrived := r.arrived + 1 })
            if e = 0 then s3.dmaFlow c
            else if r.failed then s3.dmaFlow c
            else if r.doneFired then
              (((s3.modChan c (fun x => { x with err := e })).modRun c r.serial (fun r => { r with evcFired := true, failed := true })).dmaStepError r.step e).dmaFlow c
            else s3.dmaFail c e

/-- DMA_DRAIN_END (R255): a DRAINING channel whose tags have all come back is IDLE. -/
def execDmaDrainEnd (c : ChanRef) (s : State) : Out :=
  onUnit (chOk c) "DMA channel" <|
    let x := s.chan c
    if s.engOn c ∧ x.st = .draining ∧ x.bursts.isEmpty then (s.modChan c (fun x => { x with st := .idle })).dmaSettle c else s

/-- DISABLED_CHANNEL_TAG_RECLAIM (R255): the session tags that a disabled channel still holds are reclaimed; a response
that comes later is dropped. -/
def execDisabledChannelTagReclaim (c : ChanRef) (s : State) : Out :=
  onUnit (chOk c) "DMA channel" <|
    if !s.up ∨ (s.chan c).st ≠ .draining then s
    else
      let mine := fun (u : Option TagUse) => match u with
        | some u => (match u.req with | .dma k _ => k = c | _ => false)
        | none => false
      let gone := fun (b : Burst) => s.readsAway b || b.dst.any (fun p => (s.dmaLocal p.1).isNone) || !b.asked.isEmpty
      let s1 := forAll (List.range 16) s (fun s h =>
        let held := (s.portNode h).tags.filter (fun p => mine p.2)
        let s1 := s.modPortNode h (fun x =>
          { x with tags := x.tags.filter (fun p => !mine p.2),
                   waiting := x.waiting.filter (fun r => match r.from' with | .dma k _ => k ≠ c | _ => true) })
        forAll held s1 (fun s p => match p.2.bind TagUse.sess with
          | some k => s.modSession k (fun e => { e with outstanding := e.outstanding - 1 })
          | none => s))
      s1.modChan c (fun x => { x with bursts := x.bursts.filter (fun b => !gone b) })

/-- DMA_CREDIT_GRANT (R249, R254): the oldest answer to a channel's credit request arrives; one that the channel no longer
wants goes back. -/
def execDmaCreditGrant (c : ChanRef) (s : State) : Out :=
  onUnit (chOk c) "DMA channel" <|
    match (s.chan c).creditMsg with
    | [] => s
    | (box, k, gen, detail) :: rest =>
      let s1 := s.modChan c (fun x => { x with creditMsg := rest })
      let x := s1.chan c
      if !s.engOn c then s
      else if x.box ≠ some box ∨ !x.creditAsked then s1.returnCredits (box / 64) (box % 64) gen k
      else if detail ≠ 0 then (s1.modChan c (fun x => { x with creditAsked := false })).dmaFail c (0x10 + detail)
      else s1.modChan c (fun x =>
        { x with creditAsked := false, held := min ((if x.heldGen = gen then x.held else 0) + k) 65535, heldGen := gen,
                 st := if x.st = .waitCredit then .running else x.st })

end Sys2Proof.Machine
end

