-- ==== Sys2Proof/Machine/Sequencer.lean ====
section
/-! DEFINITION. The step sequencer: records, issue, completion, commit with its watch and mirroring, faults and replay,
stop and abort (chapter 10), the withdrawal that damage starts (R416, R417) and the spare core (R403). -/

namespace Sys2Proof.Machine

/-! ## Withdrawal, drain and takeover begin -/

/-- DRAIN of a SERVING region: its schedule contexts and wave controllers stop issuing (R76, R284, R305). -/
def State.drainRegion (s : State) (r : Nat) : State :=
  if (s.region r).st ≠ .serving then s
  else
    forAll (s.regionTillers r) (s.modRegion r (fun x => { x with st := .draining })) (fun s T =>
      let s1 := forAll (List.range 8) s (fun s k => s.modSq T k (fun q => if q.st = .running then { q with st := .stopped } else q))
      s1.modTiller T (fun x =>
        if x.th.st = .running then { x with th := { x.th with st := .stopped } }
        else if x.th.st = .replaying then { x with th := { x.th with stopAfter := true } } else x))

/-- Begins to unpark a half that is PARKED (Table 12 of chapter 1). -/
def State.unparkStart (s : State) (h : Half) : State :=
  if (s.half h).st = .parked then s.modHalf h (fun x => { x with st := .unparking, locked := false }) else s

/-- Whether copies to the buddy can be made: there is one and it can be reached (R419). -/
def State.buddyOk (s : State) : Bool :=
  match s.loader.rel with
  | some r => r.buddy ≠ 0xFFFF && (s.routeOf r.buddy).isSome
  | none => false

/-- Begins a withdrawal: parked halves are unparked and every SERVING region drains (R416, R417). -/
def State.withdrawNow (s : State) (cause : Nat) : State :=
  let (st, s) := s.stamp 0
  let s1 := s.modRel (fun x => { x with st := 1, cause := cause, wdr := .draining, wdrAt := st, wdrLost := !s.buddyOk, wdrDue := none })
  let s2 := s1.log { report 0xB cause 8 false 0 0 cause with lost := !s.buddyOk }
  forAll (List.range 16) ((s2.unparkStart .west).unparkStart .east) State.drainRegion

/-- Asks for a withdrawal: one at a time, after a loader command that is being carried out (R81, R416). -/
def State.withdraw (s : State) (cause : Nat) : State :=
  if s.rel.st ≠ 0 then s
  else if s.loader.busy then s.modRel (fun x => { x with wdrDue := some (x.wdrDue.getD cause) })
  else s.withdrawNow cause

/-- Damage beyond spares: a withdrawal where WITHDRAW_EN is set (R416). -/
def State.damage (s : State) (cause : Nat) : State :=
  match s.loader.rel with
  | some r => if r.withdrawEn then s.withdraw cause else s
  | none => s

/-- The physical core, by position 0 to 16, that serves a logical core (R12, R404). -/
def State.physOf (s : State) (T c : Nat) : Nat := if (s.tiller T).spareServes = some c then 16 else c

/-- Whether a tiller's spare may take over: policy AUTO, free, not lost (R69, R282). -/
def State.spareFree (s : State) (T : Nat) : Bool :=
  let x := s.tiller T
  !x.hold && !x.spareLost && x.spareServes.isNone && x.takeover.isNone

/-! ## Step records (R264 to R269) -/

/-- A step record from its 64 bytes (Table 2 of chapter 10). -/
def recOf (l : List Byte) : StepRec :=
  let op := fld l 4 2
  let ctx := fld l 8 1
  let rep := fld l 9 1
  let ch := fld l 10 1
  let pre := fld l 12 4
  let dl := fld l 32 8
  let lp := fld l 56 8
  { stepId := fld l 0 4, op := bv 16 op, cores := bv 16 (fld l 6 2), ctx := ctx % 8, cls := rep % 4, dup := rep.testBit 2,
    dmaCh := ch % 32, pregrant := pre, pc := fld l 16 4, sp := fld l 20 4, args := fld l 24 4, commit := fld l 28 4,
    dmaList := word dl, ctrA := fld l 40 1, ctrB := fld l 41 1, incA := fld l 42 2, incB := fld l 44 2,
    argSub := bv 16 (fld l 46 2), valA := fld l 48 4, valB := fld l 52 4, loop := word lp,
    bad := op / 1024 ≠ 0 || ctx / 8 ≠ 0 || rep / 8 ≠ 0 || rep % 4 = 3 || ch / 32 ≠ 0 || fld l 11 1 ≠ 0 || pre / 2 ^ 23 ≠ 0
      || dl / 2 % 32 ≠ 0 || dl / 2 ^ 50 ≠ 0 || lp / 2 ^ 32 ≠ 0 }

def StepRec.thread (r : StepRec) : Bool := bit r.op 0
def StepRec.dma (r : StepRec) : Bool := bit r.op 1
def StepRec.waitA (r : StepRec) : Bool := bit r.op 2
def StepRec.waitB (r : StepRec) : Bool := bit r.op 3
def StepRec.hasArgs (r : StepRec) : Bool := bit r.op 4
def StepRec.hasCommit (r : StepRec) : Bool := bit r.op 5
def StepRec.isLoop (r : StepRec) : Bool := bit r.op 6
def StepRec.isEnd (r : StepRec) : Bool := bit r.op 7
def StepRec.serial (r : StepRec) : Bool := bit r.op 8
def StepRec.isLocal (r : StepRec) : Bool := bit r.op 9
def StepRec.phased (r : StepRec) : Bool := bit r.dmaList 0
def StepRec.dmaPair (r : StepRec) : Nat := field r.dmaList 44 6
def StepRec.chainAddr (r : StepRec) : Nat := field r.dmaList 6 38 * 64
def StepRec.target (r : StepRec) : Nat := field r.loop 0 16
def StepRec.count (r : StepRec) : Nat := field r.loop 16 16

/-- Pair `p` of tiller `T`. -/
def State.pair (s : State) (T p : Nat) : Pair := sget {} (s.tiller T).pairs p
def State.modPair (s : State) (T p : Nat) (f : Pair → Pair) : State :=
  s.modTiller T (fun x => { x with pairs := sput {} x.pairs p (f (sget {} x.pairs p)) })

/-- The start of the live half, or of the shadow (R276). -/
def Pair.start (p : Pair) (shadow : Bool) : Nat := p.base + (if p.live != shadow then p.size else 0)

/-- Whether the record at index `n` is valid as far as it alone shows (R269, R304). -/
def State.recValid (s : State) (T : Nat) (r : StepRec) (n : Nat) : Bool :=
  !r.bad && !(r.thread && (r.cores = 0 || s.inThallus T)) && r.pc % 2 = 0
    && r.args % 8 = 0 && decide (r.args + 64 ≤ 0x400000) && r.commit % 8 = 0 && decide (r.commit + 8 ≤ 0x400000)
    && !(r.dup && (List.range 8).any (fun c => bit r.cores c && bit r.cores (c + 8)))
    && !(r.isLoop && decide (n < r.target))
    && !(r.dma && r.phased && !(s.pair T r.dmaPair).valid)

/-- Reads as the sequencer of a tiller. -/
def State.sqRead (s : State) (T a n : Nat) : Except Nat (List Byte) :=
  if isCtl a then .error dDenied else s.readAcc (tillerHalf T) a n

/-- The next record of a schedule context: the record, or the ERR it stops with (R269, R286). -/
def State.nextRec (s : State) (T k : Nat) : Except Nat StepRec :=
  let q := s.sq T k
  match s.sqRead T (q.baseNow + 64 * q.next) 64 with
  | .error _ => .error 2
  | .ok l => let r := recOf l; if s.recValid T r q.next then .ok r else .error 1

/-- Whether a record's wait conditions have reached their values (R261, R268). -/
def State.recReached (s : State) (T : Nat) (r : StepRec) (iter : Nat) : Bool :=
  (!r.waitA || reached (s.evc T r.ctrA) ((r.valA + iter * r.incA) % 2 ^ 32))
    && (!r.waitB || reached (s.evc T r.ctrB) ((r.valB + iter * r.incB) % 2 ^ 32))

/-- Whether a pre-grant of a step still waits on its inbox's list (R274). -/
def State.preWaiting (s : State) (T k : Nat) (x : Step) : Bool :=
  (s.inbox (field (word x.rec'.pregrant) 6 6) (x.rec'.pregrant % 64)).waiters.any (fun w =>
    match w.1 with
    | .pregrant a b n _ => a = T && b = k && n = x.serial
    | .slot t _ q => x.preWait.contains (t, q)
    | _ => false)

/-- Whether the issue of an earlier step still waits (R274). -/
def State.issueWaits (s : State) (T k : Nat) (x : Step) : Bool := !x.forksLeft.isEmpty || s.preWaiting T k x

/-- Whether a schedule context may issue a record now: R272 but for the turn, and R274's busy channel. -/
def State.mayIssue (s : State) (T k : Nat) (r : StepRec) : Bool :=
  let q := s.sq T k
  s.recReached T r q.iter && decide (q.steps.length < q.maxNow)
    && !(q.steps.any (fun x => x.replayDue || x.rec'.isLocal || s.issueWaits T k x))
    && !((r.serial || r.isLocal) && !q.steps.isEmpty)
    && !(r.dma && s.chOwner (.tiller T r.dmaCh) = owSeq && (s.chan (.tiller T r.dmaCh)).st ≠ .idle)

/-- Whether a schedule context would act if it had the turn: it issues, or stops on a bad record. -/
def State.wantsTurn (s : State) (T k : Nat) : Bool :=
  let q := s.sq T k
  q.st = .running && !q.ended && match s.nextRec T k with | .error _ => true | .ok r => s.mayIssue T k r

/-- The context whose turn it is, round-robin in context order (R272). -/
def State.sqTurn (s : State) (T : Nat) : Option Nat :=
  ((List.range 8).map (fun i => ((s.tiller T).sqLast + 1 + i) % 8)).find? (s.wantsTurn T)

/-! ## Issue (R273) -/

/-- A commit list from its words (R277); none where it is invalid. -/
def commitEntry (w : Nat) : Option CommitEntry :=
  if w / 16 % 16 ≠ 0 then none
  else if w % 16 = 1 then (if w / 2 ^ 20 = 0 then some (.flip (w / 2 ^ 14 % 64) (w / 2 ^ 8 % 64)) else none)
  else if w % 16 = 2 then some (.inc (w / 2 ^ 8 % 2 ^ 28) (w / 2 ^ 36))
  else none

/-- All of a list of options, if none is missing. -/
def allSome {α : Type} : List (Option α) → Option (List α)
  | [] => some []
  | some a :: l => (allSome l).map (a :: ·)
  | none :: _ => none

/-- The commit list of a record, or the ERR its read ends in. -/
def State.readCommit (s : State) (T : Nat) (r : StepRec) : Except Nat (List CommitEntry) :=
  if !r.hasCommit then .ok []
  else match s.sqRead T (tmAddr T r.commit) 8 with
    | .error _ => .error 2
    | .ok l =>
      let n := leNat l
      if n = 0 ∨ 16 < n ∨ 0x400000 < r.commit + 8 + 8 * n then .error 1
      else match s.sqRead T (tmAddr T (r.commit + 8)) (8 * n) with
        | .error _ => .error 2
        | .ok b => match allSome ((List.range n).map (fun i => commitEntry (fld b (8 * i) 8))) with
          | some es => .ok es
          | none => .error 1

/-- One argument word after substitution (R266); none where it names an invalid pair. -/
def State.argWord (s : State) (T k sub w : Nat) : Option Word :=
  if sub = 0 then some (word w)
  else if sub = 3 then some (word (w / 256 * 256 + 248 + k))
  else
    let p := s.pair T (w % 64)
    if w / 64 % 4 = 0 ∧ p.valid then some (word (p.start (sub = 2) + w / 256)) else none

/-- The argument words of a record after substitution, or the ERR (R266, R269). -/
def State.readArgs (s : State) (T k : Nat) (r : StepRec) : Except Nat (List Word) :=
  if !r.hasArgs then .ok []
  else match s.sqRead T (tmAddr T r.args) 64 with
    | .error _ => .error 2
    | .ok l => match allSome ((List.range 8).map (fun i => s.argWord T k (field r.argSub (2 * i) 2) (fld l (8 * i) 8))) with
      | some ws => .ok ws
      | none => .error 1

/-- The chain a record starts (R267), or the ERR. -/
def State.readChain (s : State) (T : Nat) (r : StepRec) : Except Nat Nat :=
  if !r.dma then .ok 0
  else if !r.phased then .ok r.chainAddr
  else match s.sqRead T (r.chainAddr + if (s.pair T r.dmaPair).live then 0 else 8) 8 with
    | .error _ => .error 2
    | .ok l => .ok (leNat l)

/-- Zeroes a context's step-local counter (R263). -/
def State.zeroLocal (s : State) (T k : Nat) (r : StepRec) : State := if r.isLocal then s.setEvc T (248 + k) 0 else s

/-- The forks of a record: one thread per core, and a twin each for a duplicated step (R273, R408). -/
def StepRec.forks (r : StepRec) : List (Nat × Bool) :=
  if r.thread then (bitsOf 16 r.cores.toNat).flatMap (fun c => (c, false) :: if r.dup then [(c ^^^ 8, true)] else []) else []

/-- Pre-grants, DMA start and forks of a step that stands in its context's list (R273 steps 4 to 6). The Bool is false
where the DMA start fails. -/
def State.launch (s : State) (ref : StepRef) (x : Step) : State × Bool :=
  let r := x.rec'
  let T := ref.tiller
  let c : ChanRef := .tiller T r.dmaCh
  let started : Option State :=
    if !r.dma then some s
    else if s.chOwner c ≠ owSeq then none
    else match s.startCheck c x.chain none (s.readDesc (tillerHalf T) x.chain) with
      | .error _ => none
      | .ok d => some (s.dmaGo c x.chain d none (some ref))
  match started with
  | none => (s, false)
  | some s1 =>
    let n := r.pregrant / 4096 % 2048
    let s2 := if n = 0 then s1 else forAll (x.forksLeft.filter (fun p => !p.2)) s1 (fun s p =>
      s.askInbox (field (word r.pregrant) 6 6) (r.pregrant % 64) (.pregrant T ref.sctx ref.serial p.1) n)
    (forAll x.forksLeft s2 (fun s p => s.serveForks (T * 16 + p.1)), true)

/-- What follows the issue of a record (R268). -/
def SqCtx.advance (q : SqCtx) (r : StepRec) : SqCtx :=
  let q := { q with ended := q.ended || r.isEnd }
  if r.isLoop ∧ (r.count = 0 ∨ q.iter + 1 < r.count) then { q with next := r.target, iter := (q.iter + 1) % 2 ^ 32 }
  else { q with next := (q.next + 1) % 2 ^ 16 }

/-- Issues a record (R273). -/
def State.issueRec (s : State) (T k : Nat) (r : StepRec) : State :=
  let s := s.zeroLocal T k r
  let parts : Except Nat (List Word × List CommitEntry × Nat) :=
    match s.readArgs T k r, s.readCommit T r, s.readChain T r with
    | .error e, _, _ => .error e
    | _, .error e, _ => .error e
    | _, _, .error e => .error e
    | .ok a, .ok b, .ok c => .ok (a, b, c)
  match parts with
  | .error e => s.abortSq T k e
  | .ok (args, commit, chain) =>
    let n := (s.tiller T).sqSerial
    let q := s.sq T k
    let x : Step :=
      { serial := n, rec' := r, index := q.next, iter := q.iter, args, commit, chain, forksLeft := r.forks, preHeld := [],
        preWait := [], live := [], digests := [], dmaDone := !r.dma, failed := false, replayDue := false, killed := [],
        testDue := false, faults := 0, mismatches := 0, blamed := [], spareFor := none, replayed := false, watched := false,
        watchLeft := [], mirrored := false, mirrorLeft := [], flushes := 0, blkufs := 0 }
    let s1 := (s.modTiller T (fun y => { y with sqSerial := y.sqSerial + 1 })).modSq T k (fun q => { q with steps := q.steps ++ [x] })
    match s1.launch ⟨T, k, n⟩ x with
    | (s2, true) => (s2.modSq T k (fun q => q.advance r)).count (tillerNode T) 6 (qualOr k) 1
    | (s2, false) => (s2.modSq T k (fun q => { q with steps := q.steps.filter (fun y => y.serial ≠ n) })).abortSq T k 8

/-- Whether a tiller's sequencer runs. -/
def State.sqOn (s : State) (T : Nat) : Bool := s.up && s.clockOn (tillerHalf T)

/-- STEP_ISSUE (R272 to R274): the context whose turn it is reads its next record and issues it. -/
def execStepIssue (tiller k : Nat) (s : State) : Out :=
  onUnit (tiller < 64 && k < 8) "schedule context" <|
    if !s.sqOn tiller || s.sqTurn tiller != some k then s
    else
      let s := s.modTiller tiller (fun x => { x with sqLast := k })
      match s.nextRec tiller k with
      | .error e => s.abortSq tiller k e
      | .ok r => s.issueRec tiller k r

/-! ## The tensor watch (R434 to R438) -/

/-- Fields of a TENSOR_WATCH section body (Table 6 of chapter 16). -/
def watchMode (w : List Byte) : Nat := fld w 0 1
def watchCount (w : List Byte) : Nat := fld w 2 2
def watchLog (w : List Byte) : Nat := fld w 4 1
def watchArea (w : List Byte) : Nat := fld w 8 8
def watchDump (w : List Byte) : Nat := fld w 16 8
/-- Watch record `i` of a section body. -/
def watchRec (w : List Byte) (i : Nat) : List Byte := (w.drop (32 + 32 * i)).take 32

/-- Bytes of a tiller's record ring, rounded up to 4 KiB, and of its whole part of the watch area (R434). -/
def watchRing (w : List Byte) : Nat := (2 ^ watchLog w * 80 + 4095) / 4096 * 4096
def watchShare (w : List Byte) : Nat := watchRing w + watchDump w

/-- The watch section that covers a tiller. -/
def State.watchOf (s : State) (T : Nat) : List Byte := match s.regionOf T with | some r => (s.region r).watch | none => []

/-- The watch records that match a step or wave (R435): `iter` is ITER, or the wave number. -/
def State.watchMatch (s : State) (T stepId iter : Nat) : List Nat :=
  let w := s.watchOf T
  if w = [] ∨ watchMode w = 0 then []
  else (List.range (watchCount w)).filter (fun i =>
    let r := watchRec w i
    fld r 0 4 = stepId && (fld r 4 1 = T || fld r 4 1 = 0xFF) && iter % max 1 (fld r 6 2) = 0)

/-- The element formats of a watch (Table 7 of chapter 16): floating formats, and widths of integers in bytes. -/
def watchFp (e : Nat) : Option FpFmt :=
  match e with | 1 => some fmt64 | 2 => some fmt32 | 3 => some fmtBf16 | 4 => some fmt16 | 5 => some fmtE4M3 | 6 => some fmtE5M2 | _ => none
def watchInt (e : Nat) : Nat := match e with | 7 => 8 | 8 => 4 | 9 => 1 | _ => 1

/-- HASH of a tensor (R437). -/
def watchHash (l : List Byte) : Word :=
  (List.range ((l.length + 7) / 8)).foldl (fun h i =>
    h ^^^ (word (fld l (8 * i) 8 * 0x9E3779B97F4A7C15)).rotateLeft (i % 64)) 0

/-- Two's complement value of `n` bytes. -/
def intOf (n w : Nat) : Int := if w < 2 ^ (8 * n - 1) then w else (w : Int) - 2 ^ (8 * n)

/-- The digest of a tensor (R437): COUNT, MIN, MAX, SUM, NAN, INF. A floating SUM is a bounded result; MIN and MAX of no
finite element are open. -/
def State.watchDigest (s : State) (e : Nat) (l : List Byte) : (Nat × Nat × Nat × Nat × Nat × Nat) × State :=
  match watchFp e with
  | some f =>
    let n := f.width / 8
    let cnt := l.length / n
    let ws := (List.range cnt).map (fun i => fld l (n * i) n)
    let vs := ws.map f.decode
    let fins := (ws.filter (fun w => !(f.decode w).isNan && !(f.decode w).isInf)).map (fun w => (f.convert fmt64 0 false w).1)
    let dys := fins.map (fun w => (fmt64.decode w).dy)
    let (c1, s1) := s.draw 64
    let (c2, s2) := s1.draw 64
    let (c3, s3) := s2.draw 64
    let lo := match fins with | [] => c1.toNat | a :: t => t.foldl (fun x y => (fmt64.minmax false false x y).1) a
    let hi := match fins with | [] => c2.toNat | a :: t => t.foldl (fun x y => (fmt64.minmax true false x y).1) a
    let exact := dys.foldl Dy.add Dy.zero
    let mag := dys.foldl (fun a d => a.add d.abs) Dy.zero
    let k := if cnt ≤ 1 then 0 else Nat.log2 (cnt - 1) + 1
    let sum := (fmt64.bounded false c3.toNat exact ((mag.mul (Dy.ofNat k)).scale (-53))).1
    ((cnt, lo, hi, sum, (vs.filter FV.isNan).length, (vs.filter FV.isInf).length), s3)
  | none =>
    if e = 0 then ((l.length, 0, 0, 0, 0, 0), s)
    else
      let n := watchInt e
      let cnt := l.length / n
      let vs := (List.range cnt).map (fun i => intOf n (fld l (n * i) n))
      let (c1, s1) := s.draw 64
      let (c2, s2) := s1.draw 64
      let enc := fun (i : Int) => (BitVec.ofInt 64 i).toNat
      let lo := match vs with | [] => c1.toNat | a :: t => enc (t.foldl min a)
      let hi := match vs with | [] => c2.toNat | a :: t => enc (t.foldl max a)
      ((cnt, lo, hi, enc (vs.foldl (· + ·) 0), 0, 0), s2)

/-- What a watch record says of the step or wave it watches. -/
structure Watched where
  stepId : Nat
  iter : Nat
  context : Nat
  replayed : Bool
  flushes : Nat
  blkufs : Nat

/-- Acts on watch record `i` (R435 to R438): digests or dumps the tensor and writes the record; none where the tensor
reads as uncorrectable, with the address read. -/
def State.watchAct (s : State) (T i : Nat) (x : Watched) : Except Nat State :=
  let w := s.watchOf T
  let r := watchRec w i
  let p := s.pair T (fld r 16 1 % 64)
  let a := if (fld r 16 1).testBit 7 then p.start true + fld r 8 8 else fld r 8 8
  let len := fld r 20 4
  let h := tillerHalf T
  match s.sqRead T a len with
  | .error e => if e = dUncorrectable then .error a else .ok (go s w i r a len h none)
  | .ok l => .ok (go s w i r a len h (some l))
where
  /-- Writes the record, with zeroed results where the read met another error. -/
  go (s : State) (w : List Byte) (i : Nat) (r : List Byte) (a len : Nat) (h : Half) (data : Option (List Byte)) : State :=
    let tills := match s.regionOf T with | some g => s.regionTillers g | none => []
    let own := tills.idxOf T * watchShare w
    let n := (s.tiller T).twRecords
    let dump := watchMode w = 1
    let l := data.getD []
    let trunc := dump && decide (watchDump w < len)
    let dl := if dump then min l.length (watchDump w) else 0
    let at0 := (s.tiller T).twDumpAt
    let at1 := if watchDump w < at0 + dl then 0 else at0
    let s1 := if dump then
        ((s.writeAcc h (watchArea w + own + watchRing w + at1) (l.take dl)).2).modTiller T (fun y => { y with twDumpAt := at1 + dl })
      else s
    let d := if dump ∨ data.isNone then ((0, 0, 0, 0, 0, 0), s1) else s1.watchDigest (fld r 5 1) l
    let (st, s2) := d.2.stamp (tillerNode T)
    let flags := b2n x.replayed + 2 * b2n trunc + 4 * b2n data.isNone
    let head := leBytes 8 st.toNat ++ leBytes 4 x.stepId ++ leBytes 2 x.iter ++ leBytes 1 T ++ leBytes 1 x.context
      ++ leBytes 1 i ++ leBytes 1 (if dump then 2 else 1) ++ leBytes 2 flags ++ leBytes 4 (n + 1)
    let ok := data.isSome
    let z := fun (v : Nat) => if ok then v else 0
    let body := if dump then
        leBytes 8 (z a) ++ leBytes 8 (z dl) ++ leBytes 8 (z (own + watchRing w + at1)) ++ leBytes 8 0
          ++ leBytes 8 (z (watchHash l).toNat) ++ List.replicate 16 0
      else
        leBytes 8 d.1.1 ++ leBytes 8 d.1.2.1 ++ leBytes 8 d.1.2.2.1 ++ leBytes 8 d.1.2.2.2.1 ++ leBytes 8 (z (watchHash l).toNat)
          ++ leBytes 4 d.1.2.2.2.2.1 ++ leBytes 4 d.1.2.2.2.2.2 ++ leBytes 4 (z x.flushes) ++ leBytes 4 (z x.blkufs)
    let s3 := (s2.writeAcc h (watchArea w + own + n % 2 ^ watchLog w * 80) (head ++ body)).2
    s3.modTiller T (fun y =>
      { y with twRecords := (y.twRecords + 1) % 2 ^ 32, twErrors := if ok then y.twErrors else satAdd 16 y.twErrors 1 })

/-! ## Mirroring (R413 to R415) -/

/-- Whether a pair is mirrored by the section in force. -/
def State.mirrored (s : State) (T p : Nat) : Bool :=
  match s.loader.rel with | some r => r.mirrorEn && bit (r.pairs.getD T 0) p | none => false

/-- Whether mirror copies can be made: mirroring is not DOWN and its session is OPEN (R415). -/
def State.mirrorUp (s : State) : Bool :=
  match s.loader.rel with | some r => r.mirrorEn && !s.rel.mirrorDown && (s.session r.sess).st = 1 | none => false

/-- Mirroring goes DOWN (R415). -/
def State.mirrorFails (s : State) : State :=
  if s.rel.mirrorDown || s.mirrorOff then s
  else (s.modRel (fun x => { x with mirrorDown := true })).log (report 0xA 1 0xA false 0 0 0)

/-- The mirror record of a pair whose new copy lies in slot `slot`, with its SEQ (Table 4 of chapter 15). -/
def State.mirrorRecord (s : State) (T p seq : Nat) (slot : Bool) (context stepId next iter : Nat) : List Byte × State :=
  let x := s.pair T p
  let (st, s) := s.stamp (tillerNode T)
  (leBytes 8 st.toNat ++ leBytes 8 seq ++ leBytes 1 T ++ leBytes 1 p ++ leBytes 1 (b2n slot) ++ leBytes 1 context
    ++ leBytes 4 stepId ++ leBytes 2 next ++ leBytes 2 iter ++ leBytes 4 x.size ++ leBytes 2 s.moduleId ++ List.replicate 30 0, s)

/-- Whether MIRROR_DOWN clears: every mirrored pair is current (R415). -/
def State.mirrorSettle (s : State) : State :=
  let cur := (List.range 64).all (fun T => (List.range 64).all (fun p =>
    !(s.mirrored T p && (s.pair T p).valid) || (s.pair T p).mirrorCurrent))
  if s.rel.mirrorDown && cur then (s.modRel (fun x => { x with mirrorDown := false })).log (report 0xA 2 0xA false 0 0 0) else s

/-- The record of a pair's new live copy has arrived: the buddy holds it; a commit's copy counts in SEQ (R413, R414). -/
def State.mirrorDone (s : State) (T p : Nat) (commit : Bool) : State :=
  (s.modPair T p (fun x =>
    { x with mirrorSeq := x.mirrorSeq + b2n commit, mirrorSlot := !x.mirrorSlot, mirrorCurrent := true, background := 0 })).mirrorSettle

/-! ## Completion and commit (R275 to R278) -/

/-- Whether a report of a fault stands against a step (R280). -/
def State.faultPending (s : State) (r : StepRef) (x : Step) : Bool :=
  s.faultReports.any (fun p => p.1 = r.tiller && match p.2.2, p.2.1 with
    | some q, _ => q = r
    | none, .coreFault c => x.live.any (fun t => t.unit = c)
    | none, _ => false)

/-- Whether a step is complete (R275). -/
def State.complete (s : State) (r : StepRef) (x : Step) : Bool := x.quiet && !x.replayDue && !x.failed && !s.faultPending r x

/-- The pairs of a commit list's FLIPs in the own tiller. -/
def ownFlips (T : Nat) (es : List CommitEntry) : List Nat :=
  es.filterMap (fun e => match e with | .flip t p => if t = T then some p else none | _ => none)

/-- Inverts LIVE of a pair, if it is declared; a pair whose new live half was not mirrored is not covered (R278, R413). -/
def State.flipPair (s : State) (T p : Nat) (covered : Bool) : State :=
  if (s.pair T p).valid then s.modPair T p (fun x =>
    { x with live := !x.live, mirrorCurrent := x.mirrorCurrent && covered, background := if covered then x.background else 0 }) else s

/-- Runs the entries of a commit list (R278): own FLIPs, other FLIPs, INCs. The Bool is false for a refusal. `covered`
lists the own pairs that were mirrored. -/
def State.runCommit (s : State) (T : Nat) (es : List CommitEntry) (covered : List Nat) : State × Bool :=
  let s1 := forAll (ownFlips T es) s (fun s p => s.flipPair T p (covered.contains p))
  let away := es.filterMap (fun e => match e with | .flip t p => if t ≠ T then some (t, p) else none | _ => none)
  let r1 := away.foldl (fun (r : State × Bool) f =>
    if !r.2 then r
    else
      let s2 := if r.1.mirrored f.1 f.2 then r.1.log (report 0xA 3 0xA false (tillerNode f.1) 0 (f.1 * 64 + f.2)) else r.1
      s2.injectC0 (tillerNode T) (tillerNode f.1) (.flip f.2)) (s1, true)
  es.foldl (fun (r : State × Bool) e =>
    match e with
    | .inc h k => if r.2 then r.1.increment (tillerNode T) (h / 2 ^ 14) (h / 2 ^ 8 % 64) (h % 256) k else r
    | _ => r) r1

/-- The own pairs of a commit list that its commit mirrors. -/
def State.mirrorPairs (s : State) (T : Nat) (es : List CommitEntry) : List Nat :=
  (ownFlips T es).filter (fun p => s.mirrored T p && (s.pair T p).valid)

/-- The last part of a commit (R278): the commit list runs and the step leaves flight. -/
def State.commitEnd (s : State) (r : StepRef) (x : Step) : State :=
  let covered := if x.mirrored && s.mirrorUp then s.mirrorPairs r.tiller x.commit else []
  let s1 := s.modSq r.tiller r.sctx (fun q => { q with steps := q.steps.filter (fun y => y.serial ≠ x.serial) })
  let e := s1.runCommit r.tiller x.commit covered
  if !e.2 then e.1.abortSq r.tiller r.sctx 9
  else (e.1.modSq r.tiller r.sctx (fun q => if x.rec'.isEnd then { q with st := .done } else q)).count (tillerNode r.tiller) 7 (qualOr r.sctx) 1

/-- Goes on with the commit of a step: the watch, then the mirroring, then the commit itself (R413, R435). -/
def State.commitGo (s : State) (r : StepRef) : (fuel : Nat) → State
  | 0 => s
  | fuel + 1 =>
    match s.stepAt r with
    | none => s
    | some x =>
      if !x.watched then
        (s.modStep r (fun x => { x with watched := true, watchLeft := s.watchMatch r.tiller x.rec'.stepId x.iter })).commitGo r fuel
      else match x.watchLeft with
        | i :: _ =>
          match s.watchAct r.tiller i ⟨x.rec'.stepId, x.iter % 65536, r.sctx, x.replayed, x.flushes, x.blkufs⟩ with
          | .ok s1 => s1
          | .error a => s.reportFault r.tiller (.uncorrectable a) (some r)
        | [] =>
          let ps := s.mirrorPairs r.tiller x.commit
          if !x.mirrored then
            if ps.any (fun p => (s.pair r.tiller p).background ≠ 0) then s
            else
              let s1 := if !ps.isEmpty && !s.mirrorUp then s.mirrorFails else s
              let todo := if s.mirrorUp then ps.map (·, false) else []
              (s1.modStep r (fun x => { x with mirrored := true, mirrorLeft := todo })).commitGo r fuel
          else if x.mirrorLeft.isEmpty then s.commitEnd r x else s

/-- Whether a step may begin or go on with its commit: it is the oldest of a context that is not being aborted. -/
def State.mayCommit (s : State) (r : StepRef) : Bool :=
  let q := s.sq r.tiller r.sctx
  (q.st = .running || q.st = .stopped) && match q.steps with
    | x :: _ => x.serial = r.serial && s.complete r x
    | [] => false

/-- STEP_COMMIT (R278): the oldest step of a context, if complete, begins its commit. -/
def execStepCommit (tiller k : Nat) (s : State) : Out :=
  onUnit (tiller < 64 && k < 8) "schedule context" <|
    match (s.sq tiller k).steps with
    | x :: _ =>
      let r : StepRef := ⟨tiller, k, x.serial⟩
      if s.sqOn tiller && s.mayCommit r && x.watchLeft.isEmpty && x.mirrorLeft.isEmpty then s.commitGo r 4 else s
    | [] => s

/-- The oldest watched step's record has arrived: the next record is acted on, or the commit goes on (R435). -/
def State.stepWatchArrived (s : State) (T k : Nat) : State :=
  match (s.sq T k).steps with
  | x :: _ =>
    let r : StepRef := ⟨T, k, x.serial⟩
    if s.mayCommit r && !x.watchLeft.isEmpty then (s.modStep r (fun x => { x with watchLeft := x.watchLeft.drop 1 })).commitGo r 4 else s
  | [] => s

/-- Whether a class-0 message is a FLIP of pair `p`. -/
def C0Msg.isFlip (p : Nat) : C0Msg → Bool
  | .flip k => k = p
  | _ => false

/-- COMMIT_FLIP_ARRIVE (R278, R413): a FLIP from another tiller arrives, in the order its flits keep (R51); at a loading
region it is discarded and counted (R78). -/
def execCommitFlipArrive (tiller pair : Nat) (s : State) : Out :=
  onUnit (tiller < 64 && pair < 64) "buffer pair" <|
    if s.up && (s.tiller tiller).c0.any (C0Msg.isFlip pair) then
      let s1 := s.modTiller tiller (fun x => { x with c0 := x.c0.erase (.flip pair) })
      if s.loading tiller then s1.modNode (tillerNode tiller) (fun n => { n with deny := satAdd 16 n.deny 1 })
      else s1.flipPair tiller pair false
    else s

/-! ## Commands of a schedule context (R270, R271, R284 to R286) -/

/-- A write of `SQ_CTL` at level 1: its fields are kept; MAXFLIGHT takes effect at START. -/
def State.keepSqCtl (s : State) (T k : Nat) (w : Word) : State :=
  s.modSq T k (fun q => { q with op := field w 0 3, maxflight := field w 8 3 })

/-- START (R271). -/
def SqCtx.start (q : SqCtx) : SqCtx :=
  if q.st = .idle ∨ q.st = .done ∨ q.st = .aborted then
    { q with st := .running, next := 0, iter := 0, replays := 0, err := 0, ended := false, baseNow := q.base,
             maxNow := if q.maxflight = 0 then 1 else min q.maxflight 4 }
  else q

/-- START of a context: where it takes effect and CTX_MASK names the context, it applies a command reset (R271, R428). -/
def State.startSq (s : State) (T k : Nat) : State :=
  let q := s.sq T k
  let s1 := s.modSq T k SqCtx.start
  if (q.st = .idle ∨ q.st = .done ∨ q.st = .aborted) ∧ (s.node (tillerNode T)).ctxMask.testBit k then
    s1.cntReset (tillerNode T)
  else s1

/-- The operation of an `SQ_CTL` write (R271). -/
def State.sqCommand (s : State) (T k op : Nat) : State :=
  match op with
  | 1 => s.startSq T k
  | 2 => s.modSq T k (fun q => if q.st = .running then { q with st := .stopped } else q)
  | 3 => s.modSq T k (fun q => if q.st = .stopped then { q with st := .running } else q)
  | 4 => s.abortSq T k 6
  | _ => s

/-- A write of `SQ_CTL` (R271). -/
def State.writeSqCtl (s : State) (T k : Nat) (w : Word) : State := (s.keepSqCtl T k w).sqCommand T k (field w 0 3)

/-- A command that writes `SQ_CTL` with its own operation. -/
def State.sqWrite (s : State) (T k op : Nat) (w : Word) : Out :=
  onUnit (T < 64 && k < 8) "schedule context" (if s.reachable (tillerNode T) ∧ field w 0 3 = op then s.writeSqCtl T k w else s)

/-- SQ_START (R271). -/
def execSqStart (tiller k : Nat) (w : Word) (s : State) : Out := s.sqWrite tiller k 1 w

/-- SQ_STOP (R271, R284). -/
def execSqStop (tiller k : Nat) (s : State) : Out :=
  s.sqWrite tiller k 2 (word (2 + (s.sq tiller k).maxflight * 256))

/-- SQ_RESUME (R271). -/
def execSqResume (tiller k : Nat) (s : State) : Out :=
  s.sqWrite tiller k 3 (word (3 + (s.sq tiller k).maxflight * 256))

/-- SQ_ABORT (R285, R286). -/
def execSqAbort (tiller k : Nat) (s : State) : Out :=
  s.sqWrite tiller k 4 (word (4 + (s.sq tiller k).maxflight * 256))

/-- SQ_ABORTED (R285): once everything in flight has ended, ABORTING becomes ABORTED. -/
def execSqAborted (tiller k : Nat) (s : State) : Out :=
  onUnit (tiller < 64 && k < 8) "schedule context" <|
    let q := s.sq tiller k
    if s.up && q.st = .aborting && q.steps.all Step.quiet then s.modSq tiller k (fun q => { q with st := .aborted, steps := [] }) else s

/-- A write of `SQ_BUF` word 0 at level 1 (R276). -/
def State.writeSqBuf (s : State) (T p : Nat) (w : Word) : State :=
  let busy := (List.range 8).any (fun k => (s.sq T k).st = .running || (s.sq T k).st = .aborting)
  if busy || !(s.pair T p).valid then s
  else s.modPair T p (fun x =>
    { x with live := bit w 1, mirrorCurrent := x.mirrorCurrent && x.live == bit w 1, background := if x.live = bit w 1 then x.background else 0 })

/-- SQ_BUF_LIVE_WRITE (R276). -/
def execSqBufLiveWrite (tiller pair : Nat) (w : Word) (s : State) : Out :=
  onUnit (tiller < 64 && pair < 64) "buffer pair" (if s.reachable (tillerNode tiller) then s.writeSqBuf tiller pair w else s)

/-! ## Faults and replay (R280 to R283, R408 to R410) -/

/-- CAUSE and the core of a step fault (Table 7 of chapter 10). -/
def faultCause (f : StepFault) : Nat :=
  match f with | .sentinel _ => 1 | .coreFault _ => 2 | .uncorrectable _ => 3 | .dmaError => 4 | .dupMismatch => 5
def faultCore (f : StepFault) : Option Nat :=
  match f with | .sentinel c => some (c % 16) | .coreFault c => some (c % 16) | _ => none

/-- The SOURCE of a fault's health-log entry (Table 7 of chapter 15). -/
def faultSource (f : StepFault) : Nat := match f with | .sentinel _ => 2 | .coreFault _ => 1 | _ => 8

/-- The health-log entry of a step fault. -/
def faultEntry (T : Nat) (f : StepFault) (stepId action : Nat) (masked persistent lost : Bool) : Report :=
  { source := faultSource f, cause := faultCause f, action, masked, persistent, lost, node := tillerNode T,
    unit := match faultCore f with | some c => T * 16 + c | none => 0, stepId,
    detail := match f with | .uncorrectable a => a | _ => 0 }

/-- The pair of a tiller whose live half holds an address and which mirroring covers, if any (R401). -/
def State.coveredPair (s : State) (a : Nat) : Option (Nat × Nat) :=
  if s.rel.mirrorDown then none
  else (List.range 64).findSome? (fun T =>
    ((List.range 64).find? (fun p =>
      let x := s.pair T p
      s.mirrored T p && x.valid && x.mirrorCurrent && decide (x.start false ≤ a) && decide (a < x.start false + x.size))).map (T, ·))

/-- Restores the 4 KiB granule of a covered live half that holds an address: a full write from the buddy's copy replaces
every bad check code in it (R401; log entry 20). The Bool says whether it was covered. -/
def State.restoreGranule (s : State) (a : Nat) : State × Bool :=
  match s.coveredPair a with
  | none => (s, false)
  | some (T, p) =>
    let x := s.pair T p
    let lo := x.start false + (a - x.start false) / 4096 * 4096
    let n := min 4096 (x.start false + x.size - lo)
    let keys := ((wordsOf lo n).filter (fun w => !s.pcFailed w)).map s.unitKey
    ({ s with badWords := s.badWords.filter (fun k => !keys.contains k) }, true)

/-- Takes back what a step started (R281 steps 1 and 2): its forks that wait, its threads, its channel. -/
def State.unlaunch (s : State) (r : StepRef) (x : Step) : State :=
  let T := field (word x.rec'.pregrant) 6 6
  let i := x.rec'.pregrant % 64
  let s1 := s.modInbox T i (fun b => { b with waiters := b.waiters.filter (fun w =>
    match w.1 with | .pregrant a c n _ => !(a = r.tiller && c = r.sctx && n = r.serial) | _ => true) })
  let s2 := forAll x.preHeld s1 (fun s p => s.returnCredits T i p.2.2 p.2.1)
  let s3 := s2.modStep r (fun x => { x with forksLeft := [], preHeld := [], preWait := [], digests := [], watched := false,
                                            watchLeft := [], mirrored := false, mirrorLeft := [] })
  let s4 := forAll x.live s3 State.killQuiet
  let c : ChanRef := .tiller r.tiller x.rec'.dmaCh
  let s5 := if x.rec'.dma then
      let y := s4.chan c
      if y.step = some r || y.runs.any (fun q => q.step = some r) then s4.dmaDisable c else s4
    else s4
  s5.modStep r (fun x => { x with live := [], dmaDone := true })

/-- The other steps in flight with a thread on a core that a takeover stops: each is taken back and replays; one of CLASS
NONE stops its context (R280, R281, R403). -/
def State.evictSteps (s : State) (T core : Nat) : State :=
  forAll (List.range 8) s (fun s k =>
    forAll ((s.sq T k).steps.filter (fun x => !x.replayDue && x.live.any (fun t => t.unit = core))) s (fun s x =>
      let r : StepRef := ⟨T, k, x.serial⟩
      if (s.sq T k).st ≠ .running ∧ (s.sq T k).st ≠ .stopped then s
      else if x.rec'.cls = 0 then s.abortSq T k 4
      else (s.unlaunch r x).modStep r (fun y => { y with replayDue := true, killed := x.live })))

/-- Starts a takeover of core `c`: its threads are gone and its clocks are gated (R403). -/
def State.startTakeover (s : State) (T c : Nat) : State :=
  let core := T * 16 + c
  let s0 := s.evictSteps T core
  let s1 := (forAll (List.range 8) s0 (fun s k => s.kill ⟨core, k⟩)).stopCtx0 core
  s1.modTiller T (fun x => { x with takeover := some c })

/-- The spare is to serve the replay of a step after a fault of core `c` (R282). -/
def State.wantsSpare (s : State) (T : Nat) (x : Step) (c : Nat) : Bool :=
  s.spareFree T && (x.rec'.cls = 2 || (x.rec'.cls = 1 && x.blamed.contains (s.physOf T c)))

/-- Withdrawal cause CORE_SPARES (Table 5 of chapter 15): a core fault in a tiller whose spare is lost, or FAULT_LIMIT on
a core that cannot be spared. -/
def State.spareDamage (s : State) (T : Nat) (f : StepFault) (limit : Bool) : State :=
  if (faultCore f).isSome && ((s.tiller T).spareLost || (limit && !s.spareFree T)) then s.damage 2 else s

/-- A fault of one step (R281). -/
def State.stepFault (s : State) (r : StepRef) (x : Step) (f : StepFault) : State :=
  let T := r.tiller
  let q := s.sq T r.sctx
  let n := x.rec'.stepId
  let lossy := match f with
    | .uncorrectable _ => true
    | .dmaError => (s.chan (.tiller T x.rec'.dmaCh)).err = 0x15
    | _ => false
  let s1 := s.modSq T r.sctx (fun q =>
    { q with faultStep := n, faultCause := faultCause f, faultCore := (faultCore f).getD 0xF, faultSpare := false })
  if q.st ≠ .running ∧ q.st ≠ .stopped then s1.log (faultEntry T f n 0xA false false false)
  else if x.rec'.cls = 0 then (((s1.log (faultEntry T f n 9 false false lossy)).abortSq T r.sctx 4)).spareDamage T f false
  else if 3 ≤ x.faults then (((s1.log (faultEntry T f n 9 false false lossy)).abortSq T r.sctx 3)).spareDamage T f true
  else
    let spare := match faultCore f with | some c => s.wantsSpare T x c | none => false
    let mis := match f with | .dupMismatch => 1 | _ => 0
    let restored := match f with | .uncorrectable a => s1.restoreGranule a | _ => (s1, false)
    let s2 := restored.1.log (faultEntry T f n (if spare then 4 else if restored.2 then 5 else 3) true spare false)
    let s3 := (s2.unlaunch r x).modStep r (fun y =>
      { y with replayDue := true, killed := x.live, faults := y.faults + 1, mismatches := y.mismatches + mis, testDue := mis = 1 && 1 ≤ y.mismatches,
               blamed := match faultCore f with | some c => s.physOf T c :: y.blamed | none => y.blamed,
               spareFor := if spare then faultCore f else none })
    let s4 := match spare, faultCore f with | true, some c => s3.startTakeover T c | _, _ => s3
    s4.spareDamage T f false

/-- The steps in flight of a context that a fault is attributed to (R280): those of a report that names a step, else
those with a thread on the core. -/
def State.attributed (s : State) (T k : Nat) (f : StepFault) (named : Option StepRef) : List Step :=
  match named with
  | some r => (s.stepAt r).toList
  | none => match faultCore f with
    | some c => (s.sq T k).steps.filter (fun x => x.live.any (fun t => t.unit = T * 16 + c))
    | none => (s.sq T k).steps.take 1

/-- The report that a fault command acts on: one of this fault that names a step of the context or none. -/
def State.findReport (s : State) (T k : Nat) (f : StepFault) : Option (Nat × StepFault × Option StepRef) :=
  s.faultReports.find? (fun p => p.1 = T && p.2.1 = f && match p.2.2 with | some r => r.sctx = k | none => true)

/-- STEP_FAULT (R280, R281): a fault reaches the sequencer; one that no step in flight is attributed to is logged. -/
def execStepFault (tiller k : Nat) (f : StepFault) (s : State) : Out :=
  onUnit (tiller < 64 && k < 8 && (match f with | .sentinel c | .coreFault c => c / 16 = tiller | _ => true)) "schedule context" <|
    if !s.up then s
    else
      let rep := s.findReport tiller k f
      let named := match rep with | some p => p.2.2 | none => none
      let xs := s.attributed tiller k f named
      let s1 := if xs.isEmpty then s.log (faultEntry tiller f 0 0xA false false false)
        else forAll xs s (fun s x => s.stepFault ⟨tiller, k, x.serial⟩ x f)
      match rep with
      | none => s1
      | some p =>
        let more := p.2.2.isNone && (List.range 8).any (fun j => !(s1.attributed tiller j f none).isEmpty && (faultCore f).isSome)
        if more then s1 else { s1 with faultReports := s1.faultReports.erase p }

/-- Whether everything a killed step had in flight is over (R281 step 3). -/
def State.replayQuiet (s : State) (T : Nat) (x : Step) : Bool :=
  !(s.reqs.any (fun q => q.dead && x.killed.contains q.src && !q.isLoad))
    && !(x.killed.any (fun t => match (s.core t.unit).mmaArray with | some m => m.ctx = t.ctx && m.dead | none => false))
    && !(x.rec'.dma && (s.chan (.tiller T x.rec'.dmaCh)).st ≠ .idle)
    && (match x.spareFor with | some c => (s.tiller T).takeover != some c | none => true)

/-- STEP_REPLAY_ISSUE (R281 steps 3 to 6, R282): the oldest step due issues its record again, with the same ITER, halves,
chain and arguments. -/
def execStepReplayIssue (tiller k : Nat) (s : State) : Out :=
  onUnit (tiller < 64 && k < 8) "schedule context" <|
    match (s.sq tiller k).steps.find? Step.replayDue with
    | none => s
    | some x =>
      if !s.sqOn tiller || x.testDue || !s.replayQuiet tiller x then s
      else
        let r : StepRef := ⟨tiller, k, x.serial⟩
        let s1 := if x.rec'.dma then s.modChan (.tiller tiller x.rec'.dmaCh) (fun c => { c with en := true }) else s
        let s2 := s1.zeroLocal tiller k x.rec'
        let spare := match x.spareFor with | some c => (s.tiller tiller).spareServes = some c | none => false
        let y : Step := { x with replayDue := false, killed := [], forksLeft := x.rec'.forks, dmaDone := !x.rec'.dma, spareFor := none,
                                 replayed := true, flushes := 0, blkufs := 0 }
        let s3 := (s2.modStep r (fun _ => y)).modSq tiller k (fun q => { q with replays := satAdd 8 q.replays 1, faultSpare := q.faultSpare || spare })
        match s3.launch r y with
        | (s4, true) => s4.count (tillerNode tiller) 8 (qualOr k) 1
        | (s4, false) => (s4.modSq tiller k (fun q => { q with steps := q.steps.filter (fun z => z.serial ≠ x.serial) })).abortSq tiller k 8

/-- DUP_SELFTEST (R410): the self-test of a mismatching pair's cores ends; a core that fails it has a CORE_FAULT, and R282
decides on the spare. -/
def execDupSelftest (tiller k : Nat) (failed : List Nat) (s : State) : Out :=
  onUnit (tiller < 64 && k < 8 && failed.all (· < 16)) "schedule context" <|
    match (if s.up then (s.sq tiller k).steps.find? (fun x => x.replayDue && x.testDue) else none) with
    | none => s
    | some x =>
      let r : StepRef := ⟨tiller, k, x.serial⟩
      let s1 := s.modStep r (fun y => { y with testDue := false })
      forAll failed s1 (fun s c =>
        match s.stepAt r with
        | none => s
        | some y =>
          let spare := s.wantsSpare tiller y c
          let s2 := (s.modSq tiller k (fun q => { q with faultStep := x.rec'.stepId, faultCause := 2, faultCore := c })).log
            (faultEntry tiller (.coreFault c) x.rec'.stepId (if spare then 4 else 3) true spare false)
          let s3 := s2.modStep r (fun y => { y with blamed := s.physOf tiller c :: y.blamed, spareFor := if spare then some c else y.spareFor })
          if spare then s3.startTakeover tiller c else s3)

end Sys2Proof.Machine
end

