-- ==== Sys2Proof/Machine/Clocks.lean ====
section
/-! DEFINITION. Clocks, slowing and parking of the halves, the Rachis, mesh frames and mesh channels (chapter 1, R402). -/

namespace Sys2Proof.Machine

/-! ## Clocks in force (R38, R44) -/

/-- The clocks a half is to run at: the lower of target and governor's limit (R38). -/
def State.wantCore (s : State) (h : Half) : Nat := min (s.half h).coreT s.power.coreLimit
def State.wantMesh (s : State) (h : Half) : Nat := min (s.half h).meshT s.power.meshLimit

/-- RUNNING where both clocks run at their maxima, else SLOWED (Table 14 of chapter 1). -/
def clockState (core mesh : Nat) : HalfState := if core = 27 ∧ mesh = 24 then .running else .slowed

/-- Tells Holrid of a changed `HALF_STATE` by source 49 (R389). -/
def State.tellHalf (old : HalfRec) (h : Half) (s : State) : State :=
  let x := s.half h
  if x.st = old.st ∧ x.coreF = old.coreF ∧ x.meshF = old.meshF then s else s.pulseXint 49

/-- Changes the clocks of a half that runs: what is to be lowered is lowered, a raise waits for the supply (R38). -/
def State.applyClocks (s : State) (h : Half) : State :=
  if s.blocked h then s
  else
    let old := s.half h
    (s.modHalf h (fun x =>
      let c := min x.coreF (s.wantCore h)
      let m := min x.meshF (s.wantMesh h)
      { x with coreF := c, meshF := m, raising := decide (c < s.wantCore h) || decide (m < s.wantMesh h), st := clockState c m })).tellHalf old h

/-- Records targets for a half and applies them (R38, R44). -/
def State.setTargets (s : State) (h : Half) (core mesh : Nat) : State :=
  (s.modHalf h (fun x => { x with coreT := core, meshT := mesh })).applyClocks h

/-- Whether clock targets lie in the `HALF_REQ` ranges (Table 15 of chapter 1). -/
def targetsOk (core mesh : Nat) : Bool := 6 ≤ core && core ≤ 0x1B && 6 ≤ mesh && mesh ≤ 0x18

/-! ## Park requests (R40) -/

/-- Whether a Stolon port is open: enabled, or its link is not yet gone (R40). -/
def Port.isOpen (x : Port) : Bool := x.en || x.st = .up || x.st = .training || x.st = .handover

/-- The other half. -/
def otherHalf (h : Half) : Half := match h with | .west => .east | .east => .west

/-- Why a park request is refused, 0 if it is not (R40). -/
def State.parkRefusal (s : State) (h : Half) : Nat :=
  let half := fun (n : Nat) => nodeHalf n = h
  if !s.parkEn then 1
  else if s.blocked (otherHalf h) then 6
  else if (List.range 64).any (fun T => half (tillerNode T) && match s.regionOf T with
      | some r => (s.region r).st != .quiescent && (s.region r).st != .undefined
      | none => false) then 2
  else if (List.range 4).any (fun i => half (culmNodeNode i) && (s.culmNode i).st ≠ 2) then 3
  else if (List.range 32).any (fun p => half (portNodeNode p) && (s.port p).isOpen) then 4
  else if (h = .east ∧ ((s.ethPort 0).en ∨ (s.ethPort 1).en)) ∨ (h = .west ∧ s.pcie.en) then 7
  else 0

/-- The Keeper takes up a park request: refused with its code, or the Rachis closes into the half (R40). -/
def State.parkGo (s : State) (h : Half) : State :=
  let c := s.parkRefusal h
  if c ≠ 0 then { s with lastRefusal := c, halfBusy := false }
  else (s.modHalf h (fun x => { x with st := .parking, raising := false })).pulseXint 49

/-- The half a `HALF_REQ` value names. -/
def reqHalf (w : Word) : Half := if bit w 2 then .east else .west

/-- A park request that waited for the loader or a withdrawal is taken up (R81). -/
def State.keeperFree (s : State) : State :=
  let h := reqHalf s.halfReq
  if s.halfBusy ∧ field s.halfReq 0 2 = 1 ∧ !s.blocked h ∧ !s.loader.busy ∧ s.rel.wdr = .none then s.parkGo h else s

/-- A write of `HALF_REQ` at level 1, over the mesh or the Keeper bus (R40, R42, R44, Table 15 of chapter 1). -/
def State.writeHalfReq (s : State) (w : Word) : State :=
  if s.halfBusy then s
  else
    let h := reqHalf w
    let s1 := { s with halfReq := word (field w 0 3 + field w 8 16 * 256) }
    match field w 0 2 with
    | 1 => if (s.half h).st = .parked then s1 else ({ s1 with halfBusy := true } : State).keeperFree
    | 2 =>
      if (s.half h).st = .parked then ({ s1 with halfBusy := true } : State).unparkStart h |>.pulseXint 49
      else s1
    | 3 =>
      if !targetsOk (field w 8 8) (field w 16 8) then { s1 with lastRefusal := 8 }
      else
        let s2 := s1.setTargets h (field w 8 8) (field w 16 8)
        { s2 with halfBusy := (s2.half h).raising }
    | _ => s1

/-- A word of `HALF_REQ` with an operation for a half; the clock fields as last written. -/
def State.halfWord (s : State) (op : Nat) (h : Half) : Word :=
  word (op + (match h with | .west => 0 | .east => 4) + field s.halfReq 8 16 * 256)

/-- HALF_PARK (R40). -/
def execHalfPark (h : Half) (s : State) : Out := .next (if s.up then s.writeHalfReq (s.halfWord 1 h) else s)

/-- HALF_UNPARK (R42, R44). -/
def execHalfUnpark (h : Half) (s : State) : Out := .next (if s.up then s.writeHalfReq (s.halfWord 2 h) else s)

/-- HALF_SETCLK (R38, R44). -/
def execHalfSetclk (h : Half) (coreF meshF : BitVec 8) (s : State) : Out :=
  .next (if s.up then s.writeHalfReq (word (3 + (match h with | .west => 0 | .east => 4) + coreF.toNat * 256 + meshF.toNat * 2 ^ 16)) else s)

/-- CLOCK_RAISE_SUPPLY_READY (R38): a raise that waited for the supply takes effect. -/
def execClockRaiseSupplyReady (h : Half) (s : State) : Out :=
  .next <|
    let old := s.half h
    if !s.up ∨ s.blocked h ∨ !old.raising then s
    else
      let s1 := (s.modHalf h (fun x =>
        { x with coreF := s.wantCore h, meshF := s.wantMesh h, raising := false, st := clockState (s.wantCore h) (s.wantMesh h) })).tellHalf old h
      if s1.halfBusy ∧ field s1.halfReq 0 2 = 3 ∧ reqHalf s1.halfReq = h then { s1 with halfBusy := false } else s1

/-! ## Parking and unparking (R40 to R44, Tables 11 and 12 of chapter 1) -/

/-- The HBM stacks of a half. -/
def halfStacks (h : Half) : List Nat := (List.range 12).filter (fun i => nodeHalf (stackNode i) = h)

/-- Whether an access of another half is still outstanding in a half, or a row repair of its stacks in progress (R322,
Table 11 of chapter 1). -/
def State.draining (s : State) (h : Half) : Bool :=
  s.reqs.any (fun r => r.resp.isNone && r.session.isNone && tidHalf r.src != h && match s.destNode r.addr.toNat with
    | some n => nodeHalf n = h
    | none => false)
  || (halfStacks h).any (fun i => (s.stack i).repairing)

/-- PARK_DRAIN_DONE (R40, R322): the half's stacks enter self-refresh and its clocks stop. -/
def execParkDrainDone (h : Half) (s : State) : Out :=
  .next <|
    if !s.up ∨ (s.half h).st ≠ .parking ∨ s.draining h then s
    else
      let s1 := forAll (halfStacks h) s (fun s i => s.modStack i (fun x => if x.st = 2 then { x with st := 3 } else x))
      (({ s1 with halfBusy := false } : State).modHalf h (fun x => { x with st := .parked })).pulseXint 49

/-- PARK_DRAIN_TIMEOUT (R40): the Rachis reopens. -/
def execParkDrainTimeout (h : Half) (s : State) : Out :=
  .next <|
    if !s.up ∨ (s.half h).st ≠ .parking then s
    else
      let s1 := (s.modHalf h (fun x => { x with st := clockState x.coreF x.meshF })).applyClocks h
      ({ s1 with halfBusy := false, lastRefusal := 5 } : State).pulseXint 49

/-- The nodes of a half. -/
def halfNodes (h : Half) : List Nat := (List.range 100).filter (fun n => nodeHalf n = h)

/-- A router whose half's mesh clock starts: buckets full, the count of mesh cycles at zero (R29, R31). -/
def Node.started (n : Node) : Node := { n with tokens0 := n.burst, tokens1 := n.burst, admitted0 := 0, admitted1 := 0, tokenNo := 0 }

/-- UNPARK_PLL_LOCKED (R42, R44, R48): PLLs lock at the targets recorded last, clocks start, the half's copy of `TB`
resynchronises, its stacks leave self-refresh. -/
def execUnparkPllLocked (h : Half) (s : State) : Out :=
  .next <|
    if !s.up ∨ (s.half h).st ≠ .unparking ∨ (s.half h).locked then s
    else
      let s1 := s.modHalf h (fun x => { x with locked := true, coreF := s.wantCore h, meshF := s.wantMesh h, meshCycle := 0 })
      let s2 := forAll (halfNodes h) s1 (fun s n => s.modNode n Node.started)
      let s3 := forAll (halfStacks h) s2 (fun s i => s.modStack i (fun x => if x.st = 3 then { x with st := 2 } else x))
      s3.modTime (fun t => { t with resync := sput 0 t.resync (match h with | .west => 0 | .east => 1) 1 })

/-- The unpark increment in every tiller (R43). -/
def State.unparkIncrements (s : State) : State :=
  let d := s.loader.device
  if d.unparkEv then forAll (List.range 64) s (fun s T => (s.injectC0 0 (tillerNode T) (.inc d.unparkEvc 1)).1) else s

/-- UNPARK_DONE (R43): the Rachis reopens, the half is RUNNING or SLOWED, and the unpark increments leave. -/
def execUnparkDone (h : Half) (s : State) : Out :=
  .next <|
    if !s.up ∨ (s.half h).st ≠ .unparking ∨ !(s.half h).locked then s
    else
      let s1 := (s.modHalf h (fun x => { x with st := clockState x.coreF x.meshF, locked := false })).applyClocks h
      let s2 := if field s1.halfReq 0 2 = 2 ∧ reqHalf s1.halfReq = h then { s1 with halfBusy := false } else s1
      s2.unparkIncrements.pulseXint 49

/-- RACHIS_PARKED_ANSWER (R41): the running side of a row answers traffic into half `h` at once. A class-0 flit here is
one that no other command sends. -/
def execRachisParkedAnswer (h : Half) (row : Nat) (cls : TClass) (req : Option Nat) (s : State) : Out :=
  onUnit (row < 10) "Rachis row" <|
    let n := row * 10 + (match h with | .west => 5 | .east => 4)
    if !s.up ∨ !s.blocked h then s
    else match cls with
      | .control => s.modNode n (fun x => { x with c0drop := satAdd 32 x.c0drop 1 })
      | .response => s
      | _ =>
        let s1 := s.modNode n (fun x => { x with parkedAns := satAdd 32 x.parkedAns 1 })
        match req.bind (fun i => s1.reqs.find? (fun r => r.id = i)) with
        | some r =>
          if r.resp.isNone && r.session.isNone && (match s1.destNode r.addr.toNat with | some d => nodeHalf d = h | none => false) then
            s1.respond r.id dParked r.addr
          else s1
        | none => s1

/-! ## Slots, frames and buckets (R29 to R31) -/

/-- MESH_SLOT_WRITE (R30): a level-0 write of the link slot table. -/
def execMeshSlotWrite (node : Nat) (w : Word) (s : State) : Out :=
  onUnit (node < 100) "node" <|
    if !s.up ∨ s.blocked (nodeHalf node) then s
    else s.modNode node (fun n => let f := slotFixed w; { n with slot := f.1, slotfix := n.slotfix || f.2 })

/-- MESH_FRAME_START (R29, R31): the next frame of a half begins; waiting class-0 flits go as their buckets admit. -/
def execMeshFrameStart (h : Half) (s : State) : Out :=
  .next <|
    if !s.up ∨ !s.clockOn h then s
    else
      let s1 := s.modHalf h (fun x => { x with meshCycle := x.meshCycle + 32 })
      let s2 := forAll (halfNodes h) s1 (fun s n => s.modNode n (fun x => { x with admitted0 := 0, admitted1 := 0, tokenNo := 0 }))
      forAll (halfNodes h) s2 (fun s n => s.releaseC0 n (s.node n).waiting.length)

/-- C0_TOKEN_ADD (R31): the next of the frame's C0_ALLOT tokens of a node reaches both buckets. -/
def execC0TokenAdd (node : Nat) (s : State) : Out :=
  onUnit (node < 100) "node" <|
    let n := s.node node
    if !s.up ∨ !s.clockOn (nodeHalf node) ∨ n.allot ≤ n.tokenNo then s
    else
      let s1 := s.modNode node (fun n =>
        { n with tokenNo := n.tokenNo + 1, tokens0 := min (n.tokens0 + 1) n.burst, tokens1 := min (n.tokens1 + 1) n.burst })
      s1.releaseC0 node (s1.node node).waiting.length

/-! ## Mesh channels (R402) -/

/-- The code of a direction (Table 3 of chapter 1). -/
def dirCode (d : Dir) : Nat := match d with | .north => 0 | .east => 1 | .south => 2 | .west => 3

/-- MESH_FLIT_RECEIVE (R402): the neighbour receives a flit of output channel `out` of node `node` on a plane. -/
def execMeshFlitReceive (node : Nat) (out : Dir) (plane : Nat) (cls : TClass) (err : FlitErr) (s : State) : Out :=
  onUnit (node < 100 && plane < 2 && (neighbour node (dirCode out)).isSome) "mesh channel" <|
    let ch := dirCode out + 4 * plane
    let entry := fun (cause action : Nat) (masked : Bool) => report 5 cause action masked node ch 0
    let clear := s.modNode node (fun n => { n with c0Again := ndel ch n.c0Again })
    if !s.up ∨ !s.clockOn (nodeHalf node) then s
    else match err with
      | .none => clear
      | .single => clear.log (entry 1 1 true)
      | .other =>
        let times := ((sget [] (s.node node).retries ch).filter (fun t => s.time.tb < t + 1000)) ++ [s.time.tb]
        let late := cls = .control && (s.node node).c0Again.contains ch
        let s1 := (s.modNode node (fun n =>
          { n with retries := sput [] n.retries ch times, c0Again := if cls = .control then nins ch n.c0Again else ndel ch n.c0Again })).log (entry 1 1 true)
        let s2 := if late then s1.log (entry 2 0xA false) else s1
        if 16 ≤ times.length then (s2.log (entry 3 (if s.loader.rel.any (·.withdrawEn) then 8 else 0xA) false)).damage 5 else s2

end Sys2Proof.Machine
end

