-- ==== Sys2Proof/Machine/Crypto.lean ====
section
/-! DEFINITION. SHA-256 (FIPS 180-4) and RSASSA-PSS verification with MGF1 and a 32-byte salt (RFC 8017), which R71, R475
and R481 name. -/

namespace Sys2Proof.Machine

/-! ## SHA-256 -/

/-- The 64 round constants. -/
def shaK : List (BitVec 32) :=
  [0x428a2f98, 0x71374491, 0xb5c0fbcf, 0xe9b5dba5, 0x3956c25b, 0x59f111f1, 0x923f82a4, 0xab1c5ed5, 0xd807aa98, 0x12835b01,
   0x243185be, 0x550c7dc3, 0x72be5d74, 0x80deb1fe, 0x9bdc06a7, 0xc19bf174, 0xe49b69c1, 0xefbe4786, 0x0fc19dc6, 0x240ca1cc,
   0x2de92c6f, 0x4a7484aa, 0x5cb0a9dc, 0x76f988da, 0x983e5152, 0xa831c66d, 0xb00327c8, 0xbf597fc7, 0xc6e00bf3, 0xd5a79147,
   0x06ca6351, 0x14292967, 0x27b70a85, 0x2e1b2138, 0x4d2c6dfc, 0x53380d13, 0x650a7354, 0x766a0abb, 0x81c2c92e, 0x92722c85,
   0xa2bfe8a1, 0xa81a664b, 0xc24b8b70, 0xc76c51a3, 0xd192e819, 0xd6990624, 0xf40e3585, 0x106aa070, 0x19a4c116, 0x1e376c08,
   0x2748774c, 0x34b0bcb5, 0x391c0cb3, 0x4ed8aa4a, 0x5b9cca4f, 0x682e6ff3, 0x748f82ee, 0x78a5636f, 0x84c87814, 0x8cc70208,
   0x90befffa, 0xa4506ceb, 0xbef9a3f7, 0xc67178f2]

/-- The eight working words. -/
structure Sha where
  a : BitVec 32
  b : BitVec 32
  c : BitVec 32
  d : BitVec 32
  e : BitVec 32
  f : BitVec 32
  g : BitVec 32
  h : BitVec 32

/-- The initial hash value. -/
def shaInit : Sha :=
  ⟨0x6a09e667, 0xbb67ae85, 0x3c6ef372, 0xa54ff53a, 0x510e527f, 0x9b05688c, 0x1f83d9ab, 0x5be0cd19⟩

/-- One round with constant `k` and schedule word `w`. -/
def shaRound (r : Sha) (k w : BitVec 32) : Sha :=
  let s1 := r.e.rotateRight 6 ^^^ r.e.rotateRight 11 ^^^ r.e.rotateRight 25
  let ch := (r.e &&& r.f) ^^^ (~~~r.e &&& r.g)
  let t1 := r.h + s1 + ch + k + w
  let s0 := r.a.rotateRight 2 ^^^ r.a.rotateRight 13 ^^^ r.a.rotateRight 22
  let maj := (r.a &&& r.b) ^^^ (r.a &&& r.c) ^^^ (r.b &&& r.c)
  ⟨t1 + (s0 + maj), r.a, r.b, r.c, r.d + t1, r.e, r.f, r.g⟩

/-- The rounds over a window of sixteen schedule words. -/
def shaRounds : List (BitVec 32) → List (BitVec 32) → Sha → Sha
  | k :: ks, w :: ws, r =>
    let w1 := ws.getD 0 0
    let w14 := ws.getD 13 0
    let s0 := w1.rotateRight 7 ^^^ w1.rotateRight 18 ^^^ (w1 >>> 3)
    let s1 := w14.rotateRight 17 ^^^ w14.rotateRight 19 ^^^ (w14 >>> 10)
    shaRounds ks (ws ++ [s1 + ws.getD 8 0 + s0 + w]) (shaRound r k w)
  | _, _, r => r

/-- A big-endian number, and its `n` big-endian bytes. -/
def beNat (l : List Byte) : Nat := l.foldl (fun m b => m * 256 + b.toNat) 0
def beBytes (n w : Nat) : List Byte := (leBytes n w).reverse

/-- One block of 64 bytes. -/
def shaBlock (r : Sha) (l : List Byte) : Sha :=
  let ws := (List.range 16).map (fun i => bv 32 (beNat ((l.drop (4 * i)).take 4)))
  let x := shaRounds shaK ws r
  ⟨r.a + x.a, r.b + x.b, r.c + x.c, r.d + x.d, r.e + x.e, r.f + x.f, r.g + x.g, r.h + x.h⟩

/-- `n` blocks. -/
def shaBlocks : (n : Nat) → List Byte → Sha → Sha
  | 0, _, r => r
  | n + 1, l, r => shaBlocks n (l.drop 64) (shaBlock r (l.take 64))

/-- The SHA-256 digest of a list of bytes. -/
def sha256 (l : List Byte) : List Byte :=
  let n := (l.length + 72) / 64
  let p := l ++ [0x80] ++ List.replicate (64 * n - l.length - 9) 0 ++ beBytes 8 (8 * l.length)
  let r := shaBlocks n p shaInit
  [r.a, r.b, r.c, r.d, r.e, r.f, r.g, r.h].flatMap (fun x => beBytes 4 x.toNat)

/-! ## RSASSA-PSS -/

/-- `b` to the power of the low `n` bits of `e`, modulo `m`. -/
def powMod (m : Nat) : (n : Nat) → (b e : Nat) → Nat
  | 0, _, _ => 1 % m
  | n + 1, b, e => if e % 2 = 1 then b % m * powMod m n (b * b % m) (e / 2) % m else powMod m n (b * b % m) (e / 2)

/-- MGF1 with SHA-256: `n` blocks of mask from block `i` on. -/
def mgf1 (seed : List Byte) : (n i : Nat) → List Byte
  | 0, _ => []
  | n + 1, i => sha256 (seed ++ beBytes 4 i) ++ mgf1 seed n (i + 1)

/-- EMSA-PSS verification (RFC 8017, 9.1.2) of a message digest, with a 32-byte salt. -/
def pssOk (digest em : List Byte) (emBits : Nat) : Bool :=
  let n := em.length
  let top := 8 * n - emBits
  let masked := em.take (n - 33)
  let h := (em.drop (n - 33)).take 32
  let mask := (mgf1 h ((n + 31) / 32) 0).take (n - 33)
  let db := match masked.zipWith (· ^^^ ·) mask with | b :: l => (bv 8 (b.toNat % 2 ^ (8 - top))) :: l | [] => []
  66 ≤ n && em.getLast? = some 0xbc && decide ((em.headD 0).toNat < 2 ^ (8 - top))
    && (db.take (n - 66)).all (· = 0) && db.getD (n - 66) 0 = 1
    && sha256 (List.replicate 8 0 ++ digest ++ db.drop (n - 65)) = h

/-- RSASSA-PSS verification (RFC 8017, 8.1.2) with a big-endian modulus and exponent (R71). -/
def rsaPssOk (modulus exponent msg sig : List Byte) : Bool :=
  let m := beNat modulus
  let x := beNat sig
  let bits := Nat.log2 m
  decide (x < m) && pssOk (sha256 msg) (beBytes ((bits + 7) / 8) (powMod m 32 x (beNat exponent))) bits

end Sys2Proof.Machine
end

