-- ==== Sys2Proof/Machine/Scalar.lean ====
section
/-! DEFINITION. Scalar instructions: arithmetic, loads and stores, control flow, fences, gates and returns (chapters 3
and 4). -/

namespace Sys2Proof.Machine

/-! ## Arithmetic (R95 to R98) -/

/-- 1 or 0. -/
def flagWord (b : Bool) : Word := if b then 1 else 0

/-- Reverses the eight bytes of a word. -/
def bswap (w : Word) : Word := word ((List.range 8).foldl (fun r i => r + field w (8 * i) 8 * 2 ^ (56 - 8 * i)) 0)

/-- Leading zeros, trailing zeros and set bits of a word; 64, 64 and 0 for zero. -/
def clz (w : Word) : Nat := if w = 0 then 64 else 63 - Nat.log2 w.toNat
def ctz (w : Word) : Nat := ((List.range 64).find? (fun i => bit w i)).getD 64
def popc (w : Word) : Nat := ((List.range 64).filter (fun i => bit w i)).length

/-- rd ← a op b; `d` is rd's old value, which CSEL reads (Tables 6 and 9 of chapter 3). -/
def aluOp (op : AluOp) (d a b : Word) : Word :=
  let sh := b.toNat % 64
  match op with
  | .add => a + b
  | .sub => a - b
  | .and => a &&& b
  | .or => a ||| b
  | .xor => a ^^^ b
  | .andn => a &&& ~~~b
  | .sll => a <<< sh
  | .srl => a >>> sh
  | .sra => a.sshiftRight sh
  | .ror => a.rotateRight sh
  | .seq => flagWord (a == b)
  | .sne => flagWord (a != b)
  | .slt => flagWord (a.slt b)
  | .sltu => flagWord (a.ult b)
  | .min => if a.slt b then a else b
  | .max => if a.slt b then b else a
  | .minu => if a.ult b then a else b
  | .maxu => if a.ult b then b else a
  | .clz => word (clz a)
  | .ctz => word (ctz a)
  | .popc => word (popc a)
  | .bswap => bswap a
  | .csel => if d = 0 then b else a
  | .addw => ((a + b).truncate 32).signExtend 64
  | .subw => ((a - b).truncate 32).signExtend 64
  | .mov => b
  | .neg => 0 - b
  | .not => ~~~b
  | .zxw => word (b.toNat % 2 ^ 32)

/-- The result of an immediate operation (majors 0x02 to 0x07). -/
def immOp (op : ImmOp) (a i : Word) : Word :=
  match op with
  | .addi => a + i
  | .andi => a &&& i
  | .ori => a ||| i
  | .xori => a ^^^ i
  | .slti => flagWord (a.slt i)
  | .sltiu => flagWord (a.ult i)

/-- The result of SHI. -/
def shiftOp (op : ShiftOp) (a : Word) (n : Nat) : Word :=
  match op with
  | .sll => a <<< n
  | .srl => a >>> n
  | .sra => a.sshiftRight n
  | .ror => a.rotateRight n

/-- The result of a MULDIV function; division never traps (R98). -/
def mulDivOp (op : MulDivOp) (a b : Word) : Word :=
  match op with
  | .mul => a * b
  | .mulh => BitVec.ofInt 64 (a.toInt * b.toInt / 2 ^ 64)
  | .mulhu => word (a.toNat * b.toNat / 2 ^ 64)
  | .mulhsu => BitVec.ofInt 64 (a.toInt * (b.toNat : Int) / 2 ^ 64)
  | .div => if b = 0 then -1 else BitVec.ofInt 64 (a.toInt.tdiv b.toInt)
  | .divu => if b = 0 then -1 else word (a.toNat / b.toNat)
  | .rem => if b = 0 then a else BitVec.ofInt 64 (a.toInt.tmod b.toInt)
  | .remu => if b = 0 then a else word (a.toNat % b.toNat)

/-- The general register a short form's four-bit field names. -/
def shortReg (r : BitVec 4) : Reg := r.zeroExtend 5

/-- SHORT_ALU (R95). -/
def execShortAlu (t : Tid) (op : ShortAlu) (s : State) : Out :=
  s.issue t 2 (fun s =>
    let set := fun (rd : BitVec 4) (v : Word) => (s.setReg t (shortReg rd) v).advance t 2
    let r := fun (x : BitVec 4) => s.reg t (shortReg x)
    match op with
    | .rr op rd rs => set rd (aluOp op (r rd) (r rd) (r rs))
    | .addi rd i => set rd (r rd + i.signExtend 64)
    | .li rd i => set rd (i.signExtend 64)
    | .slli rd i => set rd (r rd <<< i.toNat)
    | .srli rd i => set rd (r rd >>> i.toNat)
    | .srai rd i => set rd ((r rd).sshiftRight i.toNat)
    | .andi rd i => set rd (r rd &&& i.signExtend 64))

/-- LONG_ALU (R97, R98). -/
def execLongAlu (t : Tid) (op : LongAlu) (s : State) : Out :=
  s.issue t 4 (fun s =>
    match op with
    | .rrr op rd ra rb => (s.setReg t rd (aluOp op (s.reg t rd) (s.reg t ra) (s.reg t rb))).advance t 4
    | .imm op rd ra i => (s.setReg t rd (immOp op (s.reg t ra) (i.signExtend 64))).advance t 4
    | .shi op rd ra n => (s.setReg t rd (shiftOp op (s.reg t ra) n.toNat)).advance t 4
    | .li rd i => (s.setReg t rd (i.signExtend 64)).advance t 4)

/-- MULDIV (R98). -/
def execMuldiv (t : Tid) (op : MulDivOp) (rd ra rb : Reg) (s : State) : Out :=
  s.issue t 4 (fun s => (s.setReg t rd (mulDivOp op (s.reg t ra) (s.reg t rb))).advance t 4)

/-- INS16 (R97): 16 bits of rd are replaced, the others kept. -/
def execIns16 (t : Tid) (rd : Reg) (k : BitVec 2) (imm : BitVec 16) (s : State) : Out :=
  s.issue t 4 (fun s => (s.setReg t rd (setField (s.reg t rd) (16 * k.toNat) 16 imm.toNat)).advance t 4)

/-- ADDSP (R95): sp moves by a multiple of 8, with no stack check. -/
def execAddsp (t : Tid) (imm : BitVec 10) (s : State) : Out :=
  s.issue t 2 (fun s => (s.setReg t 31 (s.sp t + imm.signExtend 64 * 8)).advance t 2)

/-- NOP (R95). -/
def execNop (t : Tid) (s : State) : Out := s.issue t 2 (fun s => s.advance t 2)

/-- ILLEGAL (R102, R103): a reserved encoding raises ILLEGAL precisely. -/
def execIllegal (t : Tid) (w : BitVec 32) (s : State) : Out :=
  s.issue t (if bit w 15 then 4 else 2) (fun s => s.illegal t)

/-! ## Loads and stores (R90, R95, R99) -/

/-- Bytes of an access size. -/
def sizeBytes (z : Size) : Nat := match z with | .b1 => 1 | .b2 => 2 | .b4 => 4 | .b8 => 8

/-- A loaded value, sign- or zero-extended (R99). -/
def extendLoad (z : Size) (signed : Bool) (v : Nat) : Word :=
  let n := 8 * sizeBytes z
  if signed then ((BitVec.ofNat n v).signExtend 64) else word (v % 2 ^ n)

/-- Moves the PC to a target: the fetch buffer is refilled (R84, R85). -/
def State.jumpTo (s : State) (t : Tid) (pc : Word) : State :=
  (s.advance t 0).modCtx t (fun c => { c with pc := pc, fetchBuf := [] })

/-! A Culm core's caches (R379 to R383). -/

/-- Whether a line is in core `k`'s L2. -/
def State.inL2 (s : State) (k l : Nat) : Bool := (s.line l).present && (s.line l).cores.contains k

/-- Whether a core's side buffer holds a line, or a fill for it is on its way (R382). -/
def State.inSide (s : State) (k l : Nat) : Bool := (s.culmCore k).side.contains l

/-- A demand access moves a side-buffer line into L2 (R382). -/
def State.sideToL2 (s : State) (k l : Nat) : State :=
  (s.modCulm k (fun c => { c with side := ndel l c.side })).setLine l
    (let x := s.line l; { x with cores := nins k x.cores })

/-- Makes a core's L2 the only holder of a line (R383). -/
def State.ownLine (s : State) (k l : Nat) : State :=
  (forAll (List.range 16) s (fun s j => s.modCulm j (fun c => { c with side := ndel l c.side }))).setLine l
    (let x := s.line l; { x with cores := [k], l3 := none, reuse := x.reuse && x.l3.isNone })

/-- A load ends with its data. -/
def State.loadWith (s : State) (t : Tid) (m : MemOp) (l : List Byte) : State :=
  (s.setReg t m.reg (extendLoad m.size m.signed (leNat l))).advance t (lenBytes m.len)

/-- The end of a local load: the register is written, or ACCESS_ERROR is raised with the register unchanged (R86). -/
def State.loadNow (s : State) (t : Tid) (m : MemOp) (a : Nat) : State :=
  match s.threadRead t a (sizeBytes m.size) with
  | .error (e, s1) => s1.fault t 0xC e (word a)
  | .ok (l, s1) => s1.loadWith t m l

/-- A Culm core's cached access: at once on an L2 or side-buffer hit, else it waits for the line (R381, R382). -/
def State.culmAccess (s : State) (t : Tid) (i : Instr) (a : Nat) (k : State → State) : State :=
  let n := t.unit - 1024
  let l := a / 64
  if s.inL2 n l then k s
  else if s.inSide n l then k (s.sideToL2 n l)
  else s.stall t (.cacheLine l) i

/-- A load whose checks have passed (R86, R90, R136): near stores answer at once, the others by LOAD_DATA_RETURN. -/
def State.loadGo (s : State) (t : Tid) (i : Instr) (n : Nat) (tg : Target) (now : State → Nat → State) : State :=
  match tg with
  | .reserved a => s.fault t 0xC dReserved a
  | .remote m sess off => (s.sendReq t (word (m * 2 ^ 44 + off)) (.load n) none (some (m, sess)) none true).stall t .data i
  | .at' a cached =>
    if t.unit < 1024 then (if isNear t a then now s a else s.stall t .data i)
    else if cached then s.culmAccess t i a (fun s => now s a)
    else s.stall t .data i

/-- LOAD (R90, R95, R99). An `LD` to g0 of a line on a Culm core that misses starts a prefetch and does not wait
(R382). -/
def execLoad (t : Tid) (m : MemOp) (s : State) : Out :=
  s.issue t (lenBytes m.len) (fun s =>
    let n := sizeBytes m.size
    s.withAccess t m.seg.toNat (s.reg t m.base + m.disp) n n false (fun s tg =>
      match tg with
      | .at' a true =>
        let k := t.unit - 1024
        if 1024 ≤ t.unit ∧ m.reg = 0 ∧ m.size = .b8 ∧ !s.inL2 k (a / 64) ∧ !s.inSide k (a / 64) then
          (s.modCulm k (fun c => { c with prefetch := nins (a / 64) c.prefetch })).advance t (lenBytes m.len)
        else s.loadGo t (.load t m) n tg (fun s a => s.loadNow t m a)
      | _ => s.loadGo t (.load t m) n tg (fun s a => s.loadNow t m a)))

/-- A store of bytes whose checks have passed: at once and precisely in the thread's own stores, into the line on a Culm
core, posted elsewhere (R86, R92, R383). -/
def State.storeGo (s : State) (t : Tid) (i : Instr) (d : List Byte) (tg : Target) (fin : State → State) : State :=
  match tg with
  | .at' a cached =>
    if t.unit < 1024 ∧ isOwn t a then
      let r := (s.performTo t (s.destNode a)).writeAs t a d
      match r.1 with
      | some e => (if e = dUncorrectable then r.2.noteUe a else r.2).fault t 0xC e (word a)
      | none => fin r.2
    else if 1024 ≤ t.unit ∧ cached then
      s.culmAccess t i a (fun s => fin ((s.ownLine (t.unit - 1024) (a / 64)).culmPoke a d))
    else s.post t i d.length tg (.store d) fin
  | _ => s.post t i d.length tg (.store d) fin

/-- STORE (R90, R92, R95, R99). -/
def execStore (t : Tid) (m : MemOp) (s : State) : Out :=
  s.issue t (lenBytes m.len) (fun s =>
    let n := sizeBytes m.size
    let off := s.reg t m.base + m.disp
    let d := leBytes n (s.reg t m.reg).toNat
    s.withAccess t m.seg.toNat off n n true (fun s tg =>
      s.storeGo t (.store t m) d tg (fun s => (s.foldStore t m.seg.toNat off d).advance t (lenBytes m.len))))

/-! ## Control flow (R88, R89, R95, R97) -/

/-- Whether a condition holds. -/
def condHolds (c : Cond) (a b : Word) : Bool :=
  match c with
  | .eq => a = b
  | .ne => a ≠ b
  | .lt => a.slt b
  | .ge => !a.slt b
  | .ltu => a.ult b
  | .geu => !a.ult b
  | .always => true

/-- BRANCH (R95, R97): taken, the PC moves from the branch's own address. -/
def execBranch (t : Tid) (b : BranchOp) (s : State) : Out :=
  s.issue t (lenBytes b.len) (fun s =>
    if condHolds b.cond (s.reg t b.ra) (s.reg t b.rb) then s.jumpTo t ((s.ctx t).pc + b.off)
    else s.advance t (lenBytes b.len))

/-- The stack check of a push: sp a multiple of 8, and sp − 8 to sp − 1 within SEG0, without wrap (R88). -/
def pushOk (sp bound : Word) : Bool := sp.toNat % 8 = 0 && 8 ≤ sp.toNat && sp.toNat ≤ bound.toNat
/-- The stack check of a pop: sp a multiple of 8, and sp to sp + 7 within SEG0 (R88). -/
def popOk (sp bound : Word) : Bool := sp.toNat % 8 = 0 && sp.toNat + 8 ≤ bound.toNat

/-- A push of `v` that passes its stack check, then `fin` (R88). -/
def State.push (s : State) (t : Tid) (i : Instr) (v : Word) (fin : State → State) : State :=
  let sp := s.sp t
  if !pushOk sp (s.ctx t).segs.s0.bound then s.fault t 0xA 0 sp
  else s.withAccess t 0 (sp - 8) 8 8 true (fun s tg =>
    s.storeGo t i (leBytes 8 v.toNat) tg (fun s => fin ((s.foldStore t 0 (sp - 8) (leBytes 8 v.toNat)).setReg t 31 (sp - 8))))

/-- CALL and CALLR (R88, R89, R95, R97): CALLR checks its target first; the next instruction's address is pushed. -/
def execCall (t : Tid) (c : CallOp) (s : State) : Out :=
  let len := match c with | .rel l _ => lenBytes l | .reg l _ => lenBytes l
  s.issue t len (fun s =>
    let pc := (s.ctx t).pc
    let target := match c with | .rel _ off => pc + off | .reg _ rs => s.reg t rs
    match c with
    | .reg _ _ => if bit target 0 then s.fault t 8 0 target else s.push t (.call t c) (pc + word len) (fun s => s.jumpTo t target)
    | .rel _ _ => s.push t (.call t c) (pc + word len) (fun s => s.jumpTo t target))

/-- JR (R89): an odd target raises ALIGN. -/
def execJr (t : Tid) (len : Len) (rs : Reg) (s : State) : Out :=
  s.issue t (lenBytes len) (fun s =>
    if bit (s.reg t rs) 0 then s.fault t 8 0 (s.reg t rs) else s.jumpTo t (s.reg t rs))

/-- RET ends with its target: an odd one raises ALIGN with sp unchanged (R89). -/
def State.retWith (s : State) (t : Tid) (l : List Byte) : State :=
  let v := word (leNat l)
  if bit v 0 then s.fault t 8 0 v else (s.setReg t 31 (s.sp t + 8)).jumpTo t v

/-- The end of RET's load. -/
def State.retNow (s : State) (t : Tid) (a : Nat) : State :=
  match s.threadRead t a 8 with
  | .error (e, s1) => s1.fault t 0xC e (word a)
  | .ok (l, s1) => s1.retWith t l

/-- POP ends with its data (R88). -/
def State.popWith (s : State) (t : Tid) (rd : Reg) (l : List Byte) : State :=
  ((s.setReg t 31 (s.sp t + 8)).setReg t rd (word (leNat l))).advance t 2

/-- The end of POP's load (R88). -/
def State.popNow (s : State) (t : Tid) (rd : Reg) (a : Nat) : State :=
  match s.threadRead t a 8 with
  | .error (e, s1) => s1.fault t 0xC e (word a)
  | .ok (l, s1) => s1.popWith t rd l

/-- A pop: the stack check, then the load (R88). -/
def State.pop (s : State) (t : Tid) (i : Instr) (now : State → Nat → State) : State :=
  let sp := s.sp t
  if !popOk sp (s.ctx t).segs.s0.bound then s.fault t 0xA 0 sp
  else s.withAccess t 0 sp 8 8 false (fun s tg => s.loadGo t i 8 tg now)

/-- RET (R88, R89). -/
def execRet (t : Tid) (len : Len) (s : State) : Out :=
  s.issue t (lenBytes len) (fun s => s.pop t (.ret t len) (fun s a => s.retNow t a))

/-- PUSH (R88). -/
def execPush (t : Tid) (rs : Reg) (s : State) : Out :=
  s.issue t 2 (fun s => s.push t (.push t rs) (s.reg t rs) (fun s => s.advance t 2))

/-- POP (R88). -/
def execPop (t : Tid) (rd : Reg) (s : State) : Out :=
  s.issue t 2 (fun s => s.pop t (.pop t rd) (fun s a => s.popNow t rd a))

/-! ## Fences (R54, R100) -/

/-- Whether an access falls under a fence: 0 the thread's own stores, 1 its tiller's stores, 2 anything (Table 19 of
chapter 1); on Culm cores every fence is FENCE.G (R383). -/
def fenceCovers (t : Tid) (scope : Nat) (r : Req) : Bool :=
  if scope = 2 ∨ 1024 ≤ t.unit ∨ r.session.isSome then scope = 2 || decide (1024 ≤ t.unit)
  else match locOf r.addr.toNat with
    | .clm c _ => c = t.unit || (scope = 1 && c / 16 = tidTiller t)
    | .eb c _ => c = t.unit || (scope = 1 && c / 16 = tidTiller t)
    | .tm k _ => scope = 1 && k = tidTiller t
    | _ => false

/-- The accesses a fence still waits for. -/
def State.fenceLeft (s : State) (t : Tid) (scope : Nat) : List Req := (s.posted t).filter (fenceCovers t scope)

/-- A fence: it retires when every access it covers is complete. Waiting for accesses beyond the thread's own stores and
tiller memory is a long stall; waiting for those alone holds the core (R54, R136). -/
def State.fenceGo (s : State) (t : Tid) (scope : Nat) (i : Instr) : State :=
  let left := s.fenceLeft t scope
  if left.isEmpty then s.advance t 4
  else if left.all (fun r => isNear t r.addr.toNat && r.session.isNone) then s
  else s.stall t .drain i

/-- FENCE.L (R54). -/
def execFenceL (t : Tid) (s : State) : Out := s.issue t 4 (fun s => s.fenceGo t 0 (.fenceL t))
/-- FENCE.T (R54). -/
def execFenceT (t : Tid) (s : State) : Out := s.issue t 4 (fun s => s.fenceGo t 1 (.fenceT t))
/-- FENCE.G (R54). -/
def execFenceG (t : Tid) (s : State) : Out := s.issue t 4 (fun s => s.fenceGo t 2 (.fenceG t))

/-- SYNC.I (R85, R100): the fetch buffer is refilled from memory after the thread's earlier stores to its own stores. -/
def execSyncI (t : Tid) (s : State) : Out :=
  s.issue t 4 (fun s =>
    let s := ((s.performTo t (some (tidNode t))).advance t 4).modCtx t (fun c => { c with fetchBuf := [] })
    match s.fetch t 2 with
    | .ok s' => s'
    | .error _ => s)

/-! ## Gates, returns, breakpoints (R118 to R121) -/

/-- RETX (R100, R118, R119): privileged; a failed check raises RETURN_CHECK at level 0. -/
def execRetx (t : Tid) (s : State) : Out :=
  s.issue t 4 (fun s =>
    let n := (s.ctx t).level
    if 2 ≤ n then s.privilege t
    else match s.retx t n with
      | .ok s' => s'.retired t
      | .error d => s.raise t { faultAt s t 4 d 0 with fixed := some 0 })

/-- BRK (R100, R444): BREAK, or a halt with BRK_HALT. -/
def execBrk (t : Tid) (len : Len) (s : State) : Out :=
  s.issue t (lenBytes len) (fun s => if (s.ctx t).dbg.brkHalt then s.haltNow t 5 0 else s.fault t 0x14 0 0)

/-- Whether check code `c` is misplaced or reserved for argument k (Table 8 of chapter 4). -/
def badGateCode (c k : Nat) : Bool := 7 ≤ c || (k = 8 && 1 ≤ c && c ≤ 4)

/-- Whether argument gk passes its check (Table 8 of chapter 4). -/
def gateArgOk (s : State) (t : Tid) (c k boundA boundB : Nat) : Bool :=
  let g := fun i => (s.reg t (bv 5 i)).toNat
  match c with
  | 0 => true
  | 5 => g k < boundA
  | 6 => g k < boundB
  | _ => g k + g (k + 1) ≤ (segGet (s.ctx t).segs (c - 1)).bound.toNat

/-- The checks of a gate in R121's order: the descriptor to enter under, or GATE_ARG's DETAIL and `XADDR`. -/
def State.gateCheck (s : State) (t : Tid) (n : Nat) : Except (Nat × Word) XDesc :=
  let w := s.gdtb t
  let a := tableBase w + 32 * n
  let p := (s.ctx t).level
  if !bit w 0 ∨ field w 44 8 < n then .error (0, 0)
  else match s.readAs t a 32 with
    | .error _ => .error (0, word a)
    | .ok l =>
      let lv := fld l 28 1
      let fl := fld l 29 1
      let checks := fld l 24 4
      let code := fun k => checks / 16 ^ (k - 1) % 16
      if fl % 2 = 0 ∨ fld l 0 1 % 2 = 1 ∨ lv / 4 ≠ 0 ∨ 8 ≤ fl ∨ fld l 30 2 ≠ 0 then .error (0, 0)
      else if 1 < lv ∨ p < lv then .error (1, 0)
      else if fl / 2 % 4 < p then .error (2, 0)
      else if (List.range 8).any (fun i => badGateCode (code (i + 1)) (i + 1)) then .error (3, 0)
      else match (List.range 8).find? (fun i => !gateArgOk s t (code (i + 1)) (i + 1) (fld l 16 4) (fld l 20 4)) with
        | some i => .error (0x10 + i, s.reg t (bv 5 (i + 1)))
        | none => .ok ⟨word (fld l 0 8), lv, false, word (fld l 8 8)⟩

/-- GATE (R120, R121): enters the gate's level with `XPC` at the following instruction, or raises GATE_ARG. -/
def execGate (t : Tid) (n : BitVec 8) (s : State) : Out :=
  s.issue t 4 (fun s =>
    let c := s.ctx t
    match s.gateCheck t n.toNat with
    | .error (d, a) => s.raise t { faultAt s t 5 d a with fixed := some (min 1 c.level) }
    | .ok d =>
      let e : Exc := { code := 1, kind := 3, detail := n.toNat, pc := c.pc + 4, retry := c.pc, fixed := some d.level }
      if bit (s.xdtb t) 0 ∨ d.level = c.level then
        let r := s.enterUnder t e d
        if r.2 then r.1.retired t else r.1
      else s.fence t e.retry 0 1 0 c.level)

end Sys2Proof.Machine
end

