-- ==== Sys2Proof/Machine/Special.lean ====
section
/-! DEFINITION. The special functions of the vector unit: values to far more bits than their bounds need, and the bounded
results (R162, Table 7 of chapter 6). -/

namespace Sys2Proof.Machine

/-! Fixed-point numbers with 160 fractional bits. -/

/-- ln 2, log2 e (160 fractional bits) and π (200 fractional bits). -/
def fxLn2 : Int := 0xb17217f7d1cf79abc9e3b39803f2f6af40f34326
def fxLog2e : Int := 0x171547652b82fe1777d0ffda0d23a7d11d6aef551
def fxPi200 : Int := 0x3243f6a8885a308d313198a2e03707344a4093822299f31d008

/-- A dyadic number in fixed point with `k` fractional bits, rounded down. -/
def Dy.fix (d : Dy) (k : Nat) : Int :=
  let sh := d.e + k
  if 0 ≤ sh then d.m * 2 ^ sh.toNat else d.m / 2 ^ (-sh).toNat

/-- A fixed-point number with 160 fractional bits as a dyadic number. -/
def fxDy (x : Int) : Dy := ⟨x, -160⟩

/-- Product in fixed point. -/
def fxMul (a b : Int) : Int := a * b / 2 ^ 160

/-- Σ of a series whose next term is the last one times `y` over n·(n + gap) with alternate signs where `alt`: `n`
counts up by `step`. -/
def fxSeries (y : Int) (alt : Bool) (step : Nat) : (fuel n : Nat) → (term acc : Int) → Int
  | 0, _, _, acc => acc
  | fuel + 1, n, term, acc =>
    let den : Int := if step = 1 then n else n * (n + 1)
    let t := fxMul term y / den
    let t := if alt then -t else t
    fxSeries y alt step fuel (n + step) t (acc + t)

/-- 2^x for a dyadic x: relative error far below 2^−100. -/
def exp2Dy (x : Dy) : Dy :=
  let f := x.fix 160
  let k := f / 2 ^ 160
  let y := fxMul (f - k * 2 ^ 160) fxLn2
  ⟨fxSeries y false 1 45 1 (2 ^ 160) (2 ^ 160), k - 160⟩

/-- Binary digits of log2 of a mantissa in [1, 2) with 160 fractional bits, by repeated squaring. -/
def log2Digits : (fuel : Nat) → (m : Nat) → (acc : Nat) → Nat
  | 0, _, acc => acc
  | fuel + 1, m, acc =>
    let q := m * m / 2 ^ 160
    if 2 ^ 161 ≤ q then log2Digits fuel (q / 2) (2 * acc + 1) else log2Digits fuel q (2 * acc)

/-- log2 of m · 2^e, m > 0: absolute error below 2^−80. -/
def log2Dy (m : Nat) (e : Int) : Dy :=
  let k := Nat.log2 m
  ⟨((k : Int) + e) * 2 ^ 96 + (log2Digits 96 (m * 2 ^ 160 / 2 ^ k) 0 : Nat), -96⟩

/-- sin or cos of x, abs(x) ≤ 2^14: absolute error far below 2^−60. -/
def sinCosDy (x : Dy) (cos : Bool) : Dy :=
  let f := x.fix 200
  let half := fxPi200 / 2
  let n := (f + half / 2) / half
  let r := (f - n * half) / 2 ^ 40
  let q := (n + (if cos then 1 else 0)) % 4
  let r2 := fxMul r r
  let v := if q % 2 = 0 then fxSeries r2 true 2 25 2 r r else fxSeries r2 true 2 25 1 (2 ^ 160) (2 ^ 160)
  fxDy (if q < 2 then v else -v)

/-- tanh of x: a cubic near zero, else from 2^(−2·abs(x)·log2 e). -/
def tanhDy (x : Dy) : Dy :=
  if x.abs.lt ⟨1, -13⟩ then
    x.sub ((x.mul (x.mul x)).mul ⟨2 ^ 80 / 3, -80⟩)
  else
    let y := fxMul ((x.abs.fix 160) * 2) fxLog2e
    let e := (exp2Dy (fxDy (-y))).fix 160
    let v := (2 ^ 160 - e) * 2 ^ 160 / (2 ^ 160 + e)
    fxDy (if x.m < 0 then -v else v)

/-- The unit in the last place of binary32 at a value. -/
def ulp32 (d : Dy) : Dy :=
  let E : Int := (Nat.log2 d.m.natAbs : Int) + d.e
  ⟨1, (if E < -126 then -126 else E) - 23⟩

/-- A bound with the little that the value computed here may be off the exact one. -/
def slack (d : Dy) : Dy := d.add (d.scale (-30))

/-- A result within `n` ulp of a value. -/
def withinUlp (ftz : Bool) (cand : Nat) (v : Dy) (n : Int) : Nat × Nat :=
  fmt32.bounded ftz cand v (slack (Dy.mul ⟨n, 0⟩ (ulp32 v)))

/-- A result within 2^−22 of a value. -/
def withinAbs (ftz : Bool) (cand : Nat) (v : Dy) : Nat × Nat := fmt32.bounded ftz cand v (slack ⟨1, -22⟩)

/-- The special function of a binary32 element with a candidate encoding: result and flags (Table 7 of chapter 6). -/
def specialOp (op : VSpec) (ftz : Bool) (cand w : Nat) : Nat × Nat :=
  let (v, fl) := fmt32.input ftz w
  let (r, fr) : Nat × Nat :=
    match v with
    | .nan sn => (fmt32.nan, if sn then fINV else 0)
    | .inf n =>
      match op with
      | .exp2 => (if n then 0 else fmt32.infBits, 0)
      | .log2 => if n then (fmt32.nan, fINV) else (cand, 0)
      | .rcp => (if n then fmt32.signBit else 0, 0)
      | .rsqrt => if n then (fmt32.nan, fINV) else (cand, 0)
      | .sin | .cos => (fmt32.nan, fINV)
      | .tanh => ((if n then fmt32.signBit else 0) + 0x3F800000, 0)
    | .fin n m e =>
      let x := dyOf n m e
      let sg := if n then fmt32.signBit else 0
      match op with
      | .exp2 =>
        if (Dy.ofNat 128).le x then (fmt32.infBits, fOVF)
        else if x.le ⟨-150, 0⟩ then (0, 0)
        else withinUlp ftz cand (exp2Dy x) 1
      | .log2 =>
        if m = 0 then (fmt32.signBit + fmt32.infBits, fDZ)
        else if n then (fmt32.nan, fINV)
        else if x.eq (Dy.ofNat 1) then (0, 0)
        else if (Dy.le ⟨1, -1⟩ x) && x.le (Dy.ofNat 2) then withinAbs ftz cand (log2Dy m e)
        else withinUlp ftz cand (log2Dy m e) 1
      | .rcp =>
        if m = 0 then (fmt32.infOut n, fDZ)
        else withinUlp ftz cand (dyOf n (2 ^ 200 / m) (-200 - e)) 1
      | .rsqrt =>
        if m = 0 then (fmt32.infOut n, 0)
        else if n then (fmt32.nan, fINV)
        else
          let k : Nat := if e % 2 = 0 then 240 else 241
          withinUlp ftz cand ⟨isqrt (2 ^ k / m) 121 0, -((k : Int) + e) / 2⟩ 2
      | .sin =>
        if m = 0 then (sg, 0)
        else if x.abs.le ⟨1, 14⟩ then withinAbs ftz cand (sinCosDy x false)
        else fmt32.bounded ftz cand Dy.zero ⟨1, 0⟩
      | .cos =>
        if x.abs.le ⟨1, 14⟩ then withinAbs ftz cand (sinCosDy x true) else fmt32.bounded ftz cand Dy.zero ⟨1, 0⟩
      | .tanh =>
        if m = 0 then (sg, 0)
        else if (Dy.ofNat 91).le (x.abs.mul (Dy.ofNat 10)) then (sg + 0x3F800000, 0)
        else withinUlp ftz cand (tanhDy x) 2
  (r, fl ||| fr)

end Sys2Proof.Machine
end

