-- ==== Sys2Proof/Machine/Vector.lean ====
section
/-! DEFINITION. Vector arithmetic, compares, conversions, reductions, moves and special functions (R152 to R162, R185 to
R193, R200). -/

namespace Sys2Proof.Machine

/-! ## Elements (R153, R154) -/

/-- Bits of an element. -/
def elemBits (e : ElemTy) : Nat := match e with | .i64 | .f64 => 64 | .i32 | .f32 => 32 | .i16 | .bf16 | .f16 => 16 | .i8 => 8
/-- The floating-point format of an element type, if it has one. -/
def elemFmt (e : ElemTy) : Option FpFmt :=
  match e with | .f64 => some fmt64 | .f32 => some fmt32 | .bf16 => some fmtBf16 | .f16 => some fmt16 | _ => none
/-- Whether an element type is floating. -/
def elemFp (e : ElemTy) : Bool := (elemFmt e).isSome
/-- Elements of a register. -/
def elemCount (e : ElemTy) : Nat := 1024 / elemBits e

/-- Element `i` of `w` bits. -/
def vget (v : VecReg) (w i : Nat) : Nat := v.toNat / 2 ^ (w * i) % 2 ^ w
/-- A register from its elements of `w` bits, the rest zero. -/
def vpack (w : Nat) (l : List Nat) : VecReg := BitVec.ofNat 1024 (l.foldr (fun x r => x % 2 ^ w + 2 ^ w * r) 0)
/-- An element of `w` bits as a signed number. -/
def sgn (w x : Nat) : Int := (BitVec.ofNat w x).toInt
/-- A number modulo 2^w. -/
def wrap (w : Nat) (x : Int) : Nat := (BitVec.ofInt w x).toNat

/-- Whether element `i` is active (R154). -/
def active (masked : Bool) (v0 : VecReg) (i : Nat) : Bool := !masked || v0.getLsbD i

/-- The union of flags. -/
def flagsOf (l : List (Nat × Nat)) : Nat := l.foldl (fun r p => r ||| p.2) 0

/-- How many elements of a result were flushed under FTZ: each position once (R425; log entry 2). -/
def flushCount (l : List (Nat × Nat)) : Nat := (l.filter (fun p => p.2 &&& fFLUSH != 0)).length

/-- Counts flushed elements in OTC_FLUSH, and block underflows in OTC_BLKUF, and for the thread's step (R425, R437). -/
def State.countFlush (s : State) (t : Tid) (n k : Nat) : State :=
  if n = 0 ∧ k = 0 then s
  else
    let s1 := (s.otcAdd t 6 n).otcAdd t 7 k
    match (s1.ctx t).step with
    | some r => s1.modSq r.tiller r.sctx (fun q =>
        { q with steps := q.steps.map (fun x => if x.serial = r.serial then { x with flushes := x.flushes + n, blkufs := x.blkufs + k } else x) })
    | none => s1

/-- An element-by-element operation of `n` elements of `w` bits: inactive elements keep their old value and raise no flag
(R154, R188). -/
def State.vMap (s : State) (t : Tid) (vd : VReg) (masked : Bool) (w n : Nat) (g : Nat → Nat × Nat) : State :=
  let old := s.vreg t vd
  let v0 := s.vreg t 0
  let r := (List.range n).map (fun i => if active masked v0 i then g i else (vget old w i, 0))
  (((s.setVreg t vd (vpack w (r.map Prod.fst))).vecFlags t (flagsOf r)).countFlush t (flushCount r) 0).advance t 4

/-! ## Arithmetic (Table 3 of chapter 6) -/

/-- An integer element operation, wrapping; `d` is the old destination element. -/
def intArith (op : VArith) (w a b d : Nat) : Nat :=
  let sa := sgn w a
  let sb := sgn w b
  match op with
  | .add => (a + b) % 2 ^ w
  | .sub => wrap w (a - b : Int)
  | .mul => a * b % 2 ^ w
  | .fma => (a * b + d) % 2 ^ w
  | .fnma => wrap w ((d : Int) - a * b)
  | .min => if sa < sb then a else b
  | .max => if sa < sb then b else a
  | .abs => wrap w (sa.natAbs : Int)
  | .neg => wrap w (-sa)
  | .and => a &&& b
  | .or => a ||| b
  | .xor => a ^^^ b
  | .sll => a * 2 ^ (b % w) % 2 ^ w
  | .srl => a / 2 ^ (b % w)
  | .sra => wrap w (sa / 2 ^ (b % w))
  | .mv => a
  | .div | .sqrt | .bcg | .iota => a

/-- A floating element operation with its flags; VABS and VNEG act on the sign bit, VMV copies (R155, R184, R192). -/
def fpArith (f : FpFmt) (op : VArith) (rm : Nat) (ftz : Bool) (a b d : Nat) : Nat × Nat :=
  let (x, fx) := f.input ftz a
  let (y, fy) := f.input ftz b
  let (z, fz) := f.input ftz d
  let two := fun (r : Nat × Nat) => (r.1, r.2 ||| fx ||| fy)
  match op with
  | .add => two (f.addV rm ftz x y)
  | .sub => two (f.addV rm ftz x y.negate)
  | .mul => two (f.mulV rm ftz x y)
  | .div => two (f.divV rm ftz x y)
  | .fma => let r := f.fmaV rm ftz x y z; (r.1, r.2 ||| fx ||| fy ||| fz)
  | .fnma => let r := f.fmaV rm ftz x.negate y z; (r.1, r.2 ||| fx ||| fy ||| fz)
  | .sqrt => let r := f.sqrtV rm ftz x; (r.1, r.2 ||| fx)
  | .min => f.minmax false ftz a b
  | .max => f.minmax true ftz a b
  | .abs => (a % f.signBit, 0)
  | .neg => (a ^^^ f.signBit, 0)
  | _ => (a, 0)

/-- Whether an arithmetic function exists for a type and its unused fields are zero (Table 3 of chapter 6). -/
def arithLegal (op : VArith) (f : VFmt) : Bool :=
  match op with
  | .div => elemFp f.et
  | .sqrt => elemFp f.et && f.vb = 0
  | .and | .or | .xor | .sll | .srl | .sra => !elemFp f.et
  | .abs | .neg | .mv => f.vb = 0
  | .iota => !elemFp f.et && f.va = 0 && f.vb = 0
  | _ => true

/-- VEC_ARITH (R155, R157). -/
def execVecArith (t : Tid) (op : VArith) (f : VFmt) (s : State) : Out :=
  s.issue t 4 (fun s =>
    if !arithLegal op f then s.illegal t
    else
      let w := elemBits f.et
      let a := s.vreg t f.va
      let b := s.vreg t f.vb
      let d := s.vreg t f.vd
      let m := (s.ctx t).fpm
      s.vMap t f.vd f.masked w (elemCount f.et) (fun i =>
        match op, elemFmt f.et with
        | .bcg, _ => ((s.reg t f.va).toNat % 2 ^ w, 0)
        | .iota, _ => (i, 0)
        | .mv, _ => (vget a w i, 0)
        | _, some g => fpArith g op (fpmRm m) (fpmFtz m) (vget a w i) (vget b w i) (vget d w i)
        | _, none => (intArith op w (vget a w i) (vget b w i) (vget d w i), 0)))

/-- A compare of two elements with its flags: signed on integers; VCLT and VCLE signal for any NaN (R157). -/
def cmpElem (op : VCmp) (e : ElemTy) (ftz : Bool) (a b : Nat) : Bool × Nat :=
  match elemFmt e with
  | none =>
    let x := sgn (elemBits e) a
    let y := sgn (elemBits e) b
    (match op with | .eq => x = y | .lt => x < y | .le => x ≤ y | .un => false, 0)
  | some f =>
    let (un, eq, lt, fl) := f.cmp ftz a b
    match op with
    | .eq => (eq, fl)
    | .lt => (lt, if un then fl ||| fINV else fl)
    | .le => (lt || eq, if un then fl ||| fINV else fl)
    | .un => (un, fl)

/-- VEC_COMPARE (R157): bit i of vd for element i, every other bit cleared; an inactive element keeps its bit. -/
def execVecCompare (t : Tid) (op : VCmp) (f : VFmt) (s : State) : Out :=
  s.issue t 4 (fun s =>
    if op = .un && !elemFp f.et then s.illegal t
    else
      let w := elemBits f.et
      let old := s.vreg t f.vd
      let r := (List.range (elemCount f.et)).map (fun i =>
        if active f.masked (s.vreg t 0) i then
          let c := cmpElem op f.et (fpmFtz (s.ctx t).fpm) (vget (s.vreg t f.va) w i) (vget (s.vreg t f.vb) w i)
          (b2n c.1, c.2)
        else (b2n (old.getLsbD i), 0))
      (((s.setVreg t f.vd (vpack 1 (r.map Prod.fst))).vecFlags t (flagsOf r)).countFlush t (flushCount r) 0).advance t 4)

/-- VSEL (R157): MK must be 0. -/
def execVsel (t : Tid) (f : VFmt) (s : State) : Out :=
  s.issue t 4 (fun s =>
    if f.masked then s.illegal t
    else
      let w := elemBits f.et
      let v0 := s.vreg t 0
      s.vMap t f.vd false w (elemCount f.et) (fun i =>
        (vget (if v0.getLsbD i then s.vreg t f.va else s.vreg t f.vb) w i, 0)))

/-! ## Conversions (R157, R193) -/

/-- A floating element to an integer of `w` bits: rounded, saturated, NaN to 0. -/
def fpToInt (f : FpFmt) (w rm : Nat) (ftz : Bool) (x : Nat) : Nat × Nat :=
  let (v, fl) := f.input ftz x
  let lo : Int := -(2 ^ (w - 1))
  let hi : Int := 2 ^ (w - 1) - 1
  match v with
  | .nan _ => (0, fl ||| fINV)
  | .inf n => (wrap w (if n then lo else hi), fl ||| fINV)
  | .fin n m e =>
    let (k, inx) := roundInt rm n m e
    if k < lo then (wrap w lo, fl ||| fINV)
    else if hi < k then (wrap w hi, fl ||| fINV)
    else (wrap w k, fl ||| (if inx then fINX else 0))

/-- One converted element. -/
def cvtElem (dst src : ElemTy) (rm : Nat) (ftz : Bool) (x : Nat) : Nat × Nat :=
  match elemFmt dst, elemFmt src with
  | some g, some f => f.convert g rm ftz x
  | some g, none =>
    let v := sgn (elemBits src) x
    g.round rm ftz (decide (v < 0)) v.natAbs 0
  | none, some f => fpToInt f (elemBits dst) rm ftz x
  | none, none => (wrap (elemBits dst) (sgn (elemBits src) x), 0)

/-- VCVT (R157, R193): to a narrower type the rest of vd is zeroed whatever v0 holds; to a wider type the low elements
are taken. -/
def execVcvt (t : Tid) (f : VFmt) (src : ElemTy) (s : State) : Out :=
  s.issue t 4 (fun s =>
    let a := s.vreg t f.va
    let m := (s.ctx t).fpm
    s.vMap t f.vd f.masked (elemBits f.et) (min (elemCount f.et) (elemCount src)) (fun i =>
      cvtElem f.et src (fpmRm m) (fpmFtz m) (vget a (elemBits src) i)))

/-! ## Reductions and moves (R161, R200) -/

/-- ⌈log2 n⌉. -/
def ceilLog2 (n : Nat) : Nat := if n ≤ 1 then 0 else Nat.log2 (n - 1) + 1

/-- A floating sum with a candidate encoding and the open INX and UNF bits: within R200's bound. -/
def fpSum (f : FpFmt) (ftz : Bool) (cand opn : Nat) (l : List Nat) : Nat × Nat :=
  let ins := l.map (f.input ftz)
  let fl := ins.foldl (fun r p => r ||| p.2) 0
  let vs := ins.map Prod.fst
  let signalling := if vs.any FV.isSnan then fINV else 0
  if l.isEmpty then (0, 0)
  else if vs.any FV.isNan then (f.nan, fl ||| signalling)
  else if vs.any (fun v => v = .inf false) && vs.any (fun v => v = .inf true) then (f.nan, fl ||| fINV)
  else match vs.find? FV.isInf with
    | some v => (f.infOut v.sign, fl)
    | none =>
      let sum := vs.foldl (fun r v => r.add v.dy) Dy.zero
      let mag := vs.foldl (fun r v => r.add v.dy.abs) Dy.zero
      let bound :=
        if f.width = 16 then
          (sum.abs.scale (-(f.mb : Int) - 1)).add ((mag.mul (Dy.ofNat 6)).scale (-24))
        else (mag.mul (Dy.ofNat (ceilLog2 l.length))).scale (-(f.mb : Int) - 1)
      let (r, fr) := f.bounded ftz cand sum bound
      (r, fl ||| fr ||| (if l.length = 1 && f.width ≠ 16 then 0 else opn))

/-- A floating maximum or minimum of active elements (R192). -/
def fpExtreme (f : FpFmt) (isMax ftz : Bool) (l : List Nat) : Nat × Nat :=
  match l with
  | [] => (f.infOut isMax, 0)
  | x :: l' => l'.foldl (fun r y => let q := f.minmax isMax ftz r.1 y; (q.1, r.2 ||| q.2)) (f.minmax isMax ftz x x)

/-- An integer reduction (R161). -/
def intReduce (op : VRed) (w : Nat) (l : List Nat) : Nat :=
  match op with
  | .sum => l.foldl (· + ·) 0 % 2 ^ w
  | .max => wrap w (l.foldl (fun r x => max r (sgn w x)) (-(2 ^ (w - 1))))
  | .min => wrap w (l.foldl (fun r x => min r (sgn w x)) (2 ^ (w - 1) - 1))
  | .and => l.foldl (· &&& ·) (2 ^ w - 1)
  | .or => l.foldl (· ||| ·) 0
  | .xor => l.foldl (· ^^^ ·) 0

/-- Two open flag bits as UNF and INX (log entry 2). -/
def openFlags (b : BitVec 2) : Nat := (if b.getLsbD 0 then fINX else 0) ||| (if b.getLsbD 1 then fUNF else 0)

/-- Writes element 0 of vd and zeroes the rest; `n` input elements were flushed, and the result too where FLUSH stands
without them. -/
def State.vScalar (s : State) (t : Tid) (vd : VReg) (w : Nat) (r : Nat × Nat) (n : Nat) : State :=
  let n := if n = 0 ∧ r.2 &&& fFLUSH ≠ 0 then 1 else n
  (((s.setVreg t vd (vpack w [r.1])).vecFlags t r.2).countFlush t n 0).advance t 4

/-- VEC_REDUCE (R161, R192, R200). -/
def execVecReduce (t : Tid) (op : VRed) (f : VFmt) (s : State) : Out :=
  s.issue t 4 (fun s =>
    let w := elemBits f.et
    let ftz := fpmFtz (s.ctx t).fpm
    let l := ((List.range (elemCount f.et)).filter (active f.masked (s.vreg t 0))).map (vget (s.vreg t f.va) w)
    let subs := match elemFmt f.et with
      | some g => if ftz then (l.filter g.isSub).length else 0
      | none => 0
    match elemFmt f.et, op with
    | none, _ => s.vScalar t f.vd w (intReduce op w l, 0) 0
    | some g, .sum =>
      let (c, s1) := s.draw 64
      let (b, s2) := s1.draw 2
      s2.vScalar t f.vd w (fpSum g ftz (c.toNat % 2 ^ w) (openFlags b) l) subs
    | some g, .max => s.vScalar t f.vd w (fpExtreme g true ftz l) subs
    | some g, .min => s.vScalar t f.vd w (fpExtreme g false ftz l) subs
    | some _, _ => s.illegal t)

/-- VEC_SPECIAL (R162): F32 only. -/
def execVecSpecial (t : Tid) (op : VSpec) (f : VFmt) (s : State) : Out :=
  s.issue t 4 (fun s =>
    if f.et ≠ .f32 then s.illegal t
    else
      let (c, s1) := s.draw 1024
      let (b, s2) := s1.draw 2
      let a := s.vreg t f.va
      s2.vMap t f.vd f.masked 32 32 (fun i =>
        let r := specialOp op (fpmFtz (s.ctx t).fpm) (vget c 32 i) (vget a 32 i)
        (r.1, r.2 ||| openFlags b)))

/-- VMVG (R161): MK must be 0. -/
def execVmvg (t : Tid) (f : VFmt) (s : State) : Out :=
  s.issue t 4 (fun s =>
    if f.masked then s.illegal t
    else
      let w := elemBits f.et
      let x := vget (s.vreg t f.va) w ((s.reg t f.vb).toNat % elemCount f.et)
      (s.setReg t f.vd (if elemFp f.et then word x else BitVec.ofInt 64 (sgn w x))).advance t 4)

/-- VINS (R161): MK must be 0. -/
def execVins (t : Tid) (f : VFmt) (s : State) : Out :=
  s.issue t 4 (fun s =>
    if f.masked then s.illegal t
    else
      let w := elemBits f.et
      let k := (s.reg t f.vb).toNat % elemCount f.et
      let old := s.vreg t f.vd
      s.vMap t f.vd false w (elemCount f.et) (fun i =>
        (if i = k then (s.reg t f.va).toNat % 2 ^ w else vget old w i, 0)))

end Sys2Proof.Machine
end

