-- ==== Sys2Proof/Machine/Mx.lean ====
section
/-! DEFINITION. MX block scaling, splitting and FP8 conversion (R163, R164, R193, R201 to R205). -/

namespace Sys2Proof.Machine

/-- The floating format of an MX element type; MXINT8 has none. -/
def mxFmt (m : MxTy) : Option FpFmt :=
  match m with
  | .e4m3 => some fmtE4M3
  | .e5m2 => some fmtE5M2
  | .e2m3 => some fmtE2M3
  | .e3m2 => some fmtE3M2
  | .e2m1 => some fmtE2M1
  | .int8 => none
/-- Bits of an MX element. -/
def mxBits (m : MxTy) : Nat := match m with | .e4m3 | .e5m2 | .int8 => 8 | .e2m3 | .e3m2 => 6 | .e2m1 => 4
/-- The exponent of the largest normal value of an MX element type. -/
def mxEmax (m : MxTy) : Int := match m with | .e4m3 => 8 | .e5m2 => 15 | .e2m3 => 2 | .e3m2 => 4 | .e2m1 => 2 | .int8 => 0

/-! ## Quantisation (R201 to R203) -/

/-- ⌊log2⌋ of a positive finite value. -/
def floorLog2 (m : Nat) (e : Int) : Int := (Nat.log2 m : Int) + e

/-- The scale byte of a block of decoded inputs (Table 9 of chapter 7). -/
def mxScale (ty : MxTy) (vs : List FV) : Nat :=
  if vs.any FV.isNan then 0xFF
  else if ty ≠ .e5m2 ∧ vs.any FV.isInf then 0xFF
  else
    let exps := vs.filterMap (fun v => match v with | .fin _ m e => if m = 0 then none else some (floorLog2 m e) | _ => none)
    match exps with
    | [] => 0
    | x :: l => (127 + max (-127) (l.foldl max x - mxEmax ty)).toNat

/-- m · 2^e in units of 2^q rounded to nearest, a tie going up where `up`. -/
def nearest (up : Bool) (m : Nat) (e q : Int) : Nat :=
  if q ≤ e then m <<< (e - q).toNat
  else
    let sh := (q - e).toNat
    let n := m >>> sh
    let r := m % 2 ^ sh
    if 2 ^ sh < 2 * r ∨ (2 * r = 2 ^ sh ∧ up) then n + 1 else n

/-- Flags of `MXS` that VQMX sets (R202, R203). -/
def mSAT : Nat := 8
def mBLKUF : Nat := 4

/-- One element of a block with a finite scale exponent: its encoding, its `FPS` flags and its `MXS` flags (R202,
R203). -/
def mxElem (ty : MxTy) (ftz up : Bool) (scale : Int) (v : FV) : Nat × Nat × Nat :=
  match v with
  | .nan _ => (0, 0, 0)
  | .inf n => ((if n then 0x80 else 0) + 0x7C, 0, 0)
  | .fin n m e =>
    match mxFmt ty with
    | none =>
      if (dyOf false m e).lt ((Dy.mul ⟨127, -6⟩ ⟨1, scale⟩)) || (dyOf false m e).eq (Dy.mul ⟨127, -6⟩ ⟨1, scale⟩) then
        let k := nearest up m e (scale - 6)
        (wrap 8 (if n then -(k : Int) else k), 0, if k = 0 ∧ m ≠ 0 then mBLKUF else 0)
      else (wrap 8 (if n then -127 else 127), 0, mSAT)
    | some f =>
      let sg := if n then f.signBit else 0
      let maxv : Dy := (f.decode f.maxFin).dy.scale scale
      if m = 0 then (sg, 0, 0)
      else if maxv.lt (dyOf false m e) then (sg + f.maxFin, 0, mSAT)
      else
        let E := floorLog2 m e - scale
        let q := (if E < f.emin then f.emin else E) - f.mb
        let k := nearest up m e (q + scale)
        let (k, q) := if k = 2 ^ (f.mb + 1) then (2 ^ f.mb, q + 1) else (k, q)
        if k < 2 ^ f.mb then
          (if k = 0 then (sg, 0, mBLKUF) else if ftz then (sg, fFLUSH, mBLKUF) else (sg + k, 0, 0))
        else (sg + (q + f.mb + f.bias).toNat * 2 ^ f.mb + (k - 2 ^ f.mb), 0, 0)

/-- A block of 32 binary32 inputs: scale byte, encodings, each element's `FPS` flags and `MXS` flags; bit i of `ties` decides element
i's tie (R202). -/
def mxBlock (ty : MxTy) (ftz : Bool) (ties : Nat) (ws : List Nat) : Nat × List Nat × List (Nat × Nat) :=
  let ins := ws.map (fmt32.input ftz)
  let vs := ins.map Prod.fst
  let sc := mxScale ty vs
  if sc = 0xFF then (0xFF, ws.map (fun _ => 0), ins.map (fun p => (p.2, 0)))
  else
    let es := vs.zipIdx.map (fun p => mxElem ty ftz (ties.testBit p.2) ((sc : Int) - 127) p.1)
    (sc, es.map Prod.fst, (es.zip ins).map (fun p => (p.1.2.1 ||| p.2.2, p.1.2.2)))

/-- Sets sticky flags of `MXS`. -/
def State.setMxs (s : State) (t : Tid) (fl : Nat) : State := s.modCtx t (fun c => { c with mxs := c.mxs ||| word fl })

/-- VQMX (R163, R201 to R203): no `FPS` flag but FLUSH, and never a trap. -/
def execVqmx (t : Tid) (mx : MxTy) (vd va vb : VReg) (s : State) : Out :=
  s.issue t 4 (fun s =>
    let ftz := fpmFtz (s.ctx t).fpm
    let (ties, s1) := s.draw 64
    let b0 := mxBlock mx ftz ties.toNat ((List.range 32).map (vget (s.vreg t va) 32))
    let b1 := mxBlock mx ftz (ties.toNat / 2 ^ 32) ((List.range 32).map (vget (s.vreg t vb) 32))
    let data := (b0.2.1 ++ b1.2.1).foldr (fun x r => x + 2 ^ mxBits mx * r) 0
    let v := BitVec.ofNat 1024 (data + b0.1 * 2 ^ 1008 + b1.1 * 2 ^ 1016)
    let fl := b0.2.2 ++ b1.2.2
    let under := (fl.filter (fun p => p.2 &&& mBLKUF != 0)).length
    let flushed := (fl.filter (fun p => p.1 &&& fFLUSH != 0)).length
    ((((s1.setVreg t vd v).setFps t (fl.foldl (fun r p => r ||| p.1) 0)).setMxs t (fl.foldl (fun r p => r ||| p.2) 0)).countFlush
      t flushed under).advance t 4)

/-! ## Decoding (R204, R205) -/

/-- The value of an MX element with its scale exponent, and the flags of its flush under FTZ. -/
def mxValue (ty : MxTy) (ftz : Bool) (scale : Nat) (x : Nat) : FV × Nat :=
  if scale = 0xFF then (.nan false, 0)
  else
    let k : Int := (scale : Int) - 127
    match mxFmt ty with
    | none => let v := sgn 8 x; (.fin (decide (v < 0)) v.natAbs (k - 6), 0)
    | some f =>
      match f.input ftz x with
      | (.fin n m e, fl) => (.fin n m (e + k), fl)
      | (v, fl) => (v, fl)

/-- A decoded element as binary32 with its flags: exact but beyond range and under FTZ (R204). -/
def mxToF32 (ftz : Bool) (p : FV × Nat) : Nat × Nat :=
  match p.1 with
  | .nan _ => (fmt32.nan, p.2)
  | .inf n => (fmt32.infOut n, p.2)
  | .fin n m e => let r := fmt32.round 0 ftz n m e; (r.1, p.2 ||| r.2)

/-- VDQMX (R163, R204). -/
def execVdqmx (t : Tid) (mx : MxTy) (vd va : VReg) (blk : Bool) (s : State) : Out :=
  s.issue t 4 (fun s =>
    let ftz := fpmFtz (s.ctx t).fpm
    let a := s.vreg t va
    s.vMap t vd false 32 32 (fun i =>
      mxToF32 ftz (mxValue mx ftz (vget a 8 (126 + b2n blk)) (vget a (mxBits mx) (i + 32 * b2n blk)))))

/-! ## Splitting (R164) -/

/-- A binary32 dyadic value truncated to bfloat16. -/
def truncBf16 (ftz : Bool) (d : Dy) : Nat × Nat :=
  let r := fmtBf16.roundDy 1 ftz false d
  (r.1, if r.2 &&& fFLUSH ≠ 0 then r.2 else 0)

/-- Piece `p` of a binary32 value. -/
def splitPiece (ftz : Bool) (p : Nat) (w : Nat) : Nat × Nat :=
  let (v, fl) := fmt32.input ftz w
  match v with
  | .nan sn => (if p = 0 then fmtBf16.nan else 0, fl ||| (if sn then fINV else 0))
  | .inf n => (if p = 0 then fmtBf16.infOut n else 0, fl)
  | .fin n m e =>
    let x := dyOf n m e
    let cut := fun (d : Dy) => (fmtBf16.decode (fmtBf16.roundDy 1 ftz false d).1).dy
    let r1 := x.sub (cut x)
    let r2 := r1.sub (cut r1)
    let q := match p with
      | 0 => if m = 0 then (if n then fmtBf16.signBit else 0, 0) else truncBf16 ftz x
      | 1 => truncBf16 ftz r1
      | _ => truncBf16 ftz r2
    (q.1, fl ||| q.2)

/-- VSPLIT (R163, R164). -/
def execVsplit (t : Tid) (piece : Fin 3) (vd va vb : VReg) (s : State) : Out :=
  s.issue t 4 (fun s =>
    let ftz := fpmFtz (s.ctx t).fpm
    s.vMap t vd false 16 64 (fun i =>
      splitPiece ftz piece.val (if i < 32 then vget (s.vreg t va) 32 i else vget (s.vreg t vb) 32 (i - 32))))

/-! ## FP8 (R163, R193) -/

/-- A binary32 value to FP8: saturation to E4M3, and to E5M2 with SATF8 (R193). -/
def toFp8 (e5m2 ftz sat : Bool) (rm : Nat) (w : Nat) : Nat × Nat :=
  let (v, fl) := fmt32.input ftz w
  let f := if e5m2 then fmtE5M2 else fmtE4M3
  match v with
  | .nan sn => (0x7F, fl ||| (if sn then fINV else 0))
  | .inf n => if e5m2 then (f.infOut n, fl) else (0x7F, fl ||| fINV)
  | .fin n m e =>
    let top := (if n then f.signBit else 0) + f.maxFin
    if !e5m2 && (Dy.ofNat 448).lt (dyOf false m e) then (top, fl ||| fOVF ||| fINX)
    else
      let r := f.round rm ftz n m e
      (if e5m2 && sat && r.2 &&& fOVF ≠ 0 then top else r.1, fl ||| r.2)

/-- VCVT8 (R163, R193): 64 FP8 bytes in the low half, the high half zero. -/
def execVcvt8 (t : Tid) (e5m2 : Bool) (vd va vb : VReg) (s : State) : Out :=
  s.issue t 4 (fun s =>
    let m := (s.ctx t).fpm
    s.vMap t vd false 8 64 (fun i =>
      toFp8 e5m2 (fpmFtz m) (fpmSatF8 m) (fpmRm m) (if i < 32 then vget (s.vreg t va) 32 i else vget (s.vreg t vb) 32 (i - 32))))

/-- VCVTF8 (R163, R193): exact, a NaN becoming the default NaN. -/
def execVcvtf8 (t : Tid) (e5m2 : Bool) (vd va : VReg) (upper : Bool) (s : State) : Out :=
  s.issue t 4 (fun s =>
    let ftz := fpmFtz (s.ctx t).fpm
    let f := if e5m2 then fmtE5M2 else fmtE4M3
    s.vMap t vd false 32 32 (fun i => f.convert fmt32 0 ftz (vget (s.vreg t va) 8 (i + 32 * b2n upper))))

end Sys2Proof.Machine
end

