-- ==== Sys2Proof/Machine/VecMem.lean ====
section
/-! DEFINITION. Vector loads and stores (R158 to R160). -/

namespace Sys2Proof.Machine

/-- How the offset of element i is formed (Table 4 of chapter 6). -/
inductive VAddr | unit | stride | index
deriving DecidableEq, Repr

/-- Offset of element `i`. -/
def State.velemOff (s : State) (t : Tid) (m : VMem) (k : VAddr) (i : Nat) : Word :=
  let size := elemBits m.et / 8
  match k with
  | .unit => s.reg t m.ra + word (i * size)
  | .stride => s.reg t m.ra + word i * s.reg t m.rb
  | .index => s.reg t m.ra + word (vget (s.vreg t m.rb) 32 i * size)

/-- The active elements with their offsets, in ascending order. -/
def State.velems (s : State) (t : Tid) (m : VMem) (k : VAddr) : List (Nat × Word) :=
  ((List.range (elemCount m.et)).filter (active m.masked (s.vreg t 0))).map (fun i => (i, s.velemOff t m k i))

/-- Whether the encoding exists (R158, R159). -/
def vmemLegal (m : VMem) (k : VAddr) : Bool :=
  match k with
  | .unit => m.rb = 0
  | .stride => true
  | .index => 32 ≤ elemBits m.et

/-- How the checks of all elements end. -/
inductive VAcc
  | ok (l : List (Nat × Target)) (s : State)
  | exc (e : Exc)
  | halt (i : Nat)

/-- Checks elements in ascending order, each under R90's order (R159). -/
def State.vcheck (s : State) (t : Tid) (seg size : Nat) (write : Bool) : List (Nat × Word) → VAcc
  | [] => .ok [] s
  | (i, off) :: l =>
    match s.access t seg off size size write with
    | .exc e => .exc e
    | .halt k => .halt k
    | .go tg s1 =>
      match s1.vcheck t seg size write l with
      | .ok r s2 => .ok ((i, tg) :: r) s2
      | x => x

/-- Runs a vector access whose elements all pass, or raises the first failure with no state changed. -/
def State.withElems (s : State) (t : Tid) (m : VMem) (k : VAddr) (write : Bool) (body : State → List (Nat × Target) → State) : State :=
  if !vmemLegal m k then s.illegal t
  else match s.vcheck t m.seg.toNat (elemBits m.et / 8) write (s.velems t m k) with
    | .ok l s1 => body s1 l
    | .exc e => s.raise t e
    | .halt i => s.haltNow t 4 i

/-! ## Loads -/

/-- Reads the elements in ascending order: the values, or the first error response with its address. -/
def State.readElems (s : State) (t : Tid) (size : Nat) : List (Nat × Target) → List Req → Except (Nat × Word × State) (List (Nat × Nat) × State)
  | [], _ => .ok ([], s)
  | (i, tg) :: l, rs =>
    let one : Except (Nat × Word × State) (Nat × State × List Req) :=
      match tg with
      | .reserved a => .error (dReserved, a, s)
      | .remote _ _ _ =>
        match rs with
        | r :: rest => match r.resp with
          | some (0, _) => .ok (leNat r.back, s, rest)
          | some (d, a) => .error (d, a, s)
          | none => .error (dRemote, r.addr, s)
        | [] => .error (dRemote, 0, s)
      | .at' a _ => match s.threadRead t a size with
        | .error (d, s1) => .error (d, word a, s1)
        | .ok (b, s1) => .ok (leNat b, s1, rs)
    match one with
    | .error e => .error e
    | .ok (v, s1, rs1) =>
      match s1.readElems t size l rs1 with
      | .error e => .error e
      | .ok (vs, s2) => .ok ((i, v) :: vs, s2)

/-- The end of a vector load: vd takes the active elements, or ACCESS_ERROR leaves it unchanged (R159). -/
def State.vloadNow (s : State) (t : Tid) (m : VMem) (l : List (Nat × Target)) : State :=
  let w := elemBits m.et
  match s.readElems t (w / 8) l (s.remoteLoads t) with
  | .error (d, a, s1) => (s1.dropLoads t).fault t 0xC d a
  | .ok (vs, s1) =>
    let old := s1.vreg t m.v
    let v := vpack w ((List.range (elemCount m.et)).map (fun i =>
      match vs.find? (fun p => p.1 = i) with | some p => p.2 | none => vget old w i))
    ((s1.dropLoads t).setVreg t m.v v).advance t 4

/-- Whether a target waits for data that comes from elsewhere: a long stall (R136, R160). -/
def isFar (t : Tid) (tg : Target) : Bool :=
  match tg with
  | .reserved _ => false
  | .remote _ _ _ => true
  | .at' a cached => if t.unit < 1024 then !isNear t a else !cached

/-- The first line that a Culm core's cached accesses miss. -/
def State.missLine (s : State) (t : Tid) (l : List Target) : Option Nat :=
  if t.unit < 1024 then none
  else l.findSome? (fun tg => match tg with
    | .at' a true => if s.inL2 (t.unit - 1024) (a / 64) || s.inSide (t.unit - 1024) (a / 64) then none else some (a / 64)
    | _ => none)

/-- Side-buffer lines that a Culm core's accesses hit move to L2 (R382). -/
def State.takeSide (s : State) (t : Tid) (l : List Target) : State :=
  if t.unit < 1024 then s
  else forAll l s (fun s tg => match tg with
    | .at' a true => if s.inSide (t.unit - 1024) (a / 64) then s.sideToL2 (t.unit - 1024) (a / 64) else s
    | _ => s)

/-- Sends the remote loads of an access, one for each remote element. -/
def State.sendLoads (s : State) (t : Tid) (size : Nat) (l : List Target) : State :=
  forAll l s (fun s tg => match tg with
    | .remote m sess off => s.sendReq t (word (m * 2 ^ 44 + off)) (.load size) none (some (m, sess)) none false
    | _ => s)

/-- A load of several pieces whose checks have passed: at once from near stores and held lines, else it waits (R136,
R160, R381). -/
def State.multiLoad (s : State) (t : Tid) (i : Instr) (size : Nat) (l : List Target) (now : State → State) : State :=
  match s.missLine t l with
  | some line => s.stall t (.cacheLine line) i
  | none =>
    if l.any (isFar t) then (s.sendLoads t size l).stall t .data i
    else now (s.takeSide t l)

/-- A vector load. -/
def State.vload (s : State) (t : Tid) (i : Instr) (m : VMem) (k : VAddr) : State :=
  s.withElems t m k false (fun s l =>
    s.multiLoad t i (elemBits m.et / 8) (l.map Prod.snd) (fun s => s.vloadNow t m l))

/-- A vector load whose data has returned. -/
def State.vloadDone (s : State) (t : Tid) (m : VMem) (k : VAddr) : State := s.withElems t m k false (fun s l => s.vloadNow t m l)

/-- VLD (R158). -/
def execVld (t : Tid) (m : VMem) (s : State) : Out := s.issue t 4 (fun s => s.vload t (.vld t m) m .unit)
/-- VLDS (R158). -/
def execVlds (t : Tid) (m : VMem) (s : State) : Out := s.issue t 4 (fun s => s.vload t (.vlds t m) m .stride)
/-- VGATH (R158, R159). -/
def execVgath (t : Tid) (m : VMem) (s : State) : Out := s.issue t 4 (fun s => s.vload t (.vgath t m) m .index)

/-! ## Stores -/

/-- Sends the writes of a vector store in order as one posted store; where a credit is awaited the thread keeps how many
it has sent (R159, R229). -/
def State.sendElems (s : State) (t : Tid) (i : Instr) (group : Nat) (fin : State → State) : List (Target × List Byte) → (done : Nat) → State
  | [], _ => fin s
  | (tg, d) :: l, done =>
    if s.suppressed t tg then s.sendElems t i group fin l (done + 1)
    else match s.postOne t i d.length tg (.store d) (some group) with
      | .sent s1 => s1.sendElems t i group fin l (done + 1)
      | .stop s1 => if (s1.ctx t).st = .waiting then s1.modCtx t (fun c => { c with sent := done }) else s1

/-- Writes bytes of a Culm core into lines its L2 holds (R383). -/
def State.culmStores (s : State) (t : Tid) (l : List (Target × List Byte)) : State :=
  forAll l s (fun s p => match p.1 with
    | .at' a true => (s.ownLine (t.unit - 1024) (a / 64)).culmPoke a p.2
    | _ => s)

/-- Whether a write goes into a Culm core's caches. -/
def isCached (t : Tid) (tg : Target) : Bool := match tg with | .at' _ c => c && decide (1024 ≤ t.unit) | _ => false

/-- The CREDIT fault of the first write that has one (R229 steps 1 and 2). -/
def State.creditFault (s : State) (t : Tid) (l : List (Target × List Byte)) : Option (Nat × Word) :=
  if 1024 ≤ t.unit then none
  else l.findSome? (fun p => match p.1 with
    | .at' a _ => if s.suppressed t p.1 then none else
        match s.creditStep t a p.2.length with | .exc d => some (d, word a) | _ => none
    | _ => none)

/-- A vector store (R159): one posted store, its elements performed in ascending order. -/
def State.vstore (s : State) (t : Tid) (i : Instr) (m : VMem) (k : VAddr) : State :=
  let w := elemBits m.et
  let v := s.vreg t m.v
  let fold := fun (s0 : State) => forAll (s.velems t m k) s0 (fun s0 p => s0.foldStore t m.seg.toNat p.2 (leBytes (w / 8) (vget v w p.1)))
  s.withElems t m k true (fun s l =>
    let ws := l.map (fun p => (p.2, leBytes (w / 8) (vget v w p.1)))
    match s.missLine t (l.map Prod.snd) with
    | some line => s.stall t (.cacheLine line) i
    | none =>
      let cached := ws.filter (fun p => isCached t p.1)
      let rest := (ws.filter (fun p => !isCached t p.1)).drop (s.ctx t).sent
      let fin := fun (s : State) => (fold s).advance t 4
      match s.creditFault t rest with
      | some (d, a) => s.fault t 0x12 d a
      | none =>
        if !rest.isEmpty && 16 ≤ s.postedCount t then s.stall t .postedRoom i
        else
          let s1 := (s.takeSide t (cached.map Prod.fst)).culmStores t cached
          s1.sendElems t i s1.nextId fin rest (s.ctx t).sent)

/-- VST (R158). -/
def execVst (t : Tid) (m : VMem) (s : State) : Out := s.issue t 4 (fun s => s.vstore t (.vst t m) m .unit)
/-- VSTS (R158). -/
def execVsts (t : Tid) (m : VMem) (s : State) : Out := s.issue t 4 (fun s => s.vstore t (.vsts t m) m .stride)
/-- VSCAT (R158, R159). -/
def execVscat (t : Tid) (m : VMem) (s : State) : Out := s.issue t 4 (fun s => s.vstore t (.vscat t m) m .index)

end Sys2Proof.Machine
end

