-- ==== Sys2Proof/Machine/Mma.lean ====
section
/-! DEFINITION. Matrix arithmetic: tile formats, operand checks and the passes of an MMA (R166 to R169, R177, R181, R194
to R198, R205). -/

namespace Sys2Proof.Machine

/-! ## Tiles (R165, R166) -/

/-- Bits of an element of a tile format (Table 10 of chapter 6). -/
def efmtBits (e : Nat) : Nat := [0, 32, 32, 16, 16, 8, 8, 8, 8, 8, 8, 6, 6, 4, 8, 0].getD e 0
/-- Whether a tile format is an MX format. -/
def efmtMx (e : Nat) : Bool := 9 ≤ e && e ≤ 14
/-- Bytes of a row. -/
def Tile.rowBytes (x : Tile) : Nat := x.cols * efmtBits x.efmt / 8
/-- Bytes of the scales of a tile's data. -/
def Tile.scaleBytes (x : Tile) : Nat := x.rows * x.cols / 32
/-- Whether a tile is EMPTY. -/
def Tile.isEmpty (x : Tile) : Bool := x.efmt = 0
/-- `n` bytes of tile data or of a scale area. -/
def bytesFrom (m : Sparse Byte) (a n : Nat) : List Byte := (List.range n).map (fun i => sget 0 m (a + i))
/-- Writes bytes into tile data or a scale area. -/
def bytesTo (m : Sparse Byte) (a : Nat) (d : List Byte) : Sparse Byte := d.zipIdx.foldl (fun m p => sput 0 m (a + p.2) p.1) m
/-- Element (r, c) of a tile. -/
def Tile.elem (x : Tile) (r c : Nat) : Nat :=
  let w := efmtBits x.efmt
  let bit := r * (x.rowBytes * 8) + c * w
  leNat (bytesFrom x.data (bit / 8) 5) / 2 ^ (bit % 8) % 2 ^ w
/-- Scale byte `i` of a tile. -/
def Tile.scaleAt (x : Tile) (i : Nat) : Nat := (sget 0 x.scale i).toNat

/-- A layout word, if it is valid: rows, columns and format (R166). -/
def layoutOf (w : Word) : Option (Nat × Nat × Nat) :=
  let rows := field w 0 9
  let cols := field w 12 9
  let e := field w 24 4
  let bits := cols * efmtBits e
  if rows = 0 ∨ 256 < rows ∨ cols = 0 ∨ 256 < cols ∨ e = 0 ∨ e = 0xF then none
  else if bits % 8 ≠ 0 ∨ 128 < bits / 8 ∨ 4096 < rows * (bits / 8) then none
  else if (e = 0xB ∨ e = 0xC) ∧ cols % 4 ≠ 0 then none
  else if field w 9 3 ≠ 0 ∨ field w 21 3 ≠ 0 ∨ field w 28 4 ≠ 0 then none
  else some (rows, cols, e)

/-- Tile `n` of a core. -/
def Core.tile (c : Core) (n : Nat) : Tile := sget {} c.tiles n
def Core.setTile (c : Core) (n : Nat) (x : Tile) : Core := { c with tiles := sput {} c.tiles n x }

/-! ## Formats and shapes (R167, R181) -/

/-- A format code's A, B and accumulator formats, MAC per core cycle and Kmax (Table 11 of chapter 6). -/
structure MmaFmt where
  a : Nat
  b : Nat
  acc : Nat
  rate : Nat
  kmax : Nat
deriving DecidableEq, Repr

/-- The rows of Table 11; none for a reserved code. -/
def mmaFmt (f : Nat) : Option MmaFmt :=
  match f with
  | 0x00 => some ⟨5, 5, 1, 1024, 128⟩ | 0x01 => some ⟨5, 6, 1, 1024, 128⟩
  | 0x02 => some ⟨6, 5, 1, 1024, 128⟩ | 0x03 => some ⟨6, 6, 1, 1024, 128⟩
  | 0x04 => some ⟨7, 7, 2, 1024, 128⟩ | 0x05 => some ⟨8, 7, 2, 1024, 128⟩
  | 0x06 => some ⟨7, 8, 2, 1024, 128⟩ | 0x07 => some ⟨8, 8, 2, 1024, 128⟩
  | 0x08 => some ⟨3, 3, 1, 512, 64⟩ | 0x09 => some ⟨4, 4, 1, 512, 64⟩
  | 0x0A => some ⟨9, 9, 1, 1024, 128⟩ | 0x0B => some ⟨10, 10, 1, 1024, 128⟩
  | 0x0C => some ⟨11, 11, 1, 1024, 128⟩ | 0x0D => some ⟨12, 12, 1, 1024, 128⟩
  | 0x0E => some ⟨13, 13, 1, 2048, 256⟩ | 0x0F => some ⟨14, 14, 1, 1024, 128⟩
  | 0x10 => some ⟨3, 3, 1, 512, 64⟩ | 0x11 => some ⟨3, 3, 1, 512, 64⟩
  | _ => none

/-- Operand registers of each side: pieces of S2 and S3. -/
def mmaPieces (f : Nat) : Nat := if f = 0x10 then 2 else if f = 0x11 then 3 else 1
/-- The passes as (A piece, B piece), in order (R181). -/
def mmaPasses (f : Nat) : List (Nat × Nat) :=
  if f = 0x10 then [(1, 0), (0, 1), (0, 0)]
  else if f = 0x11 then [(2, 0), (1, 1), (0, 2), (1, 0), (0, 1), (0, 0)]
  else [(0, 0)]

/-- M, N and K of an MMA (Table 12 of chapter 6). -/
def mmaMnk (m : MmaOp) (f : MmaFmt) : Nat × Nat × Nat :=
  (32 >>> field m.shape 4 2, 32 >>> field m.shape 2 2, f.kmax >>> field m.shape 0 2)

/-- Array core cycles of one fragment's MMA (R171). -/
def mmaCycles (m : MmaOp) (f : MmaFmt) : Nat := max ((mmaMnk m f).2.2 * 1024 / f.rate * (mmaPasses m.fmt.toNat).length) 16

/-! ## Checks at issue (R168, R169) -/

/-- The tile engine's reasons (R169). -/
def rNotOwner : Nat := 1
def rEmpty : Nat := 2
def rPartial : Nat := 3
def rFormat : Nat := 4
def rDimension : Nat := 5
def rNoScale : Nat := 6
def rAlias : Nat := 7
def rLayout : Nat := 8
def rProgress : Nat := 9
def rRange : Nat := 10

/-- Whether a context owns a tile. -/
def Core.owns (c : Core) (k n : Nat) : Bool := field c.town (4 * n) 4 = k

/-- The reason a tag fails an operand check, if it does. -/
def Tile.tagFault (x : Tile) (e rows cols : Nat) : Option Nat :=
  if x.isEmpty then some rEmpty
  else if x.part then some rPartial
  else if x.efmt ≠ e then some rFormat
  else if x.rows ≠ rows ∨ x.cols ≠ cols then some rDimension
  else if efmtMx e ∧ !x.hasScale then some rNoScale
  else none

/-- The tiles an MMA reads on each side. -/
def mmaAs (m : MmaOp) : List Nat := (List.range (mmaPieces m.fmt.toNat)).map (m.ta.toNat + ·)
def mmaBs (m : MmaOp) : List Nat := (List.range (mmaPieces m.fmt.toNat)).map (m.tb.toNat + ·)

/-- The first failure of an MMA's checks after the encoding: register and reason. With `bless` the B registers are
checked for ownership only (R178). -/
def Core.mmaFault (c : Core) (k : Nat) (m : MmaOp) (f : MmaFmt) (bless : Bool) : Option (Nat × Nat) :=
  let (M, N, K) := mmaMnk m f
  let td := m.td.toNat
  let n := mmaPieces m.fmt.toNat
  if 16 < m.ta.toNat + n then some (m.ta.toNat, rRange)
  else if 16 < m.tb.toNat + n then some (m.tb.toNat, rRange)
  else if efmtMx f.a ∧ K < 32 then some (m.ta.toNat, rDimension)
  else
    match (td :: (mmaAs m ++ mmaBs m)).find? (fun i => !c.owns k i) with
    | some i => some (i, rNotOwner)
    | none =>
      let tags := (td, f.acc, M, N) :: ((mmaAs m).map (fun i => (i, f.a, M, K)) ++ (if bless then [] else (mmaBs m).map (fun i => (i, f.b, K, N))))
      match tags.findSome? (fun (i, e, r, cl) => ((c.tile i).tagFault e r cl).map (fun why => (i, why))) with
      | some x => some x
      | none => if (mmaAs m ++ mmaBs m).contains td then some (td, rAlias) else none

/-! ## Arithmetic (R194 to R198, R205) -/

/-- The value of a tile element, with scale byte `sc` for an MX format, and whether FTZ flushed it. -/
def tileValue (e : Nat) (ftz : Bool) (sc w : Nat) : FV × Bool :=
  let fp := fun (f : FpFmt) => let r := f.input ftz w; (r.1, r.2 != 0)
  let mx := fun (m : MxTy) => let r := mxValue m ftz sc w; (r.1, r.2 != 0)
  match e with
  | 1 => fp fmt32
  | 3 => fp fmtBf16
  | 4 => fp fmt16
  | 5 => fp fmtE4M3
  | 6 => fp fmtE5M2
  | 9 => mx .e4m3
  | 10 => mx .e5m2
  | 11 => mx .e2m3
  | 12 => mx .e3m2
  | 13 => mx .e2m1
  | 14 => mx .int8
  | _ => (.nan false, false)

/-- The integer value of an INT8 or UINT8 element. -/
def tileInt (e w : Nat) : Int := if e = 7 then sgn 8 w else (w : Int)

/-- The coefficient k of Table 6 of chapter 7. -/
def passK (K : Nat) : Nat := if K ≤ 32 then 2 else 1 + K / 32

/-- What one output element of a pass gives: its encoding, whether it is invalid, overflows or is flushed. -/
structure ElemOut where
  d : Nat
  invalid : Bool := false
  ovf : Bool := false
  flush : Bool := false

/-- Output element of a floating pass from c, the products' operands and a candidate (R194, R197, R198). -/
def passElem (ftz : Bool) (c : FV) (ps : List (FV × FV)) (cand : Nat) : ElemOut :=
  if c.isNan || ps.any (fun p => p.1.isNan || p.2.isNan) then { d := fmt32.nan }
  else
    let infs := ps.filter (fun p => p.1.isInf || p.2.isInf)
    let signs := infs.map (fun p => p.1.sign != p.2.sign) ++ (if c.isInf then [c.sign] else [])
    if infs.any (fun p => p.1.isZero || p.2.isZero) || (signs.contains true && signs.contains false) then
      { d := fmt32.nan, invalid := true }
    else match signs with
      | n :: _ => { d := fmt32.infOut n }
      | [] =>
        let prods := ps.map (fun p => p.1.dy.mul p.2.dy)
        let exact := prods.foldl Dy.add c.dy
        let mag := prods.foldl (fun r p => r.add p.abs) Dy.zero
        let K := ps.length
        let tiny := fun (x : Dy) => x.abs.lt ⟨1, -126⟩
        let base := ((mag.mul (Dy.ofNat (passK K))).add c.dy.abs).scale (-24)
        let small := prods.any (fun p => p.m != 0 && tiny p) || (tiny exact && (exact.m != 0 || mag.m != 0))
        let bound := if !small then base
          else if ftz then base.add ⟨(K : Int) + 1, -126⟩ else base.add ⟨(K : Int), -149⟩
        let r := fmt32.bounded ftz cand exact bound
        { d := r.1, ovf := r.2 &&& fOVF != 0, flush := r.2 &&& fFLUSH != 0 }

/-- What a pass gives over a whole D fragment: encodings in row-major order, first invalid position, flags and counts,
and whether the sentinel checks it (R180). -/
structure PassOut where
  d : List Nat
  invalidAt : Option (Nat × Nat) := none
  ovf : Bool := false
  /-- elements flushed: inputs and results -/
  flushes : Nat := 0
  checked : Bool := true

/-- The value of A element (r, k) with its flush, and of B element (k, n). -/
def Tile.aVal (x : Tile) (ftz : Bool) (K r k : Nat) : FV × Bool := tileValue x.efmt ftz (x.scaleAt (r * (K / 32) + k / 32)) (x.elem r k)
def Tile.bVal (x : Tile) (ftz : Bool) (N k n : Nat) : FV × Bool := tileValue x.efmt ftz (x.scaleAt (k / 32 * N + n)) (x.elem k n)

/-- One pass: D += A · B on M × N × K, with 32 candidate bits for each element. -/
def mmaPass (int ftz : Bool) (M N K : Nat) (c : List Nat) (a b : Tile) (cand : Nat) : PassOut :=
  if int then
    { d := (List.range (M * N)).map (fun i =>
        let dot := (List.range K).foldl (fun r k => r + tileInt a.efmt (a.elem (i / N) k) * tileInt b.efmt (b.elem k (i % N))) (0 : Int)
        wrap 32 ((c.getD i 0 : Int) + dot)) }
  else
    let av := (List.range M).map (fun r => (List.range K).map (a.aVal ftz K r))
    let bv := (List.range N).map (fun n => (List.range K).map (fun k => b.bVal ftz N k n))
    let cs := c.map (fmt32.input ftz)
    let outs := (List.range (M * N)).map (fun i =>
      let row := (av.getD (i / N) []).map Prod.fst
      let col := (bv.getD (i % N) []).map Prod.fst
      passElem ftz (cs.getD i (.fin false 0 0, 0)).1 (row.zip col) (cand / 2 ^ (32 * i) % 2 ^ 32))
    let ins := (av.flatten ++ bv.flatten)
    { d := outs.map ElemOut.d,
      invalidAt := ((List.range (M * N)).find? (fun i => match outs[i]? with | some o => o.invalid | none => false)).map (fun i => (i / N, i % N)),
      ovf := outs.any ElemOut.ovf,
      flushes := (ins.filter Prod.snd).length + (cs.filter (fun p => p.2 != 0)).length + (outs.filter ElemOut.flush).length,
      checked := !(ins.any (fun p => p.1.isNan || p.1.isInf)) && outs.all (fun o => match fmt32.decode o.d with | .fin _ _ _ => true | _ => false) }

/-- The union of two passes' reports over the later D. -/
def PassOut.join (p q : PassOut) : PassOut :=
  { d := q.d, ovf := p.ovf || q.ovf, flushes := p.flushes + q.flushes, checked := p.checked || q.checked,
    invalidAt := match p.invalidAt, q.invalidAt with
      | some (r, c), some (r', c') => if r < r' ∨ (r = r' ∧ c ≤ c') then some (r, c) else some (r', c')
      | some x, none => some x
      | none, y => y }

/-- The passes one after another, each with its own candidates from `cand` (R195). -/
def mmaPassesRun (int ftz : Bool) (M N K : Nat) (cand : Nat → Nat) : List (Tile × Tile) → (n : Nat) → PassOut → PassOut
  | [], _, p => p
  | (a, b) :: l, n, p =>
    mmaPassesRun int ftz M N K cand l (n + 1) (p.join (mmaPass int ftz M N K p.d a b (cand n)))

end Sys2Proof.Machine
end

