-- ==== Sys2Proof/Machine/Thallus.lean ====
section
/-! DEFINITION. Thallus spatial mode: tokens and queues, the firing of units, waves, purges and their faults (chapter
11). -/

namespace Sys2Proof.Machine

/-! ## The array of a region (R289, R290, R313) -/

/-- Fields of an array header (Table 4 of chapter 11). -/
def State.arr (s : State) (r : Nat) : List Byte := (s.region r).array
def arrCtrl (h : List Byte) : Nat := fld h 0 1
def arrMax (h : List Byte) : Nat := fld h 1 1
def arrClass (h : List Byte) : Nat := fld h 2 1 % 4
def arrWaves (h : List Byte) : Nat := fld h 4 4
def arrCommit (h : List Byte) : Nat := fld h 24 4
def arrLimit (h : List Byte) : Nat := fld h 36 4

/-- The Thallus state of a tiller. -/
def State.th (s : State) (T : Nat) : Thallus := (s.tiller T).th
def State.modTh (s : State) (T : Nat) (f : Thallus → Thallus) : State := s.modTiller T (fun x => { x with th := f x.th })

/-- Kind, index and place of a unit handle (R290). -/
def uKind (h : Nat) : Nat := h % 8
def uIndex (h : Nat) : Nat := h / 8 % 4
def uPlace (h : Nat) : Nat := h / 64
/-- The tiller of a unit: its core's, or its own. -/
def uTiller (h : Nat) : Nat := if uKind h ≤ 2 then uPlace h / 16 else uPlace h

/-- The units of a region. -/
def State.regionUnits (s : State) (r : Nat) : List Nat :=
  (s.units.filter (fun p => p.2.valid && (s.regionTillers r).contains (uTiller p.1))).map Prod.fst

/-- Queue `q` of tiller `T`. -/
def State.queue (s : State) (T q : Nat) : TQueue := sget {} (s.th T).queues q
def State.modQueue (s : State) (T q : Nat) (f : TQueue → TQueue) : State :=
  s.modTh T (fun x => { x with queues := sput {} x.queues q (f (sget {} x.queues q)) })

/-- The queue that feeds an input port of a unit. -/
def State.inQueue (s : State) (u p : Nat) : Option Nat :=
  ((s.th (uTiller u)).queues.find? (fun e => e.2.valid && e.2.consumer = u && e.2.cport = p)).map Prod.fst

/-- The queues that an output port of a unit feeds. -/
def State.outQueues (s : State) (u p : Nat) : List (Nat × Nat) :=
  s.tillers.flatMap (fun t =>
    (t.2.th.queues.filter (fun e => e.2.valid && e.2.producer = u && e.2.pport = p)).map (fun e => (t.1, e.1)))

/-- The tokens queued at an input port. -/
def State.tokensAt (s : State) (u p : Nat) : List Token :=
  match s.inQueue u p with | some q => (s.queue (uTiller u) q).tokens | none => []

/-- Pops `n` tokens of an input port: each pop sends its credit back with the tiller's epoch (R292, R307). -/
def State.popTokens (s : State) (u p n : Nat) : State :=
  match s.inQueue u p with
  | some q =>
    let e := (s.th (uTiller u)).epoch
    s.modQueue (uTiller u) q (fun x => { x with tokens := x.tokens.drop n, returning := x.returning ++ List.replicate n e })
  | none => s

/-- Whether every queue of an output port has `n` credits (R292). -/
def State.creditsAt (s : State) (u p n : Nat) : Bool := (s.outQueues u p).all (fun q => decide (n ≤ (s.queue q.1 q.2).credits))

/-- Sends tokens on an output port, to each of its queues, with the unit's epoch (R292, R295). -/
def State.sendTokens (s : State) (u p : Nat) (l : List Token) : State :=
  let e := (s.th (uTiller u)).epoch
  forAll (s.outQueues u p) s (fun s q =>
    s.modQueue q.1 q.2 (fun x => { x with credits := x.credits - l.length, transit := x.transit ++ l.map (fun t => { t with epoch := e }) }))

/-- Whether a tiller's part of an array works: it is in THALLUS mode and its clock runs. -/
def State.thOn (s : State) (T : Nat) : Bool := s.up && s.clockOn (tillerHalf T) && (s.th T).on

/-- TOKEN_ARRIVE (R293, R307): the oldest token on its way to a queue joins it, or is dropped as stale. -/
def execTokenArrive (tiller queue : Nat) (s : State) : Out :=
  onUnit (tiller < 64 && queue < 512) "token queue" <|
    match (if s.up then (s.queue tiller queue).transit else []) with
    | [] => s
    | t :: rest =>
      let s1 := s.modQueue tiller queue (fun x => { x with transit := rest })
      if (s.th tiller).on && t.epoch = (s.th tiller).epoch then s1.modQueue tiller queue (fun x => { x with tokens := x.tokens ++ [t] })
      else s1.modTh tiller (fun x => { x with stale := satAdd 16 x.stale 1 })

/-- TOKEN_CREDIT_RETURN (R292, R307): the oldest credit on its way back reaches its producer, or is discarded as
stale. -/
def execTokenCreditReturn (tiller queue : Nat) (s : State) : Out :=
  onUnit (tiller < 64 && queue < 512) "token queue" <|
    match (if s.up then (s.queue tiller queue).returning else []) with
    | [] => s
    | e :: rest =>
      let ok := (s.th (uTiller (s.queue tiller queue).producer)).epoch = e
      s.modQueue tiller queue (fun x => { x with returning := rest, credits := if ok then x.credits + 1 else x.credits })

/-! ## Purge and stop (R307 to R311) -/

/-- Begins a purge of a region's array in a controller state (R308). -/
def State.purgeStart (s : State) (r : Nat) (st : WaveState) (err : Nat) : State :=
  let c := arrCtrl (s.arr r)
  let s1 := forAll (s.regionTillers r) s (fun s T => s.modTh T (fun x => { x with purging := true }))
  s1.modTh c (fun x =>
    { x with stopAfter := if st = .replaying then (x.stopAfter || x.st == .stopped) else false, st := st,
             err := if st = .replaying then x.err else err, watched := false, watchLeft := [], mirrored := false, mirrorLeft := [] })

/-- Stops an array with an error, as an ABORT (R309, R311). -/
def State.arrayStop (s : State) (r err : Nat) : State :=
  let st := (s.th (arrCtrl (s.arr r))).st
  if st = .running ∨ st = .stopped ∨ st = .replaying then s.purgeStart r .aborting err else s

/-- The health-log entry of a fault or error of an array. -/
def arrayEntry (T unit cause action wave : Nat) (masked persistent lost : Bool) (detail : Nat) : Report :=
  { source := 9, cause, action, masked, persistent, lost, node := tillerNode T, unit, stepId := wave, detail }

/-- An error that stops an array, with its entry (R298, R301, R306). -/
def State.arrayError (s : State) (r unit err : Nat) : State :=
  let c := arrCtrl (s.arr r)
  (s.log (arrayEntry c unit 0 9 ((s.th c).inflight.headD (0, 0, [])).1 false false false err)).arrayStop r err

/-- The runtime state of a unit after a purge or reload, before wave `w` (R295, R308). -/
def Unit.afresh (x : Unit) (w : Nat) : Unit := { valid := x.valid, rec' := x.rec', wave := w }

/-- Each tiller's part of a purge (R308 step 3). -/
def State.purgeTiller (s : State) (T : Nat) : State :=
  let gone := (s.th T).queues.foldl (fun n e => n + e.2.tokens.length) 0
  s.modTh T (fun x =>
    { x with epoch := (x.epoch + 1) % 16, purged := satAdd 32 x.purged gone, purging := false,
             queues := x.queues.foldl (fun m e => sput {} m e.1 { e.2 with tokens := [], credits := e.2.depth }) [] })

/-- ARRAY_PURGE_EPOCH_ACK (R308): once no token of an older epoch is in transit, every tiller takes the new epoch; the
array is then ABORTED, or replays from its oldest uncommitted wave (R309, R311, R312). -/
def execArrayPurgeEpochAck (region : Nat) (s : State) : Out :=
  onUnit (region < 16) "region" <|
    let T := arrCtrl (s.arr region)
    let tills := s.regionTillers region
    let th := s.th T
    let older := tills.any (fun t => (s.th t).queues.any (fun e => e.2.transit.any (fun k => k.epoch ≠ (s.th t).epoch)))
    let held := match th.spareFor with | some c => th.st = .replaying && (s.tiller (c / 16)).takeover = some (c % 16) | none => false
    if !s.up || !(tills.any (fun t => (s.th t).purging)) || older || held then s
    else
      let w := if th.st = .replaying then (th.inflight.headD (th.wave, 0, [])).1 else th.wave
      let s1 := forAll (s.regionUnits region) s (fun s u => s.modUnit u (fun x => x.afresh w))
      let s2 := forAll tills s1 State.purgeTiller
      s2.modTh T (fun x =>
        if x.st = .replaying then { x with st := if x.stopAfter then .stopped else .running, stopAfter := false, spareFor := none }
        else { x with st := if x.st = .aborting then .aborted else x.st, inflight := [] })

/-! ## Commands of the wave controller (R309, Table 12 of chapter 11) -/

/-- The operation of a `THS_WCTL` write at the tiller of a region's controller. -/
def State.waveCommand (s : State) (r op : Nat) : State :=
  let c := arrCtrl (s.arr r)
  let st := (s.th c).st
  match op with
  | 1 =>
    if st = .idle ∨ st = .done ∨ st = .aborted then
      (forAll (s.regionUnits r) s (fun s u => s.modUnit u (fun x => x.afresh 0))).modTh c
        (fun x => { x with st := .running, wave := 0, replays := 0, err := 0, inflight := [], stopAfter := false, watched := false, mirrored := false })
    else s
  | 2 => s.modTh c (fun x => if x.st = .running then { x with st := .stopped } else x)
  | 3 => s.modTh c (fun x => if x.st = .stopped then { x with st := .running } else x)
  | 4 => s.arrayStop r 6
  | _ => s

/-- A write of `THS_WCTL` at level 1: the field is kept, and acts where the tiller runs a controller. -/
def State.writeWctl (s : State) (T : Nat) (w : Word) : State :=
  let s1 := s.modTh T (fun x => { x with wctl := field w 0 3 })
  match s.regionOf T with
  | some r => if (s.region r).array ≠ [] ∧ arrCtrl (s.arr r) = T then s1.waveCommand r (field w 0 3) else s1
  | none => s1

/-- A command of a region's wave controller. -/
def State.thsWrite (s : State) (r op : Nat) : Out :=
  onUnit (r < 16) "region" <|
    let T := arrCtrl (s.arr r)
    if (s.region r).array ≠ [] ∧ s.reachable (tillerNode T) then s.writeWctl T (word op) else s

/-- THS_START (R309). -/
def execThsStart (region : Nat) (s : State) : Out := s.thsWrite region 1
/-- THS_STOP (R309). -/
def execThsStop (region : Nat) (s : State) : Out := s.thsWrite region 2
/-- THS_RESUME (R309). -/
def execThsResume (region : Nat) (s : State) : Out := s.thsWrite region 3
/-- THS_ABORT (R309). -/
def execThsAbort (region : Nat) (s : State) : Out := s.thsWrite region 4

/-! ## Waves (R302, R303) -/

/-- WAVE_START (R302): the controller starts the next wave; its message reaches every tiller at once (log entry 21). -/
def execWaveStart (region : Nat) (s : State) : Out :=
  onUnit (region < 16) "region" <|
    let h := s.arr region
    let T := arrCtrl h
    let th := s.th T
    let w := th.wave
    let ok := fun (i : Nat) => !(fld h 14 1).testBit i
      || reached (s.evc T (fld h (8 + i) 1)) ((fld h (16 + 4 * i) 4 + w * fld h (10 + 2 * i) 2) % 2 ^ 32)
    if h = [] || !s.thOn T || th.st != .running || !(decide (th.inflight.length < arrMax h)) || !ok 0 || !ok 1
        || !(arrWaves h = 0 || decide (w < arrWaves h)) then s
    else s.modTh T (fun x => { x with wave := w + 1, inflight := x.inflight ++ [(w, 0, [])] })

/-- Whether every unit has ended a wave and its writes have arrived (R303). -/
def State.waveEnded (s : State) (r w : Nat) : Bool :=
  (s.regionUnits r).all (fun u => let x := s.unitOf u; decide (w < x.wave) && !(x.outbox.any (fun o => o.1 ≤ w)))

/-- The array's commit list at its commit; none where it cannot be read or is invalid. -/
def State.waveList (s : State) (r : Nat) : Option (List CommitEntry) :=
  let h := s.arr r
  if arrCommit h = 0xFFFFFFFF then some []
  else match s.readCommit (arrCtrl h) { op := 0x20, commit := arrCommit h } with
    | .ok l => some l
    | .error _ => none

/-- The last part of a wave's commit (R303). -/
def State.waveEnd (s : State) (r w : Nat) (es : List CommitEntry) : State :=
  let T := arrCtrl (s.arr r)
  let covered := if (s.th T).mirrored && s.mirrorUp then s.mirrorPairs T es else []
  let s1 := s.modTh T (fun x => { x with inflight := x.inflight.drop 1, watched := false, mirrored := false })
  let e := s1.runCommit T es covered
  if !e.2 then e.1.arrayError r 0xFFFF 9
  else if arrWaves (s.arr r) = w + 1 then e.1.modTh T (fun x => { x with st := .done }) else e.1

/-- Goes on with the commit of the oldest wave: the watch, the mirroring, the commit list (R303, R413, R435). -/
def State.waveGo (s : State) (r w : Nat) : (fuel : Nat) → State
  | 0 => s
  | fuel + 1 =>
    let T := arrCtrl (s.arr r)
    let th := s.th T
    if !th.watched then
      let l := (s.watchMatch T 0xFFFFFFFF w)
      (s.modTh T (fun x => { x with watched := true, watchLeft := l })).waveGo r w fuel
    else match th.watchLeft with
      | i :: _ =>
        match s.watchAct T i ⟨w % 2 ^ 32, w % 65536, 0xFF, decide (0 < (th.inflight.headD (0, 0, [])).2.1), 0xFFFFFFFF, 0xFFFFFFFF⟩ with
        | .ok s1 => s1
        | .error a => s.reportFault T (.uncorrectable a) none
      | [] =>
        match s.waveList r with
        | none => s.arrayError r 0xFFFF 9
        | some es =>
          let ps := s.mirrorPairs T es
          if !th.mirrored then
            if ps.any (fun p => (s.pair T p).background ≠ 0) then s
            else
              let s1 := if !ps.isEmpty && !s.mirrorUp then s.mirrorFails else s
              let todo := if s.mirrorUp then ps.map (·, false) else []
              (s1.modTh T (fun x => { x with mirrored := true, mirrorLeft := todo })).waveGo r w fuel
          else if th.mirrorLeft.isEmpty then s.waveEnd r w es else s

/-- Whether the oldest wave of a region may commit. -/
def State.waveReady (s : State) (r : Nat) : Option Nat :=
  let th := s.th (arrCtrl (s.arr r))
  match th.inflight with
  | (w, _, _) :: _ => if (th.st = .running || th.st = .stopped) && s.waveEnded r w then some w else none
  | [] => none

/-- WAVE_COMMIT (R303). -/
def execWaveCommit (region : Nat) (s : State) : Out :=
  onUnit (region < 16) "region" <|
    let th := s.th (arrCtrl (s.arr region))
    match s.waveReady region with
    | some w => if s.thOn (arrCtrl (s.arr region)) && th.watchLeft.isEmpty && th.mirrorLeft.isEmpty then s.waveGo region w 4 else s
    | none => s

/-- A watch record of a tiller's wave has arrived (R435). -/
def State.waveWatchArrived (s : State) (T : Nat) : State :=
  match s.regionOf T with
  | some r =>
    match s.waveReady r with
    | some w => if arrCtrl (s.arr r) = T && !(s.th T).watchLeft.isEmpty then
        (s.modTh T (fun x => { x with watchLeft := x.watchLeft.drop 1 })).waveGo r w 4 else s
    | none => s
  | none => s

/-! ## Faults (R311, R312) -/

/-- The unit and cause of an array fault (Table 7 of chapter 10); an access error has no cause. -/
def waveFaultUnit (f : WaveFault) : Nat :=
  match f with | .sentinel u | .coreFault u | .uncorrectable u | .dmaError u => u.toNat | .access _ => 0xFFFF
def waveFaultCause (f : WaveFault) : Nat :=
  match f with | .sentinel _ => 1 | .coreFault _ => 2 | .uncorrectable _ => 3 | .dmaError _ => 4 | .access _ => 0
/-- The core a fault is attributed to: of an M-, F- or S-unit, for a sentinel or core fault. -/
def waveFaultCore (f : WaveFault) : Option Nat :=
  match f with
  | .sentinel u | .coreFault u => if uKind u.toNat ≤ 2 then some (uPlace u.toNat) else none
  | _ => none

/-- Withdrawal cause CORE_SPARES for a fault in an array, as for a step (Table 5 of chapter 15). -/
def State.waveDamage (s : State) (f : WaveFault) (limit : Bool) : State :=
  match waveFaultCore f with
  | some c => if (s.tiller (c / 16)).spareLost || (limit && !s.spareFree (c / 16)) then s.damage 2 else s
  | none => s

/-- WAVE_FAULT (R311, R312): attributed to the oldest wave in flight; by CLASS the array stops, or purges and replays;
the fourth fault of a wave is FAULT_LIMIT; any other error response stops it with 0x10 + n. -/
def execWaveFault (region : Nat) (f : WaveFault) (s : State) : Out :=
  onUnit (region < 16) "region" <|
    let h := s.arr region
    let T := arrCtrl h
    let th := s.th T
    let u := waveFaultUnit f
    let cause := waveFaultCause f
    if h = [] || !s.up then s
    else match th.inflight, f with
      | [], _ => s.log (arrayEntry T u cause 0xA 0 false false false 0)
      | _, .access n => if th.st = .running ∨ th.st = .stopped ∨ th.st = .replaying then s.arrayError region 0xFFFF (0x10 + n)
        else s.log (arrayEntry T u 0 0xA (th.inflight.headD (0, 0, [])).1 false false false (0x10 + n))
      | (w, n, blamed) :: rest, _ =>
        let s1 := s.modTh T (fun x => { x with faultWave := w, faultCause := cause, faultUnit := u, faultSpare := false })
        if th.st = .aborting then s1.log (arrayEntry T u cause 0xA w false false false 0)
        else if arrClass h = 0 then (s1.log (arrayEntry T u cause 9 w false false (cause = 3) 0)).arrayStop region 4 |>.waveDamage f false
        else if 3 ≤ n then (s1.log (arrayEntry T u cause 9 w false false (cause = 3) 0)).arrayStop region 3 |>.waveDamage f true
        else
          let phys := (waveFaultCore f).map (fun c => (c / 16, s.physOf (c / 16) (c % 16)))
          let spare := match waveFaultCore f, phys with
            | some c, some p => s.spareFree (c / 16) && (arrClass h = 2 || blamed.contains p)
            | _, _ => false
          let s2 := s1.log (arrayEntry T u cause (if spare then 4 else 3) w true spare false 0)
          let s3 := s2.modTh T (fun x =>
            { x with inflight := (w, n + 1, phys.toList ++ blamed) :: rest,
                     spareFor := if spare then waveFaultCore f else x.spareFor, faultSpare := spare })
          let s4 := match spare, waveFaultCore f with | true, some c => s3.startTakeover (c / 16) (c % 16) | _, _ => s3
          let s4 := s4.waveDamage f false
          if th.st = .replaying then s4
          else (s4.modTh T (fun x => { x with replays := satAdd 8 x.replays 1 })).purgeStart region .replaying 0

/-- WAVE_TIMEOUT (R306): a wave in flight beyond WAVE_LIM stops the array. -/
def execWaveTimeout (region : Nat) (s : State) : Out :=
  onUnit (region < 16) "region" <|
    let h := s.arr region
    let th := s.th (arrCtrl h)
    if s.up && h != [] && arrLimit h != 0 && !th.inflight.isEmpty && (th.st = .running || th.st = .stopped) then s.arrayError region 0xFFFF 0xC
    else s

/-! ## Firing (R295 to R301) -/

/-- A token of data. -/
def dataToken (d : List Byte) (last : Bool) : Token := ⟨d, 0, last, false⟩
/-- A NULL token with LAST. -/
def nullToken : Token := ⟨List.replicate 64 0, 0, true, true⟩
/-- Marks the last token of a list as the wave's last. -/
def markLast (l : List Token) (last : Bool) : List Token :=
  l.zipIdx.map (fun p => { p.1 with last := last && p.2 + 1 = l.length })
/-- The condition a token holds (R291). -/
def Token.cond (t : Token) : Bool := match t.data with | b :: _ => b.getLsbD 0 | [] => false
/-- The bytes of tokens; the data of a NULL token is open. -/
def State.tokenBytes (s : State) (l : List Token) : List Byte × State :=
  l.foldl (fun (r : List Byte × State) t =>
    if t.null then let (b, s1) := r.2.draw 512; (r.1 ++ leBytes 64 b.toNat, s1) else (r.1 ++ t.data, r.2)) ([], s)

/-- Whether LAST stands where a record's FIRES puts it in the tokens that one input gives a firing: on the last token if
the input ends its wave here (`ends`), else nowhere (R301). -/
def lastFits (l : List Token) (ends : Bool) : Bool :=
  l.zipIdx.all (fun p => p.1.last = (ends && p.2 + 1 = l.length))

/-- The start of the half that an S- or P-unit's record names, beside which BASE or ADDR counts (Table 6 of chapter
11). -/
def State.unitBase (s : State) (u : Nat) (x : Unit) : Nat :=
  let p := s.pair (uTiller u) (x.rec'.pair)
  let half := fun (shadow : Bool) => p.base + (if x.live != shadow then p.size else 0)
  if x.rec'.halfsel = 1 then half false + x.rec'.addr
  else if x.rec'.halfsel = 2 then half true + x.rec'.addr
  else if uKind u = 2 then clmAddr (uPlace u) x.rec'.addr else x.rec'.addr

/-- The address of block `pos` of an address generator (R298). -/
def State.unitAddr (s : State) (u : Nat) (x : Unit) : Nat :=
  let n := max 1 x.rec'.count0
  let k := x.pos % (n * max 1 x.rec'.count1)
  s.unitBase u x + k / n * x.rec'.stride1 + k % n * 64

/-- A unit begins its wave at its first firing: runtime state as its record gives it, the live half fixed (R295,
R302). -/
def State.unitBegin (s : State) (u : Nat) : State :=
  let x := s.unitOf u
  if x.begun then s
  else s.modUnit u (fun x =>
    { x with begun := true, live := (s.pair (uTiller u) x.rec'.pair).live, r0 := 0, r1 := 0, r2 := 0, resA := [], resB := [], acc := [],
             pos := 0, loopLeft := none, hold := none, seen := [] })

/-- The end of a firing: `ports` are the inputs that delivered LAST in it, `reads` those its operation reads. The unit
ends its wave after FIRES firings, or once every input has delivered LAST (R301). -/
def State.fireEnd (s : State) (u : Nat) (reads ports : List Nat) : State :=
  s.modUnit u (fun x =>
    let seen := x.seen ++ ports
    let waveOver := if x.rec'.fires = 0 then reads.all (seen.contains ·) else x.fired + 1 = x.rec'.fires
    if waveOver then { x with wave := x.wave + 1, fired := 0, begun := false, seen := [] }
    else { x with fired := x.fired + 1, seen := seen })

/-- Whether a firing is the last of its wave: `ports` deliver LAST in it. -/
def Unit.endsWith (x : Unit) (reads ports : List Nat) : Bool :=
  if x.rec'.fires = 0 then reads.all ((x.seen ++ ports).contains ·) else x.fired + 1 = x.rec'.fires

/-- A firing that takes `n` tokens of each input in `ins` and gives tokens on output 0: tokens, LAST, NULL and credits
are seen to here; `act` gives the output's tokens, or none where the firing cannot end yet. -/
def State.fireSimple (s : State) (r u : Nat) (ins : List (Nat × Nat)) (outN : Nat)
    (act : State → List (List Token) → Option (List (List Byte) × State)) : State :=
  let x := s.unitOf u
  let toks := ins.map (fun p => (s.tokensAt u p.1).take p.2)
  if (ins.zip toks).any (fun p => p.2.length ≠ p.1.2 && !(p.2.any Token.null)) then s
  else
    let taken := toks.map (fun l => match l with | t :: _ => if t.null then [t] else l | [] => [])
    let reads := ins.map Prod.fst
    let ports := ((reads.zip taken).filter (fun p => p.2.any Token.last)).map Prod.fst
    let ends := x.endsWith reads ports
    if x.rec'.fires ≠ 0 ∧ taken.any (fun l => !lastFits l ends) then s.arrayError r u 0xB
    else if !s.creditsAt u 0 outN then s
    else
      let pop := fun (s : State) => (reads.zip taken).foldl (fun s p => s.popTokens u p.1 p.2.length) s
      if !ins.isEmpty && taken.all (fun l => l.all Token.null) then
        ((pop s).sendTokens u 0 (if outN = 0 then [] else [nullToken])).fireEnd u reads ports
      else match act s taken with
        | none => s
        | some (l, s1) => ((pop s1).sendTokens u 0 (markLast (l.map (fun d => dataToken d false)) ends)).fireEnd u reads ports

/-! ### M-units (R296) -/

/-- Element bits and token counts of an M-unit's operands: A, B, C or D. -/
def mTokens (e elems : Nat) : Nat := (elems * efmtBits e + 511) / 512 + if efmtMx e then (elems + 2047) / 2048 else 0

/-- The operand of an M-unit's record as an MMA. -/
def Unit.mma (x : Unit) : MmaOp :=
  { td := 0, ta := 0, tb := 0, reuseA := false, reuseB := false, shape := bv 6 x.rec'.shape, fmt := bv 5 x.rec'.fmt }

/-- An operand tile from its tokens: data, then scales. -/
def State.mTile (s : State) (e rows cols : Nat) (l : List Token) : Tile × State :=
  let n := (rows * cols * efmtBits e + 511) / 512
  let d := s.tokenBytes (l.take n)
  let sc := d.2.tokenBytes (l.drop n)
  ({ data := bytesTo [] 0 d.1, scale := bytesTo [] 0 sc.1, rows := rows, cols := cols, efmt := e }, sc.2)

/-- Takes tokens of a port into the unit's buffer, up to `cap` (R296). -/
def State.mPull (s : State) (u p cap : Nat) : State :=
  let have' := (sget [] (s.unitOf u).stage p).length
  let l := (s.tokensAt u p).take (cap - have')
  if l.isEmpty then s
  else (s.popTokens u p l.length).modUnit u (fun x => { x with stage := sput [] x.stage p (sget [] x.stage p ++ l) })

/-- Sends what an M-unit or a LOOP holds for output 0, as far as credits go. -/
def State.mPush (s : State) (u : Nat) : (fuel : Nat) → State
  | 0 => s
  | fuel + 1 =>
    match (s.unitOf u).out with
    | t :: rest => if s.creditsAt u 0 1 then ((s.sendTokens u 0 [t]).modUnit u (fun x => { x with out := rest })).mPush u fuel else s
    | [] => s

/-- One operand of a firing from the unit's buffer: its tokens (one, where it is NULL), if all are there. -/
def Unit.operand (x : Unit) (p n : Nat) : Option (List Token) :=
  match sget [] x.stage p with
  | t :: l => if t.null then some [t] else if n ≤ (t :: l).length then some ((t :: l).take n) else none
  | [] => none

/-- The firing of an M-unit whose operands are all there and whose output buffer has room. -/
def State.mRun (s : State) (r u : Nat) (f : MmaFmt) : State :=
  let x := s.unitOf u
  let op := x.mma
  let (M, N, K) := mmaMnk op f
  let aRes := x.rec'.opt.testBit 0
  let bRes := x.rec'.opt.testBit 1
  let cIn := x.rec'.opt.testBit 2
  let g := max 1 x.rec'.kgroup
  let first := x.fired % g = 0
  let needA := !(aRes && x.fired != 0)
  let needB := !(bRes && x.fired != 0)
  let needC := cIn && first
  let a := if needA then x.operand 0 (mTokens f.a (M * K)) else some x.resA
  let b := if needB then x.operand 1 (mTokens f.b (K * N)) else some x.resB
  let c := if needC then x.operand 2 (M * N / 16) else some []
  match a, b, c with
  | some ta, some tb, some tc =>
    let used := (if needA then [(0, ta)] else []) ++ (if needB then [(1, tb)] else []) ++ (if needC then [(2, tc)] else [])
    let ports := (used.filter (fun p => p.2.any Token.last)).map Prod.fst
    let reads := [0, 1] ++ if cIn then [2] else []
    let ends := x.endsWith reads ports
    let portEnds := fun (p : Nat) =>
      if (p = 0 && aRes) || (p = 1 && bRes) then true
      else if p = 2 then x.rec'.fires ≠ 0 && x.fired / g = (x.rec'.fires - 1) / g else ends
    if x.rec'.fires ≠ 0 ∧ used.any (fun p => !lastFits p.2 (portEnds p.1)) then s.arrayError r u 0xB
    else
      let drop := fun (x : Unit) => used.foldl (fun (x : Unit) p => { x with stage := sput [] x.stage p.1 ((sget [] x.stage p.1).drop p.2.length) }) x
      if !used.isEmpty && used.all (fun p => p.2.all Token.null) then
        (s.modUnit u (fun x => { (drop x) with out := x.out ++ [nullToken], resA := ta, resB := tb })).fireEnd u reads ports
      else
        let A := s.mTile f.a M K ta
        let B := A.2.mTile f.b K N tb
        let C := B.2.tokenBytes tc
        let (cand, s1) := C.2.draw (32 * M * N)
        let acc := if needC then (List.range (M * N)).map (fun i => fld C.1 (4 * i) 4)
          else if first then List.replicate (M * N) 0 else x.acc
        let o := mmaPass (f.acc = 2) x.rec'.ftz M N K acc A.1 B.1 cand.toNat
        let group := (x.fired + 1) % g = 0
        let rows := (List.range (M * N / 16)).map (fun i => dataToken (((List.range 16).map (fun j => o.d.getD (16 * i + j) 0)).flatMap (leBytes 4)) false)
        let fl := b2n o.invalidAt.isSome * 256 + b2n (o.flushes != 0) * 512 + b2n o.ovf * 1024
        let s2 := s1.modTh (uTiller u) (fun t => { t with flags := t.flags ||| fl })
        (s2.modUnit u (fun x =>
          { (drop x) with resA := ta, resB := tb, acc := o.d,
                          out := x.out ++ (if group then markLast rows ends else []) })).fireEnd u reads ports
  | _, _, _ => s

/-- An M-unit goes on as far as it can: it takes operand tokens, runs an MMA, sends its D (R296). -/
def State.fireM (s : State) (r u : Nat) : State :=
  let x := s.unitOf u
  match mmaFmt x.rec'.fmt with
  | none => s
  | some f =>
    let (M, N, K) := mmaMnk x.mma f
    let d := M * N / 16
    let s1 := (s.mPush u (2 * d)).unitBegin u
    let s2 := ((s1.mPull u 0 (2 * mTokens f.a (M * K))).mPull u 1 (mTokens f.b (K * N))).mPull u 2 d
    let s3 := if (s2.unitOf u).out.length ≤ d then s2.mRun r u f else s2
    s3.mPush u (2 * d)

/-! ### F-units (R297) -/

/-- Elementwise operation on registers. -/
def fMap (w n : Nat) (g : Nat → Nat × Nat) : VecReg × Nat :=
  let r := (List.range n).map g
  (vpack w (r.map Prod.fst), flagsOf r)

/-- The VEC0 arithmetic function of an F6. -/
def fArith (f6 : Nat) : Option VArith :=
  match f6 with
  | 0x00 => some .add | 0x01 => some .sub | 0x02 => some .mul | 0x03 => some .fma | 0x04 => some .fnma | 0x05 => some .div
  | 0x06 => some .sqrt | 0x07 => some .min | 0x08 => some .max | 0x09 => some .abs | 0x0A => some .neg | 0x0B => some .and
  | 0x0C => some .or | 0x0D => some .xor | 0x0E => some .sll | 0x0F => some .srl | 0x10 => some .sra | 0x16 => some .mv
  | 0x19 => some .iota | _ => none
def fCmp (f6 : Nat) : Option VCmp := match f6 with | 0x11 => some .eq | 0x12 => some .lt | 0x13 => some .le | 0x14 => some .un | _ => none
def fRed (f6 : Nat) : Option VRed :=
  match f6 with | 0 => some .sum | 1 => some .max | 2 => some .min | 3 => some .and | 4 => some .or | 5 => some .xor | _ => none
def fSpec (f6 : Nat) : Option VSpec :=
  match f6 with
  | 0x08 => some .exp2 | 0x09 => some .log2 | 0x0A => some .rcp | 0x0B => some .rsqrt | 0x0C => some .sin | 0x0D => some .cos
  | 0x0E => some .tanh | _ => none
/-- The element type of a code (Table 1 of chapter 6). -/
def elemOf (n : Nat) : ElemTy :=
  match n with | 0 => .i64 | 1 => .i32 | 2 => .i16 | 3 => .i8 | 4 => .f64 | 5 => .f32 | 6 => .bf16 | _ => .f16

/-- Whether an F-unit of an index may run an operation word (R297, Table 7 of chapter 11). -/
def fOpOk (index w : Nat) : Bool :=
  let f6 := w % 64
  let vec2 := w.testBit 6
  let e := elemOf (w / 2 ^ 8 % 8)
  let known := if vec2 then ((fRed f6).isSome || (fSpec f6).isSome) else ((fArith f6).isSome || (fCmp f6).isSome || f6 = 0x18)
  let typed := if vec2 then (match fRed f6 with | some .and | some .or | some .xor => !elemFp e | some _ => true | none => e = .f32)
    else match fArith f6, fCmp f6 with
      | some op, _ => arithLegal op { vd := 0, masked := false, et := e, va := 0, vb := 0 }
      | none, some .un => elemFp e
      | _, _ => true
  known && typed && !w.testBit 7 && !w.testBit 11 && w / 2 ^ 23 % 512 = 0 && (index = 0 || (vec2 && (fSpec f6).isSome) || (!vec2 && f6 = 0x18))

/-- One operation of an F-unit on its operands, with a candidate register and the open flag bits: result and flags. -/
def fOp (w rm : Nat) (ftz : Bool) (x y z : VecReg) (cand : VecReg) (opn : BitVec 2) : VecReg × Nat :=
  let f6 := w % 64
  let e := elemOf (w / 2 ^ 8 % 8)
  let b := elemBits e
  let n := elemCount e
  if w.testBit 6 then
    match fRed f6, fSpec f6 with
    | some op, _ =>
      let l := (List.range n).map (vget x b)
      let r := match elemFmt e, op with
        | none, _ => (intReduce op b l, 0)
        | some g, .sum => fpSum g ftz (cand.toNat % 2 ^ b) (openFlags opn) l
        | some g, .max => fpExtreme g true ftz l
        | some g, _ => fpExtreme g false ftz l
      (vpack b [r.1], r.2)
    | none, some op => fMap 32 32 (fun i => let r := specialOp op ftz (vget cand 32 i) (vget x 32 i); (r.1, r.2 ||| openFlags opn))
    | none, none => (0, 0)
  else if f6 = 0x18 then
    let src := elemOf (w / 2 ^ 15 % 8)
    fMap b (min n (elemCount src)) (fun i => cvtElem e src rm ftz (vget x (elemBits src) i))
  else match fArith f6, fCmp f6 with
    | some op, _ => fMap b n (fun i => match op, elemFmt e with
      | .iota, _ => (i, 0)
      | .mv, _ => (vget x b i, 0)
      | _, some g => fpArith g op rm ftz (vget x b i) (vget y b i) (vget z b i)
      | _, none => (intArith op b (vget x b i) (vget y b i) (vget z b i), 0))
    | none, some op => fMap 1 n (fun i => let c := cmpElem op e ftz (vget x b i) (vget y b i); (b2n c.1, c.2))
    | none, none => (0, 0)

/-- The operations of a firing, in order: internal registers, R, flags and the state after its draws. -/
def State.fRun (s : State) (x : Unit) (X Y Z : VecReg) : List Nat → (VecReg × VecReg × VecReg × VecReg × Nat) → (VecReg × VecReg × VecReg × VecReg × Nat) × State
  | [], q => (q, s)
  | w :: l, (r0, r1, r2, rr, fl) =>
    let const : VecReg := vpack 32 (List.replicate 32 x.rec'.const)
    let src := fun (k : Nat) => match k with | 0 => X | 1 => Y | 2 => Z | 3 => r0 | 4 => r1 | 5 => r2 | 6 => const | _ => 0
    let (c, s1) := s.draw 1024
    let (o, s2) := s1.draw 2
    let y := fOp w x.rec'.rm x.rec'.ftz (src (w / 2 ^ 12 % 8)) (src (w / 2 ^ 15 % 8)) (src (w / 2 ^ 18 % 8)) c o
    let fl' := fl ||| y.2
    match w / 2 ^ 21 % 4 with
    | 0 => s2.fRun x X Y Z l (y.1, r1, r2, rr, fl')
    | 1 => s2.fRun x X Y Z l (r0, y.1, r2, rr, fl')
    | 2 => s2.fRun x X Y Z l (r0, r1, y.1, rr, fl')
    | _ => s2.fRun x X Y Z l (r0, r1, r2, y.1, fl')

/-- The firing of an F-unit (R297). -/
def State.fireF (s : State) (r u : Nat) : State :=
  let x := s.unitOf u
  let width := fun (k : Nat) => x.rec'.width / 4 ^ k % 4
  let ins := ((List.range 3).map (fun k => (k, width k))).filter (fun p => p.2 ≠ 0)
  s.fireSimple r u ins (width 3) (fun s taken =>
    let s0 := s.unitBegin u
    let x := s0.unitOf u
    let bytes := taken.foldl (fun (q : List VecReg × State) l =>
      let b := q.2.tokenBytes l
      (q.1 ++ [BitVec.ofNat 1024 (leNat b.1)], b.2)) ([], s0)
    let reg := fun (k : Nat) => match (ins.map Prod.fst).idxOf? k with | some i => bytes.1.getD i 0 | none => 0
    let q := bytes.2.fRun x (reg 0) (reg 1) (reg 2) (x.rec'.ops.take x.rec'.nops) (x.r0, x.r1, x.r2, 0, 0)
    let f := q.2.settle q.1.2.2.2.2
    let s1 := (f.2.modUnit u (fun y => { y with r0 := q.1.1, r1 := q.1.2.1, r2 := q.1.2.2.1 })).modTh (uTiller u) (fun t => { t with flags := t.flags ||| f.1 % 64 })
    some ((List.range (width 3)).map (fun i => leBytes 64 (q.1.2.2.2.1.toNat / 2 ^ (512 * i))), s1))

/-! ### S- and P-units (R298, R299) -/

/-- Whether a unit that starts a wave by itself may: the wave has started, and no purge stops it (R302, R308). -/
def State.waveOpen (s : State) (r u : Nat) : Bool :=
  let th := s.th (arrCtrl (s.arr r))
  decide ((s.unitOf u).wave < th.wave) && (th.st = .running || th.st = .stopped) && !(s.th (uTiller u)).purging

/-- Moves an address generator on. -/
def State.stepPos (s : State) (u : Nat) : State := s.modUnit u (fun x => { x with pos := x.pos + 1 })

/-- The firing of an S-unit (R298). An access that meets an error does not end: WAVE_FAULT reports it. -/
def State.fireS (s : State) (r u : Nat) : State :=
  let s0 := s.unitBegin u
  let x := s0.unitOf u
  let h := tillerHalf (uTiller u)
  let a := s0.unitAddr u x
  match x.rec'.mode with
  | 0 =>
    if !s.waveOpen r u then s
    else s.fireSimple r u [] 1 (fun s => fun _ =>
      match (s.unitBegin u).readAcc h a 64 with
      | .ok d => some ([d], (s.unitBegin u).stepPos u)
      | .error _ => none)
  | 1 => s.fireSimple r u [(0, 1)] 0 (fun s taken =>
      let b := (s.unitBegin u).tokenBytes (taken.headD [])
      match b.2.writeAcc h a b.1 with
      | (none, s1) => some ([], s1.stepPos u)
      | (some _, _) => none)
  | 2 =>
    let base := s0.unitBase u x
    let lo := match locOf base with | .clm _ o => base - o | _ => base
    let bad := fun (i : Nat) => i ≠ 0xFFFFFFFF && (base + 4 * i + 4 > lo + 0x80000)
    match s.tokensAt u 0 with
    | t :: _ =>
      if !t.null && (List.range 16).any (fun k => bad (fld t.data (4 * k) 4)) then s.arrayError r u 0xA
      else s.fireSimple r u [(0, 1)] 1 (fun s taken =>
        let b := (s.unitBegin u).tokenBytes (taken.headD [])
        let words := (List.range 16).map (fun k =>
          let i := fld b.1 (4 * k) 4
          if i = 0xFFFFFFFF then some (leBytes 4 0)
          else match b.2.readAcc h (base + 4 * i) 4 with | .ok d => some d | .error _ => none)
        match allSome words with
        | some ws => some ([ws.flatten], b.2)
        | none => none)
    | [] => s
  | _ => s.fireSimple r u [(0, 1)] 0 (fun s taken =>
      match aowOpOf x.rec'.aowop with
      | none => none
      | some op =>
        let b := (s.unitBegin u).tokenBytes (taken.headD [])
        let q := (List.range 8).foldl (fun (q : Bool × State) k =>
          let y := q.2.aowAt h (a + 8 * k) op (fld b.1 (8 * k) 8)
          (q.1 && y.1.isNone, y.2)) (true, b.2)
        if q.1 then some ([], q.2.stepPos u) else none)

/-- The firing of a P-unit (R299): local blocks at once, blocks of a session once fetched; a SINK's writes under a
session leave by SESSION_REQUEST. -/
def State.fireP (s : State) (r u : Nat) : State :=
  let s0 := s.unitBegin u
  let x := s0.unitOf u
  let h := tillerHalf (uTiller u)
  let a := s0.unitAddr u x
  let away := x.rec'.session ≠ 0xFFFF
  if x.rec'.mode = 0 then
    if !s.waveOpen r u then s
    else s.fireSimple r u [] 1 (fun s => fun _ =>
      let s1 := s.unitBegin u
      if away then
        match x.fetched.find? (fun p => p.1 = x.wave && p.2.1 = x.pos) with
        | some p => some ([p.2.2], (s1.modUnit u (fun y => { y with fetched := y.fetched.erase p })).stepPos u)
        | none => none
      else match s1.readAcc h a 64 with
        | .ok d => some ([d], s1.stepPos u)
        | .error _ => none)
  else s.fireSimple r u [(0, 1)] 0 (fun s taken =>
    let b := (s.unitBegin u).tokenBytes (taken.headD [])
    if away then some ([], (b.2.modUnit u (fun y => { y with outbox := y.outbox ++ [(x.wave, x.pos, a, b.1, false)] })).stepPos u)
    else
      let addrs := match x.rec'.mcast with | some g => b.2.mcastAddrs g a | none => [a]
      let q := addrs.foldl (fun (q : Bool × State) d => let y := q.2.writeAcc h d b.1; (q.1 && y.1.isNone, y.2)) (true, b.2)
      if q.1 then some ([], q.2.stepPos u) else none)

/-! ### Steering units (R300, R301) -/

/-- Sends one token on an output. -/
def State.send1 (s : State) (u p : Nat) (t : Token) : State := s.sendTokens u p [t]

/-- A condition token. -/
def condToken (b last : Bool) : Token := dataToken (leBytes 64 (b2n b)) last

/-- Progress of a LOOP: condition tokens of value 1, then one of value 0 and the D0 token (R300). -/
def State.loopGo (s : State) (u : Nat) (ends : Bool) (port : List Nat) : (fuel : Nat) → State
  | 0 => s
  | fuel + 1 =>
    match (s.unitOf u).loopLeft, (s.unitOf u).hold with
    | some (n + 1), _ =>
      if s.creditsAt u 0 1 then
        ((s.send1 u 0 (condToken true false)).modUnit u (fun x => { x with loopLeft := some n })).loopGo u ends port fuel
      else s
    | some 0, some t =>
      if s.creditsAt u 0 1 && s.creditsAt u 1 1 then
        (((s.send1 u 0 (condToken false ends)).send1 u 1 { t with last := ends }).modUnit u (fun x => { x with loopLeft := none, hold := none })).fireEnd u [0] port
      else s
    | _, _ => s

/-- The firing of a steering unit (R300, R301). -/
def State.fireSteer (s : State) (r u : Nat) : State :=
  let x := (s.unitBegin u).unitOf u
  let d0 := (s.tokensAt u 0).head?
  let d1 := (s.tokensAt u 1).head?
  let c := (s.tokensAt u 2).head?
  let fires := x.rec'.fires
  let ends := fun (reads ports : List Nat) => x.endsWith reads ports
  let misfit := fun (l : List Token) (e : Bool) => fires ≠ 0 && l.any (fun t => t.last != e)
  match x.rec'.mode with
  | 0 =>
    match d0, c with
    | some d, some k =>
      let ports := (if d.last then [0] else []) ++ (if k.last then [2] else [])
      let e := ends [0, 2] ports
      let o := if k.cond then 1 else 0
      let both := d.last
      if misfit [d, k] e then s.arrayError r u 0xB
      else if d.null && k.null then
        if s.creditsAt u 0 1 && s.creditsAt u 1 1 then
          (((((s.unitBegin u).popTokens u 0 1).popTokens u 2 1).send1 u 0 nullToken).send1 u 1 nullToken).fireEnd u [0, 2] ports
        else s
      else if !s.creditsAt u o 1 || (both && !s.creditsAt u (1 - o) 1) then s
      else
        let s1 := (((s.unitBegin u).popTokens u 0 1).popTokens u 2 1).send1 u o { d with last := e || d.last }
        (if both then s1.send1 u (1 - o) nullToken else s1).fireEnd u [0, 2] ports
    | _, _ => s
  | 1 =>
    match c with
    | none => s
    | some k =>
      let p := if k.cond then 1 else 0
      let chosen := if k.cond then d1 else d0
      let other := if k.cond then d0 else d1
      match chosen with
      | none => s
      | some d =>
        if k.last && other.isNone then s
        else if k.last && !(other.any Token.last) then s.arrayError r u 0xB
        else
          let ports := (if k.last then [2, 1 - p] else []) ++ (if d.last then [p] else [])
          let e := ends [0, 1, 2] ports
          if fires ≠ 0 && k.last != e then s.arrayError r u 0xB
          else if !s.creditsAt u 0 1 then s
          else
            let s1 := ((s.unitBegin u).popTokens u 2 1).popTokens u p 1
            let s2 := if k.last then s1.popTokens u (1 - p) 1 else s1
            (s2.send1 u 0 (if d.null && k.null then nullToken else { d with last := e })).fireEnd u [0, 1, 2] ports
  | 2 =>
    match d0, d1, c with
    | some a, some b, some k =>
      let ports := (if a.last then [0] else []) ++ (if b.last then [1] else []) ++ (if k.last then [2] else [])
      let e := ends [0, 1, 2] ports
      if misfit [a, b, k] e || (k.last && !(if k.cond then a.last else b.last)) then s.arrayError r u 0xB
      else if !s.creditsAt u 0 1 then s
      else
        let s1 := (((s.unitBegin u).popTokens u 0 1).popTokens u 1 1).popTokens u 2 1
        (s1.send1 u 0 (if a.null && b.null && k.null then nullToken else { (if k.cond then b else a) with last := e })).fireEnd u [0, 1, 2] ports
    | _, _, _ => s
  | _ =>
    match x.loopLeft, d0 with
    | some _, _ =>
      let last := match x.hold with | some t => t.last | none => false
      let ports := if last then [0] else []
      s.loopGo u (ends [0] ports) ports 600
    | none, some d =>
      let ports := if d.last then [0] else []
      let e := ends [0] ports
      if misfit [d] e then s.arrayError r u 0xB
      else if d.null then
        if s.creditsAt u 0 1 && s.creditsAt u 1 1 then
          ((((s.unitBegin u).popTokens u 0 1).send1 u 0 nullToken).send1 u 1 nullToken).fireEnd u [0] ports
        else s
      else
        let n := if x.rec'.count ≠ 0 then x.rec'.count else fld d.data 0 4
        (((s.unitBegin u).popTokens u 0 1).modUnit u (fun x => { x with loopLeft := some n, hold := some d })).loopGo u e ports 600
    | none, none => s

/-- UNIT_FIRE (R295): a unit of a THALLUS region fires, if its inputs hold tokens and its outputs have credits; an M-unit
and a LOOP move on as far as their tokens and credits allow. -/
def execUnitFire (unit : BitVec 16) (s : State) : Out :=
  let u := unit.toNat
  let T := uTiller u
  onUnit (T < 64 && uKind u ≤ 4) "Thallus unit" <|
    match s.regionOf T with
    | none => s
    | some r =>
      if !(s.unitOf u).valid || !s.thOn T || (s.tiller T).takeover = some (uPlace u % 16) && uKind u ≤ 2 then s
      else match uKind u with
        | 0 => s.fireM r u
        | 1 => s.fireF r u
        | 2 => s.fireS r u
        | 3 => s.fireP r u
        | _ => s.fireSteer r u

end Sys2Proof.Machine
end

