-- ==== Sys2Proof/Machine/Image.lean ====
section
/-! DEFINITION. Thatch images: header, sections, section bodies and every check the loader makes on them (R57 to R73 and the
section rules of the other chapters). -/

namespace Sys2Proof.Machine

/-! ## Layout (R59, R61, Tables 1 to 3 of chapter 2) -/

/-- A refusal: code, section index (0 for the header or the command) and byte offset of the failing field. -/
structure Refuse where
  code : Nat
  sectIdx : Nat
  offset : Nat
deriving DecidableEq, Repr

/-- The body of a section. -/
def secBody (img : List Byte) (x : Sec) : List Byte := (img.drop (x.off + 16)).take x.len

/-- The first listed failure that holds: code and offset. -/
def firstBad (l : List (Bool × Nat × Nat)) : Option (Nat × Nat) := (l.find? Prod.fst).map Prod.snd

/-- Whether `n` bytes from `o` are zero. -/
def zeroAt (l : List Byte) (o n : Nat) : Bool := allZero ((l.drop o).take n)

/-- A list cut into `n` records of `k` bytes, with their offsets. -/
def chunksFrom (k : Nat) : (n : Nat) → (o : Nat) → List Byte → List (Nat × List Byte)
  | 0, _, _ => []
  | n + 1, o, l => (o, l.take k) :: chunksFrom k n (o + k) (l.drop k)
def chunks (k : Nat) (l : List Byte) : List (Nat × List Byte) := chunksFrom k (l.length / k) 0 l

/-- The first position whose key occurred before. -/
def dupFrom (seen : List (List Nat)) : List (List Nat) → (i : Nat) → Option Nat
  | [], _ => none
  | k :: l, i => if seen.contains k then some i else dupFrom (k :: seen) l (i + 1)
def dupPos (l : List (List Nat)) : Option Nat := dupFrom [] l 0

/-- The root key slot in force: the lowest that is not revoked (R472). -/
def Fuses.rootSlot (f : Fuses) : Option Nat := (List.range 3).find? (fun i => !f.rootRevoke.testBit i)

/-- The key hash that a SIG_KEY names, if its slot is in force (R72). -/
def Fuses.keyHash (f : Fuses) (k : Nat) : Option (List Byte) :=
  if k = 0 then f.rootSlot.bind (fun i => f.root[i]?)
  else if k ≤ 4 ∧ f.custProg.testBit (k - 1) ∧ !f.custRevoke.testBit (k - 1) then some (sget [] f.cust k)
  else none

/-- Header fields. -/
def hMask (h : List Byte) : Nat := fld h 12 2
def hLength (h : List Byte) : Nat := fld h 16 4
def hBase (h : List Byte) : Bool := fld h 7 1 = 1

/-- The checks of the header alone (R59, R60, R72). -/
def headerCheck (f : Fuses) (h : List Byte) : Option (Nat × Nat) :=
  let n := hLength h
  let step := fld h 10 1
  firstBad [
    (fld h 0 4 ≠ 0x54484348, 1, 0), (fld h 5 1 ≠ 1, 2, 4), (fld h 6 1 % 16 ≠ 1, 3, 6), (fld h 7 1 ≠ 1 && fld h 7 1 ≠ 2, 6, 7),
    (fld h 8 2 ≠ field Config.lmIdent 32 16, 4, 8),
    (decide (field Config.lmIdent 16 4 * 16 + field Config.lmIdent 12 4 < step), 4, 10),
    (fld h 24 8 ≠ 0 && fld h 24 8 ≠ f.serial.toNat, 4, 24),
    (n % 8 ≠ 0 || decide (64 * 2 ^ 20 < n) || decide (n < 64), 5, 16),
    (16 ≤ fld h 6 1, 6, 6), (!zeroAt h 11 1, 6, 11), (!zeroAt h 20 4, 6, 20), (!zeroAt h 41 23, 6, 41),
    ((f.keyHash (fld h 40 1)).isNone, 7, 40)]

/-- The walk over the section headers (R61): the sections, or the first breach. -/
def walkSecs (img : List Byte) (count : Nat) : (n : Nat) → (i off : Nat) → (seen : List Sec) → Except Refuse (List Sec)
  | 0, i, off, seen =>
    if off ≠ hLength img then .error ⟨5, 0, 16⟩ else if i = 1 then .error ⟨6, 0, 14⟩ else .ok seen.reverse
  | n + 1, i, off, seen =>
    let h := (img.drop off).take 16
    if h.length < 16 then .error ⟨5, 0, 16⟩
    else
      let x : Sec := { idx := i, off, type := fld h 0 2, required := fld h 2 1 % 2 = 1, len := fld h 4 4, region := fld h 8 1 }
      let last := match seen with | y :: _ => y.type | [] => 0
      let same := seen.filter (fun y => y.type = x.type)
      if 1 < fld h 2 2 || !zeroAt h 9 7 || x.len % 8 ≠ 0 || decide (x.type < last) || (decide (x.type = 0xFF) != decide (i = count))
          || same.any (fun y => y.region = x.region || y.region = 0xFF) || (x.region = 0xFF && !same.isEmpty) then .error ⟨6, i, off⟩
      else walkSecs img count n (i + 1) (off + 16 + x.len) (x :: seen)

/-- The sections of an image. -/
def sections (img : List Byte) : Except Refuse (List Sec) := walkSecs img (fld img 14 2) (fld img 14 2) 1 64 []

/-- Section types by scope (Table 3 of chapter 2). -/
def knownType (t : Nat) : Bool := (decide (1 ≤ t) && decide (t ≤ 0x12)) || t = 0xFF
def baseOnly (t : Nat) : Bool := [0x07, 0x0B, 0x0E, 0x0F, 0x11, 0x12].contains t
def regionScope (t : Nat) : Bool := [0x04, 0x05, 0x06, 0x08, 0x09, 0x0A, 0x10].contains t
def splitScope (t : Nat) : Bool := [0x02, 0x03, 0x0C, 0x0D].contains t

/-- The hash of the sections that the loader reads twice (R79): all but the router tables. -/
def sectionHash (img : List Byte) (xs : List Sec) : List Byte :=
  sha256 ((xs.filter (fun x => x.type ≠ 2 && x.type ≠ 3)).flatMap (fun x => (img.drop x.off).take (16 + x.len)))

/-! ## The configuration that results (R73) -/

/-- What an image is checked against: its kind and mask, its region entries, and the state it is loaded into. -/
structure Plan where
  base : Bool
  mask : Nat
  entries : List RegEntry

def Plan.entry (p : Plan) (r : Nat) : Option RegEntry := p.entries.find? (fun e => e.region = r)
def Plan.blocks (p : Plan) (r : Nat) : Nat := match p.entry r with | some e => e.blocks | none => 0
def Plan.mode (p : Plan) (r : Nat) : Nat := match p.entry r with | some e => e.mode | none => 0
/-- The tillers a sectIdxs records may name: of its region, or of every region of the mask. -/
def Plan.tillers (p : Plan) (region : Nat) : List Nat :=
  if region = 0xFF then (p.entries.map (fun e => blockTillers e.blocks)).flatten else blockTillers (p.blocks region)

/-! ### REGIONS (R64) -/

/-- A region entry from its 8 bytes. -/
def regEntry (l : List Byte) : RegEntry :=
  { region := fld l 0 1, mode := fld l 1 1, zeroise := fld l 2 1 % 2 = 1, blocks := fld l 4 2 }

/-- The entries of a REGIONS body for a mask, or its format breach with the offset in the body. -/
def regionsOf (mask : Nat) (all : Bool) (body : List Byte) : Except Nat (List RegEntry) :=
  let rs := (chunks 8 body).filter (fun q => all || mask.testBit (fld q.2 0 1))
  match rs.find? (fun q => 16 ≤ fld q.2 0 1 || !mask.testBit (fld q.2 0 1) || 2 < fld q.2 1 1 || 1 < fld q.2 2 1 || !zeroAt q.2 3 1 || !zeroAt q.2 6 2) with
  | some q => .error q.1
  | none =>
    match dupPos (rs.map (fun q => [fld q.2 0 1])) with
    | some i => .error (8 * i)
    | none => if rs.length = (bitsOf 16 mask).length then .ok (rs.map (fun q => regEntry q.2)) else .error 0

/-- Whether the blocks are covered (R64): in a base image all of them once, in a partial image those that the masked
regions held. -/
def coverOk (p : Plan) (held : Nat) : Bool :=
  let u := p.entries.foldl (fun m e => m ||| e.blocks) 0
  let n := (p.entries.map (fun e => (bitsOf 16 e.blocks).length)).sum
  u = (if p.base then 0xFFFF else held) && n = (bitsOf 16 u).length

/-! ### Record checks shared by sections -/

/-- The offset of record `i` that breaks a rule, for records of a body. -/
def recBad (rs : List (Nat × List Byte)) (bad : List Byte → Bool) (code : Nat) : Option (Nat × Nat) :=
  (rs.find? (fun q => bad q.2)).map (fun q => (code, q.1))

/-- The position of a repeated key as a failure 0x06. -/
def recDup (rs : List (Nat × List Byte)) (key : List Byte → List Nat) : Option (Nat × Nat) :=
  (dupPos (rs.map (fun q => key q.2))).bind (fun i => (rs[i]?).map (fun q => (6, q.1)))

/-- The failures that hold among several. -/
def fails (l : List (Option (Nat × Nat))) : List (Nat × Nat) := l.filterMap id

/-- A failure 0x06 at offset 0 where a body's length is not a whole number of records. -/
def lenBad (ok : Bool) : Option (Nat × Nat) := if ok then none else some (6, 0)

/-! ### MESH_ROUTES and MESH_SLOTS (R65, R66) -/

/-- Whether a partial record matches a destination outside the tiller nodes of the masked regions (R65). -/
def ovrStrays (masked : List Nat) (w : Word) : Bool :=
  bit w 0 && field w 24 3 < 4 && field w 20 4 ≠ 0 && (List.range 100).any (fun d =>
    field w 4 4 ≤ d % 10 && d % 10 ≤ field w 8 4 && field w 12 4 ≤ d / 10 && d / 10 ≤ field w 16 4
      && match nodeTiller d with | some t => !masked.contains t | none => true)

/-- Whether a node is not a tiller node of a list of tillers. -/
def nodeStrays (ts : List Nat) (n : Nat) : Bool := match nodeTiller n with | some t => !ts.contains t | none => true

def routesCheck (p : Plan) (region : Nat) (b : List Byte) : List (Nat × Nat) :=
  let rs := chunks 16 b
  fails [lenBad (b.length % 16 = 0), recBad rs (fun l => 100 ≤ fld l 0 1 || 16 ≤ fld l 1 1 || !zeroAt l 2 6) 6,
    recDup rs (fun l => [fld l 0 1, fld l 1 1]),
    if p.base then none else recBad rs (fun l => nodeStrays (p.tillers region) (fld l 0 1) || ovrStrays (p.tillers 0xFF) (word (fld l 8 8))) 0xE]

def slotsCheck (p : Plan) (region : Nat) (b : List Byte) : List (Nat × Nat) :=
  let rs := chunks 40 b
  fails [lenBad (b.length % 40 = 0), recBad rs (fun l => 100 ≤ fld l 0 1 || !zeroAt l 1 7) 6, recDup rs (fun l => [fld l 0 1]),
    if p.base then none else recBad rs (fun l => nodeStrays (p.tillers region) (fld l 0 1)) 0xE]

/-! ### THREAD_SLOTS and SEGMENTS (R140, R221) -/

/-- The rules of per-core records: the default only first, no core twice, cores that exist and lie in the region. -/
def coreRules (ts : List Nat) (rs : List (Nat × List Byte)) : List (Option (Nat × Nat)) :=
  [recBad (rs.drop 1) (fun l => fld l 0 2 = 0xFFFF) 6, recDup rs (fun l => [fld l 0 2]),
   recBad rs (fun l => fld l 0 2 ≠ 0xFFFF && 1024 ≤ fld l 0 2) 0x17,
   recBad rs (fun l => fld l 0 2 < 1024 && !ts.contains (fld l 0 2 / 16)) 0xE]

def threadSlotsCheck (p : Plan) (region : Nat) (b : List Byte) : List (Nat × Nat) :=
  let rs := chunks 32 b
  fails ([lenBad (b.length % 32 = 0), recBad rs (fun l => !zeroAt l 2 6 || fld l 16 1 % 2 = 1) 6] ++ coreRules (p.tillers region) rs)

/-- The segments that a SEGMENTS record gives a core: REL bases count from the core's own stores (R221). -/
def segsFor (l : List Byte) (core : Nat) : Segs :=
  let seg := fun (n : Nat) (own : Nat) =>
    let b := fld l (8 + 16 * n) 8
    (⟨segBase n (word (b + if (fld l 2 1).testBit n && n < 3 then own else 0)), segBound (word (fld l (16 + 16 * n) 8))⟩ : Seg)
  { s0 := seg 0 (clmAddr core 0), s1 := seg 1 (tmAddr (core / 16) 0), s2 := seg 2 0x10000000000, s3 := seg 3 0 }

/-- Whether two places lie in one store. -/
def sameStore : Loc → Loc → Bool
  | .hbm _, .hbm _ => true
  | .cs _, .cs _ => true
  | .tm a _, .tm b _ => a = b
  | .clm a _, .clm b _ => a = b
  | .eb a _, .eb b _ => a = b
  | .ctl a _, .ctl b _ => a = b
  | _, _ => false

/-- Whether a segment keeps within the store it starts in (R221); one with a global base is not of this module. -/
def segFits (g : Seg) : Bool :=
  g.bound = 0 || 2 ^ 44 ≤ g.base.toNat || sameStore (locOf g.base.toNat) (locOf (g.base.toNat + g.bound.toNat - 1))

def segmentsCheck (p : Plan) (region : Nat) (b : List Byte) : List (Nat × Nat) :=
  let rs := chunks 72 b
  let cores := (p.tillers region).flatMap tillerCores
  let bad := fun (l : List Byte) => (if fld l 0 2 = 0xFFFF then cores else [fld l 0 2]).any (fun c =>
    let g := segsFor l c; !(segFits g.s0 && segFits g.s1 && segFits g.s2 && segFits g.s3))
  fails ([lenBad (b.length % 72 = 0), recBad rs (fun l => 8 ≤ fld l 2 1 || !zeroAt l 3 5) 6] ++ coreRules (p.tillers region) rs ++ [recBad rs bad 0x17])

/-! ### INBOXES (R225) -/

/-- The bytes of a store by STORE code: core local memory, engine buffers, tiller memory. -/
def storeSize (st : Nat) : Nat := match st with | 0 => 0x80000 | 1 => 0x10000 | _ => 0x400000

/-- An inbox as its record gives it. -/
def inboxOf (l : List Byte) : Inbox :=
  { valid := true, store := fld l 2 1, core := fld l 3 1 % 16, auto := (fld l 3 1).testBit 4, base := fld l 4 2, length := fld l 6 2, avail := fld l 8 2 }

/-- Whether two inbox records of a tiller overlap. -/
def inboxOverlap (a b : List Byte) : Bool :=
  let x := inboxOf a
  let y := inboxOf b
  fld a 1 1 = fld b 1 1 && x.store = y.store && (x.store = 2 || x.core = y.core) && decide (x.base < y.base + y.length) && decide (y.base < x.base + x.length)

def inboxesCheck (p : Plan) (region : Nat) (b : List Byte) : List (Nat × Nat) :=
  let rs := chunks 16 b
  fails [lenBad (b.length % 16 = 0), recBad rs (fun l => 2 < fld l 2 1 || 32 ≤ fld l 3 1 || fld l 6 2 = 0 || !zeroAt l 10 6) 6,
    recDup rs (fun l => [fld l 0 1, fld l 1 1]),
    (rs.find? (fun q => rs.any (fun k => k.1 < q.1 && inboxOverlap k.2 q.2))).map (fun q => (6, q.1)),
    recBad rs (fun l => 64 ≤ fld l 0 1 || 64 ≤ fld l 1 1 || storeSize (fld l 2 1) < (fld l 4 2 + fld l 6 2) * 64) 0x17,
    recBad rs (fun l => fld l 1 1 < 64 && !(p.tillers region).contains (fld l 1 1)) 0xE]

/-! ### INTERLEAVE (R67, R73) -/

/-- The ranges of an INTERLEAVE body. -/
def interleaveOf (b : List Byte) : Interleave :=
  { csMode := fld b 0 1, ranges := (chunks 8 (b.drop 8)).map (fun q => ⟨fld q.2 0 2, fld q.2 2 2, fld q.2 4 1, fld q.2 5 1⟩) }

/-- Whether one range is well formed. -/
def rangeOk (r : HbmRange) : Bool :=
  r.size ≠ 0 && (if r.mode = 0 then r.target = 0 && r.size % 12 = 0 else if r.mode = 1 then r.target < 2 && r.size % 6 = 0 else r.mode = 2 && r.target < 12)

/-- Whether the ranges follow each other from 0 to 768 GiB. -/
def rangesJoin : Nat → List HbmRange → Bool
  | n, [] => n = 768
  | n, r :: l => r.base = n && rangesJoin (n + r.size) l

/-- GiB that the ranges take of a stack. -/
def stackShare (l : List HbmRange) (k : Nat) : Nat :=
  ((l.filter (fun r => (rangeStacks r).contains k)).map (fun r => r.size / (rangeStacks r).length)).sum

def interleaveCheck (park : Bool) (b : List Byte) : List (Nat × Nat) :=
  let i := interleaveOf b
  let ok := (decide (1 ≤ fld b 1 1) && decide (fld b 1 1 ≤ 32)) && i.ranges.all rangeOk && rangesJoin 0 i.ranges
    && (List.range 12).all (fun k => stackShare i.ranges k ≤ 64)
  fails [lenBad (b.length = 8 + 8 * fld b 1 1), lenBad (zeroAt b 2 6 && fld b 0 1 ≤ 1), recBad (chunks 8 (b.drop 8)) (fun l => !zeroAt l 6 2) 6,
    if ok then none else some (0x13, 0),
    if park && (i.csMode ≠ 1 || i.ranges.any (fun r => r.mode = 0)) then some (0x14, 0) else none]

/-! ### DMA_CHANNELS (R243) -/

/-- Whether a region default follows another record of its kind and channel (R140, R243). -/
def lateDefault (rs : List (Nat × List Byte)) (q : Nat × List Byte) : Bool :=
  fld q.2 2 2 = 0xFFFF && rs.any (fun k => k.1 < q.1 && fld k.2 0 2 = fld q.2 0 2)

def dmaCheck (p : Plan) (region : Nat) (b : List Byte) : List (Nat × Nat) :=
  let rs := chunks 16 b
  let ts := p.tillers region
  let tiller := fun (l : List Byte) => fld l 0 1 = 1
  fails [lenBad (b.length % 16 = 0),
    recBad rs (fun l => 1 < fld l 0 1 || 3 < fld l 4 1 || (if tiller l then 2 else 0) < fld l 5 1 || (fld l 5 1 ≠ 1 && fld l 6 1 ≠ 0)
      || 3 < fld l 7 1 || !zeroAt l 8 8) 6,
    recDup rs (fun l => [fld l 0 1, fld l 1 1, fld l 2 2]), (rs.find? (lateDefault rs)).map (fun q => (6, q.1)),
    recBad rs (fun l => (if tiller l then 32 else 8) ≤ fld l 1 1 || 16 ≤ fld l 6 1
      || (fld l 2 2 ≠ 0xFFFF && (if tiller l then 64 else 1024) ≤ fld l 2 2)) 0x17,
    recBad rs (fun l => fld l 2 2 < (if tiller l then 64 else 1024) && !ts.contains (if tiller l then fld l 2 2 else fld l 2 2 / 16)) 0xE]

/-! ### SCHEDULES (R276, R287) -/

/-- The halves of a BUFFER_PAIR record. -/
def pairHalves (l : List Byte) : List (Nat × Nat) := let n := fld l 16 4; [(fld l 8 8, n), (fld l 8 8 + n, n)]

/-- The window a local address lies in: a store's, HBM, or none. -/
def windowOf (a : Nat) : Option Nat :=
  if a < 0xC000000000 then some 0
  else if 0x10000000000 ≤ a && a < 0x10100000000 then some 1
  else if 0x10100000000 ≤ a && a < 0x10140000000 then some (2 + (a - 0x10100000000) / 0x1000000)
  else if 0x10200000000 ≤ a && a < 0x10240000000 then some (100 + (a - 0x10200000000) / 0x100000)
  else if 0x10300000000 ≤ a && a < 0x10304000000 then some (2000 + (a - 0x10300000000) / 0x10000)
  else none

/-- The last byte of a half. -/
def halfLast (h : Nat × Nat) : Nat := h.1 + max h.2 1 - 1

/-- Whether a half does not lie in one store window or in HBM; one past the end of HBM is a matter of size. -/
def halfAstray (h : Nat × Nat) : Bool :=
  match windowOf h.1 with
  | none => true
  | some 0 => false
  | some w => windowOf (halfLast h) != some w

/-- Whether a half extends beyond the sizes of `LM_GEOM`. -/
def halfBeyond (h : Nat × Nat) : Bool := (windowOf h.1).isSome && !sameStore (locOf h.1) (locOf (halfLast h))

/-- Whether two pair records of a tiller overlap. -/
def pairOverlap (a b : List Byte) : Bool :=
  fld a 0 1 = 1 && fld b 0 1 = 1 && fld a 1 1 = fld b 1 1 && decide (fld a 8 8 < fld b 8 8 + 2 * fld b 16 4) && decide (fld b 8 8 < fld a 8 8 + 2 * fld a 16 4)

def schedulesCheck (p : Plan) (region : Nat) (b : List Byte) : List (Nat × Nat) :=
  let rs := chunks 32 b
  let pair := fun (l : List Byte) => fld l 0 1 = 1
  fails [lenBad (b.length % 32 = 0),
    recBad rs (fun l => 1 < fld l 0 1 || 1 < fld l 3 1 || !zeroAt l 5 3 || !zeroAt l 20 12 || fld l 8 8 % 64 ≠ 0 || 2 ^ 44 ≤ fld l 8 8
      || (if pair l then fld l 4 1 ≠ 0 || fld l 16 4 % 64 ≠ 0 else fld l 16 4 ≠ 0 || 7 < fld l 4 1)) 6,
    recDup rs (fun l => [fld l 0 1, fld l 1 1, fld l 2 1]),
    recBad rs (fun l => pair l && (pairHalves l).any halfAstray) 6,
    (rs.find? (fun q => rs.any (fun k => k.1 < q.1 && pairOverlap k.2 q.2))).map (fun q => (6, q.1)),
    recBad rs (fun l => 64 ≤ fld l 1 1 || (if pair l then 64 else 8) ≤ fld l 2 1 || (pair l && (pairHalves l).any halfBeyond)) 0x17,
    recBad rs (fun l => fld l 1 1 < 64 && !(p.tillers region).contains (fld l 1 1)) 0xE]

/-! ### STOLON_ROUTES (R342, R346) -/

def routesBodyCheck (own : Nat) (b : List Byte) : List (Nat × Nat) :=
  let rs := chunks 8 (b.drop 80)
  let en := fld b 0 4
  let bond := fld b 4 2
  let badPort := fun (x : Nat) => 32 ≤ x || !en.testBit x || (x % 2 = 1 && bond.testBit (x / 2))
  fails [lenBad (b.length = 80 + 8 * fld b 8 2 && zeroAt b 12 4 && (fld b 6 1 < 32 || fld b 6 1 = 0xFF)),
    recBad rs (fun l => badPort (fld l 4 1) || (fld l 5 1 ≠ 0xFF && badPort (fld l 5 1)) || (fld l 6 1 ≠ 0xFF && badPort (fld l 6 1)) || 8 ≤ fld l 7 1
      || (decide (fld l 0 2 ≤ own) && decide (own ≤ fld l 2 2))) 6,
    (rs.find? (fun q => rs.any (fun k => k.1 < q.1 && decide (fld k.2 0 2 ≤ fld q.2 2 2) && decide (fld q.2 0 2 ≤ fld k.2 2 2)))).map (fun q => (6, q.1))]

/-! ### SESSION_TEMPLATES (R70, R356) -/

/-- Whether a local range reaches the control space or a reserved range. -/
def exposeBad (a n : Nat) : Bool :=
  n ≠ 0 && (match locOf a with | .ctl _ _ | .reserved => true | _ => !sameStore (locOf a) (locOf (a + n - 1)) || 2 ^ 44 < a + n)

/-- Whether a template number is owned by a region under the OWNERSHIP in force. -/
def State.ownsTemplate (s : State) (r k : Nat) : Bool :=
  let o := sget (0, 0) s.loader.ownerTmpl r
  decide (o.1 ≤ k) && decide (k < o.1 + o.2)

def templatesCheck (s : State) (p : Plan) (region : Nat) (b : List Byte) : List (Nat × Nat) :=
  let rs := chunks 32 b
  let kind := fun (l : List Byte) => fld l 0 1
  fails [lenBad (b.length % 32 = 0),
    recBad rs (fun l => 2 < kind l || !zeroAt l 28 4
      || (kind l = 0 && (32 ≤ fld l 1 1 || 1024 ≤ fld l 2 2 || fld l 4 2 = 0 || 8192 < fld l 4 2 || !zeroAt l 6 2 || 2 ^ 44 ≤ fld l 8 8 || 2 ^ 44 ≤ fld l 16 8 || 2 ^ 23 ≤ fld l 24 4))
      || (kind l = 1 && (8 ≤ fld l 1 1 || !zeroAt l 6 2 || !zeroAt l 24 4 || exposeBad (fld l 8 8) (fld l 16 8)))
      || (kind l = 2 && (!zeroAt l 7 1 || !zeroAt l 16 12))) 6,
    if [1, 2].any (fun k => decide (64 < (rs.filter (fun q => kind q.2 = k)).length)) then some (6, 0) else none,
    if p.base then none else recBad rs (fun l => kind l ≠ 0 || !s.ownsTemplate region (fld l 2 2)) 0xE]

/-! ### MCAST_GROUPS (R70, R259) -/

/-- The records of an MCAST_GROUPS body: each with its branches, padded to a multiple of 8; none where the lengths do not
fit. -/
def mcastRecs : (fuel : Nat) → (o : Nat) → List Byte → Option (List (Nat × List Byte))
  | _, _, [] => some []
  | 0, _, _ :: _ => none
  | fuel + 1, o, l =>
    let n := (16 + 4 * fld l 4 2 + 7) / 8 * 8
    if l.length < n then none else (mcastRecs fuel (o + n) (l.drop n)).map ((o, l.take n) :: ·)

/-- A group as its record gives it. -/
def groupOf (l : List Byte) : McGroup :=
  { valid := true, plane := fld l 2 1, local' := fld l 3 1, root := fld l 6 1, members := word (fld l 8 8),
    branches := (List.range (fld l 4 2)).map (fun i => fld l (16 + 4 * i) 4) }

def groupsCheck (s : State) (p : Plan) (region : Nat) (b : List Byte) : List (Nat × Nat) :=
  match mcastRecs b.length 0 b with
  | none => [(6, 0)]
  | some rs =>
    let die := fun (l : List Byte) => fld l 1 1 = 0
    let ts := p.tillers region
    fails [
      recBad rs (fun l => let g := groupOf l
        1 < fld l 1 1 || !zeroAt l 7 1 || !zeroAt l (16 + 4 * fld l 4 2) 8 ||
        (if die l then 64 ≤ fld l 0 1 || 1 < g.plane || g.local' ≠ 0 || fld l 4 2 = 0 || 100 < fld l 4 2 || 100 ≤ g.root
            || g.branches.any (fun w => 2 ^ 13 ≤ w) || !treeOk g
          else g.plane ≠ 0 || (64 ≤ g.local' && g.local' ≠ 0xFF) || fld l 4 2 ≠ 0 || g.root ≠ 0 || !zeroAt l 12 4)) 6,
      if p.base then none
      else recBad rs (fun l => let g := groupOf l
        (sget 0xFF (if die l then s.loader.ownerDie else s.loader.ownerStolon) (fld l 0 1)) ≠ region
          || (die l && (g.branches.any (fun w => nodeStrays ts (w % 256)) || nodeStrays ts g.root))) 0xE]

/-! ### DEVICE, RELIABILITY, SPARE, OWNERSHIP (R68, R69, R70, R423) -/

def deviceCheck (b : List Byte) : List (Nat × Nat) :=
  let rng := fun (o lo hi : Nat) => decide (lo ≤ fld b o 1) && decide (fld b o 1 ≤ hi)
  fails [lenBad (b.length = 16),
    firstBad [(!rng 0 6 0x1B, 6, 0), (!rng 1 6 0x18, 6, 1), (!rng 2 6 0x1B, 6, 2), (!rng 3 6 0x18, 6, 3), (!rng 4 6 0x20, 6, 4), (8 ≤ fld b 5 1, 6, 5),
      (decide (32 ≤ fld b 8 1) && fld b 8 1 ≠ 0xFF, 6, 8), (!zeroAt b 9 7, 6, 9)]]

/-- RELIABILITY settings from their 720 bytes (Table 9 of chapter 15). -/
def reliabilityOf (b : List Byte) : Reliability :=
  { buddy := fld b 0 2, sess := fld b 2 2, template := fld b 4 2, mirrorEn := (fld b 6 1).testBit 0, withdrawEn := (fld b 6 1).testBit 1,
    culmRestart := (fld b 6 1).testBit 2, primary := fld b 7 1 % 4, replica := fld b 7 1 / 4 % 4, mirrorBase := fld b 8 8, mirrorLen := fld b 16 8,
    wdrBase := fld b 24 8, wdrLen := fld b 32 8, pairs := (List.range 64).map (fun T => word (fld b (64 + 8 * T) 8)),
    persist := (List.range 9).map (fun i => (fld b (576 + 16 * i) 8, fld b (584 + 16 * i) 8)) }

/-- The bytes that the mirror slots of a list of (tiller, pair, size) take (R414). -/
def mirrorNeed (r : Reliability) (pairs : List (Nat × Nat × Nat)) : Nat :=
  ((pairs.filter (fun q => bit (r.pairs.getD q.1 0) q.2.1)).map (fun q => 4096 + 2 * ((q.2.2 + 4095) / 4096 * 4096))).sum

/-- Whether a local range lies in HBM or the common store. -/
def inHbmOrCs (a n : Nat) : Bool := decide (a + n ≤ 0xC000000000) || (decide (0x10000000000 ≤ a) && decide (a + n ≤ 0x10010000000))

def reliabilityCheck (own : Nat) (templates : List Nat) (pairs : List (Nat × Nat × Nat)) (b : List Byte) : List (Nat × Nat) :=
  let r := reliabilityOf b
  fails [lenBad (b.length = 720),
    firstBad [(r.buddy = own || r.buddy = 0x3FFF, 6, 0), (16384 ≤ r.sess, 6, 2), (8 ≤ fld b 6 1, 6, 6), (16 ≤ fld b 7 1, 6, 7),
      (r.mirrorEn && (r.buddy = 0xFFFF || !templates.contains r.template), 6, 6), (r.primary = r.replica, 6, 7),
      (r.mirrorBase % 4096 ≠ 0, 6, 8), (r.mirrorEn && decide (r.mirrorLen < mirrorNeed r pairs), 6, 16), (r.wdrBase % 4096 ≠ 0, 6, 24), (!zeroAt b 40 24, 6, 40)],
    ((List.range 9).find? (fun i => let q := r.persist.getD i (0, 0); q.2 ≠ 0 && !inHbmOrCs q.1 q.2)).map (fun i => (6, 576 + 16 * i))]

def spareCheck (s : State) (b : List Byte) : List (Nat × Nat) :=
  fails [lenBad (b.length = 64), ((List.range 64).find? (fun T => 1 < fld b T 1)).map (fun T => (6, T)),
    ((List.range 64).find? (fun T => fld b T 1 = 1 && (s.tiller T).spareServes.isSome)).map (fun T => (0x16, T))]

def ownershipCheck (b : List Byte) : List (Nat × Nat) :=
  fails [lenBad (b.length = 384), ((List.range 320).find? (fun i => 16 ≤ fld b i 1 && fld b i 1 ≠ 0xFF)).map (fun i => (6, i)),
    ((List.range 16).find? (fun i => 1024 < fld b (320 + 4 * i) 2 + fld b (322 + 4 * i) 2)).map (fun i => (6, 320 + 4 * i))]

/-! ### TENSOR_WATCH (R434) -/

/-- Bytes of an element code of a watch record. -/
def watchElem (e : Nat) : Nat := match e with | 1 | 7 => 8 | 2 | 8 => 4 | 3 | 4 => 2 | _ => 1

def watchCheck (p : Plan) (region : Nat) (b : List Byte) : List (Nat × Nat) :=
  let rs := (chunks 32 (b.drop 32)).map (fun q => (32 + q.1, q.2))
  let ts := p.tillers region
  fails [lenBad (b.length = 32 + 32 * fld b 2 2),
    firstBad [(2 < fld b 0 1 || !zeroAt b 1 1, 6, 0), (fld b 2 2 = 0 || 64 < fld b 2 2, 6, 2), (fld b 4 1 < 4 || 16 < fld b 4 1, 6, 4), (!zeroAt b 5 3, 6, 5),
      (fld b 8 8 % 4096 ≠ 0, 6, 8), (fld b 16 8 % 4096 ≠ 0 || (fld b 0 1 = 2 && fld b 16 8 ≠ 0), 6, 16), (!zeroAt b 24 8, 6, 24)],
    recBad rs (fun l => 9 < fld l 5 1 || (fld l 16 1).testBit 6 || !zeroAt l 17 3 || !zeroAt l 24 8 || fld l 20 4 % watchElem (fld l 5 1) ≠ 0
      || (p.mode region = 2 && fld l 0 4 ≠ 0xFFFFFFFF)) 6,
    if inHbmOrCs (fld b 8 8) (watchShare b * ts.length) then none else some (0x17, 8),
    recBad rs (fun l => 64 ≤ fld l 4 1 && fld l 4 1 ≠ 0xFF) 0x17,
    recBad rs (fun l => fld l 4 1 < 64 && !ts.contains (fld l 4 1)) 0xE]

end Sys2Proof.Machine
end

