-- ==== Sys2Proof/Machine/Arrays.lean ====
section
/-! DEFINITION. The THALLUS_UNITS section: its records and the checks of the loader on an array (R290, R294, R299, R305,
R313 to R316). -/

namespace Sys2Proof.Machine

/-! ## Records (R313 to R315) -/

/-- The number of unit records and of queue records of an array. -/
def arrUnits (h : List Byte) : Nat := fld h 28 2
def arrQueues (h : List Byte) : Nat := fld h 30 2
def arrCopy (h : List Byte) : Nat := fld h 32 4

/-- The unit records of a THALLUS_UNITS body, with their offsets, and its queue records. -/
def unitRecs (b : List Byte) : List (Nat × List Byte) :=
  (chunks 32 ((b.drop 64).take (32 * arrUnits b))).map (fun q => (64 + q.1, q.2))
def queueRecs (b : List Byte) : List (Nat × List Byte) :=
  (chunks 16 (b.drop (64 + 32 * arrUnits b))).map (fun q => (64 + 32 * arrUnits b + q.1, q.2))

/-- The handle of a unit record. -/
def recHandle (l : List Byte) : Nat := fld l 0 2

/-- A unit record as its kind lays it out (Tables 5 and 6 of chapter 11). -/
def unitOfRec (l : List Byte) : UnitRec :=
  let c : UnitRec := { mode := fld l 2 1, ftz := (fld l 3 1).testBit 0, rm := fld l 3 1 / 2 % 8, fires := fld l 4 4 }
  match uKind (recHandle l) with
  | 0 => { c with fmt := fld l 8 1, shape := fld l 9 1, opt := fld l 10 1, kgroup := fld l 12 2 }
  | 1 => { c with width := fld l 8 1, nops := fld l 9 1, const := fld l 12 4, ops := (List.range 4).map (fun i => fld l (16 + 4 * i) 4) }
  | 2 => { c with addr := fld l 8 4, count0 := fld l 12 2, count1 := fld l 14 2, stride1 := fld l 16 4, pair := fld l 20 1 % 64,
                  halfsel := fld l 20 1 / 64, aowop := fld l 21 1 % 16 }
  | 3 => { c with addr := fld l 8 8, count0 := fld l 16 2, count1 := fld l 18 2, stride1 := fld l 20 4, session := fld l 24 2,
                  pair := fld l 26 1 % 64, halfsel := fld l 26 1 / 64, mcast := if (fld l 27 1).testBit 7 then some (fld l 27 1 % 64) else none }
  | _ => { c with count := fld l 8 4 }

/-- A queue as its record gives it, empty, its producer holding DEPTH credits (R292). -/
def queueOf (l : List Byte) : TQueue :=
  { valid := true, producer := fld l 2 2, pport := fld l 4 1, cport := fld l 5 1, consumer := fld l 6 2, depth := fld l 8 2,
    store := fld l 10 2, flags := fld l 12 1, credits := fld l 8 2 }

/-- The local address of a queue's storage and its bytes: 64 for each token (R292, Table 8 of chapter 11). -/
def queueStore (q : TQueue) : Nat × Nat :=
  let o := q.store % 2 ^ 15 * 128
  (if q.store.testBit 15 then tmAddr (uTiller q.consumer) o else ebAddr (uPlace q.consumer) o, q.depth * 64)

/-- A tiller's configuration copy: the header, its own unit records, its own queue records (R313). -/
def arrCopyOf (b : List Byte) (T : Nat) : List Byte :=
  b.take 64 ++ ((unitRecs b).filter (fun q => uTiller (recHandle q.2) = T)).flatMap Prod.snd
    ++ ((queueRecs b).filter (fun q => uTiller (fld q.2 6 2) = T)).flatMap Prod.snd

/-! ## Ports (Tables 1, 3 and 6 of chapter 11) -/

/-- Inputs and outputs of a kind of unit. -/
def kindIns (k : Nat) : Nat := match k with | 0 | 1 | 4 => 3 | _ => 1
def kindOuts (k : Nat) : Nat := if k = 4 then 2 else 1

/-- The inputs that a unit's MODE and WIDTH read. -/
def readPorts (k : Nat) (x : UnitRec) : List Nat :=
  match k with
  | 0 => if x.opt.testBit 2 then [0, 1, 2] else [0, 1]
  | 1 => (List.range 3).filter (fun i => x.width / 4 ^ i % 4 ≠ 0)
  | 2 => if x.mode = 0 then [] else [0]
  | 3 => if x.mode = 0 then [] else [0]
  | _ => match x.mode with | 0 => [0, 2] | 3 => [0] | _ => [0, 1, 2]

/-- Tokens per wave at an input or output of a unit that fires FIRES times (R296 to R299). -/
def inTokens (k : Nat) (x : UnitRec) (p : Nat) : Nat :=
  if !(readPorts k x).contains p then 0
  else match k with
    | 0 =>
      match mmaFmt x.fmt with
      | none => 0
      | some f =>
        let u : Unit := { rec' := x }
        let (M, N, K) := mmaMnk u.mma f
        match p with
        | 0 => mTokens f.a (M * K) * (if x.opt.testBit 0 then min 1 x.fires else x.fires)
        | 1 => mTokens f.b (K * N) * (if x.opt.testBit 1 then min 1 x.fires else x.fires)
        | _ => M * N / 16 * (x.fires / max 1 x.kgroup)
    | 1 => x.width / 4 ^ p % 4 * x.fires
    | _ => x.fires
def outTokens (k : Nat) (x : UnitRec) : Nat :=
  match k with
  | 0 =>
    match mmaFmt x.fmt with
    | none => 0
    | some f => let u : Unit := { rec' := x }
                let (M, N, _) := mmaMnk u.mma f
                M * N / 16 * (x.fires / max 1 x.kgroup)
  | 1 => x.width / 64 % 4 * x.fires
  | 2 => if x.mode = 0 || x.mode = 2 then x.fires else 0
  | 3 => if x.mode = 0 then x.fires else 0
  | _ => x.fires

/-! ## Checks (R305, R316) -/

/-- Whether a unit record breaks a rule of its layout, shape, format or operations. -/
def unitRecBad (l : List Byte) : Bool :=
  let h := recHandle l
  let k := uKind h
  let x := unitOfRec l
  4 < k || h.testBit 5 || decide ((match k with | 0 => 1 | 2 => 4 | _ => 2) ≤ uIndex h) || decide (16 ≤ fld l 3 1)
    || (if k = 1 then decide (4 < x.rm) else x.rm ≠ 0) ||
  (match k with
    | 0 => x.mode ≠ 0 || !zeroAt l 11 1 || !zeroAt l 14 18 || decide (8 ≤ x.opt) || decide (64 ≤ x.shape) || decide (0xF < x.fmt)
        || x.kgroup = 0 || x.fires % max 1 x.kgroup ≠ 0
        || (match mmaFmt x.fmt with
            | none => true
            | some f => let u : Unit := { rec' := x }; efmtMx f.a && decide ((mmaMnk u.mma f).2.2 < 32))
    | 1 => x.mode ≠ 0 || !zeroAt l 10 2 || (List.range 4).any (fun i => x.width / 4 ^ i % 4 = 3) || x.width / 64 = 0 || x.nops = 0 || decide (4 < x.nops)
        || x.ops.zipIdx.any (fun p => if x.nops ≤ p.2 then p.1 ≠ 0 else
            !fOpOk (uIndex h) p.1 || (p.1 / 2 ^ 18 % 8 ≠ 0 && !(!p.1.testBit 6 && (p.1 % 64 = 3 || p.1 % 64 = 4))))
        || x.ops.getD (x.nops - 1) 0 / 2 ^ 21 % 4 ≠ 3
    | 2 => decide (3 < x.mode) || x.addr % 64 ≠ 0 || x.count0 = 0 || x.count1 = 0 || x.stride1 % 64 ≠ 0 || x.halfsel = 3 || !zeroAt l 22 10
        || decide (16 ≤ fld l 21 1) || (if x.mode = 3 then (aowOpOf x.aowop).isNone else x.aowop ≠ 0)
    | 3 => decide (1 < x.mode) || x.count0 = 0 || x.count1 = 0 || x.stride1 % 64 ≠ 0 || (decide (16384 ≤ x.session) && x.session ≠ 0xFFFF) || x.halfsel = 3
        || !zeroAt l 28 4 || (fld l 27 1).testBit 6 || (x.mode = 0 && fld l 27 1 ≠ 0)
    | _ => decide (3 < x.mode) || !zeroAt l 12 20)

/-- Whether a queue record breaks a rule of its layout, for the units of the array. -/
def queueRecBad (units : List Nat) (l : List Byte) : Bool :=
  let q := queueOf l
  decide (512 ≤ fld l 0 2) || !units.contains q.producer || !units.contains q.consumer || decide (kindOuts (uKind q.producer) ≤ q.pport)
    || decide (kindIns (uKind q.consumer) ≤ q.cport) || decide (q.depth < 16) || decide (256 < q.depth) || q.depth % 16 ≠ 0
    || decide (4 ≤ q.flags) || !zeroAt l 13 3 || (decide (3 ≤ uKind q.consumer) && !q.store.testBit 15)

/-- Whether two ranges of bytes overlap. -/
def overlaps (a b : Nat × Nat) : Bool := decide (a.1 < b.1 + b.2) && decide (b.1 < a.1 + a.2)

/-- The bytes that an inbox of a tiller covers. -/
def inboxBytes (T : Nat) (x : Inbox) : Nat × Nat :=
  let c := T * 16 + x.core
  ((match x.store with | 0 => clmAddr c (x.base * 64) | 1 => ebAddr c (x.base * 64) | _ => tmAddr T (x.base * 64)), x.length * 64)

/-- Whether a write of bytes by an agent that is not a core needs a credit (R222). -/
def needsCredit (boxes : List (Nat × Inbox)) (r : Nat × Nat) : Bool :=
  let inCore := fun (a : Nat) => match locOf a with | .clm _ _ | .eb _ _ => true | _ => false
  inCore r.1 || inCore (r.1 + r.2 - 1) || boxes.any (fun b => overlaps (inboxBytes b.1 b.2) r)

/-- Whether a SINK's range would need a credit (R299), by the pairs and inboxes that result. -/
def sinkCredit (boxes : List (Nat × Inbox)) (pairs : List (Nat × Nat × Nat × Nat)) (members : Nat → List Nat) (l : List Byte) : Bool :=
  let x := unitOfRec l
  let T := uTiller (recHandle l)
  let starts :=
    match x.mcast with
    | some g => (members g).map (fun t => tmAddr t (x.addr % 0x400000))
    | none =>
      if x.session ≠ 0xFFFF then []
      else if x.halfsel = 0 then [x.addr]
      else match pairs.find? (fun (p : Nat × Nat × Nat × Nat) => p.1 = T && p.2.1 = x.pair) with
        | some p => [p.2.2.1 + x.addr, p.2.2.1 + p.2.2.2 + x.addr]
        | none => [x.addr]
  uKind (recHandle l) = 3 && x.mode = 1 && starts.any (fun a => (List.range x.count1).any (fun i => needsCredit boxes (a + i * x.stride1, x.count0 * 64)))

/-- The edges of a queue graph that lie on a cycle or lead from one: those left after `fuel` rounds. -/
def pruneEdges : (fuel : Nat) → List (Nat × Nat) → List (Nat × Nat)
  | 0, l => l
  | fuel + 1, l => let m := l.filter (fun e => l.any (fun d => d.2 = e.1)); if m.length = l.length then l else pruneEdges fuel m

/-- Whether the static-rate conditions fail (R305): in a region with steering units, queues that touch one or are
VARIABLE are exempt, and cycles are allowed. -/
def staticBad (us : List (Nat × UnitRec)) (qs : List TQueue) : Bool :=
  let steer := us.any (fun u => uKind u.1 = 4)
  let rec' := fun (h : Nat) => match us.find? (fun u => u.1 = h) with | some u => u.2 | none => {}
  let exempt := fun (q : TQueue) => steer && (uKind q.producer = 4 || uKind q.consumer = 4 || q.flags.testBit 1)
  (!steer && us.any (fun u => u.2.fires = 0))
    || qs.any (fun q => !exempt q && outTokens (uKind q.producer) (rec' q.producer) ≠ inTokens (uKind q.consumer) (rec' q.consumer) q.cport)
    || (!steer && !(pruneEdges qs.length (qs.map (fun q => (q.producer, q.consumer)))).isEmpty)

/-- What an array is checked against beside its body: the resulting routes, inboxes, pairs and group members. -/
structure Around where
  cfg : Sparse Node
  boxes : List (Nat × Inbox)
  pairs : List (Nat × Nat × Nat × Nat)
  groups : Sparse McGroup
  owner : Nat → Nat

/-- Whether a queue between tillers leaves the region on its way (R294). -/
def queueStrays (cfg : Sparse Node) (ts : List Nat) (q : TQueue) : Bool :=
  let a := tillerNode (uTiller q.producer)
  let b := tillerNode (uTiller q.consumer)
  uTiller q.producer ≠ uTiller q.consumer && (walk cfg (q.flags % 2) 3 b 202 a).1.any (fun h => nodeStrays ts h.1)

/-- The failures of a THALLUS_UNITS body (Table 9 of chapter 11). -/
def unitsCheck (p : Plan) (region : Nat) (w : Around) (b : List Byte) : List (Nat × Nat) :=
  let us := unitRecs b
  let qs := queueRecs b
  let ts := p.tillers region
  let hs := us.map (fun q => recHandle q.2)
  let recs := us.map (fun q => (recHandle q.2, unitOfRec q.2))
  let queues := qs.map (fun q => queueOf q.2)
  let copy := ts.map (fun T => (tmAddr T (arrCopy b), (arrCopyOf b T).length))
  let boxes := w.boxes.map (fun x => inboxBytes x.1 x.2)
  let feeds := fun (h port : Nat) => (queues.filter (fun q => q.consumer = h && q.cport = port)).length
  let commit := arrCommit b
  fails [
    lenBad (decide (64 ≤ b.length) && b.length = 64 + 32 * arrUnits b + 16 * arrQueues b),
    if p.mode region = 2 then none else some (6, 0),
    firstBad [(arrMax b = 0 || decide (2 < arrMax b), 6, 1), (decide (2 < fld b 2 1), 6, 2), (decide (1 < fld b 3 1), 6, 3), (decide (3 < fld b 14 1), 6, 14),
      (!zeroAt b 15 1, 6, 15), (commit ≠ 0xFFFFFFFF && commit % 8 ≠ 0, 6, 24), (arrCopy b % 64 ≠ 0, 6, 32), (!zeroAt b 40 24, 6, 40)],
    recBad us unitRecBad 6, recDup us (fun l => [recHandle l]),
    recBad qs (queueRecBad hs) 6, recDup qs (fun l => [uTiller (fld l 6 2), fld l 0 2]),
    recBad us (fun l => (List.range 3).any (fun i => decide (1 < feeds (recHandle l) i)
      || ((readPorts (uKind (recHandle l)) (unitOfRec l)).contains i && feeds (recHandle l) i = 0))) 6,
    recBad us (fun l => (List.range 2).any (fun i => decide (4 < (queues.filter (fun q => q.producer = recHandle l && q.pport = i)).length))) 6,
    (qs.find? (fun q =>
      let r := queueStore (queueOf q.2)
      qs.any (fun k => k.1 < q.1 && overlaps (queueStore (queueOf k.2)) r) || copy.any (overlaps r) || boxes.any (overlaps r))).map (fun q => (6, q.1)),
    recBad us (sinkCredit w.boxes w.pairs (fun g => bitsOf 64 (sget {} w.groups g).members.toNat)) 6,
    if staticBad recs queues then some (6, 0) else none,
    if us.any (fun q => uKind (recHandle q.2) = 4) && decide (4 < (bitsOf 16 (p.blocks region)).length) then
      (us.find? (fun q => uKind (recHandle q.2) = 4)).map (fun q => (0x15, q.1))
    else none,
    firstBad [(decide (64 ≤ arrCtrl b), 0x17, 0), (commit ≠ 0xFFFFFFFF && decide (0x400000 < commit + 8), 0x17, 24),
      (copy.any (fun c => decide (0x400000 < arrCopy b + c.2)), 0x17, 32)],
    recBad us (fun l => decide (3 ≤ uKind (recHandle l)) && decide (64 ≤ uPlace (recHandle l))) 0x17,
    recBad qs (fun l => let q := queueOf l; decide ((if q.store.testBit 15 then 0x400000 else 0x10000) < q.store % 2 ^ 15 * 128 + q.depth * 64)) 0x17,
    if decide (arrCtrl b < 64) && !ts.contains (arrCtrl b) then some (0xE, 0) else none,
    recBad us (fun l => decide (uTiller (recHandle l) < 64) && !ts.contains (uTiller (recHandle l))) 0xE,
    recBad us (fun l => match (unitOfRec l).mcast with | some g => uKind (recHandle l) = 3 && w.owner g ≠ region && w.owner g ≠ 0xFF | none => false) 0xE,
    recBad qs (fun l => queueStrays w.cfg ts (queueOf l)) 0xE]

end Sys2Proof.Machine
end

