-- ==== Sys2Proof/Machine/Loading.lean ====
section
/-! DEFINITION. The region purge (R77) and the entry of a load's regions to LOADING with the resets it makes (R79). -/

namespace Sys2Proof.Machine

/-- The DMA channels of a tiller and its cores. -/
def tillerChans (T : Nat) : List ChanRef :=
  ((List.range 32).map (ChanRef.tiller T ·)) ++ (tillerCores T).flatMap (fun c => (List.range 8).map (ChanRef.core c ·))

/-- Aborts every schedule context of a tiller with ERR PURGED: what its steps started is taken back (R8, R77, R285). -/
def State.purgeSq (s : State) (T : Nat) : State :=
  forAll (List.range 8) s (fun s k =>
    (forAll (s.sq T k).steps s (fun s x => s.unlaunch ⟨T, k, x.serial⟩ x)).abortSq T k 7)

/-- PURGE of a region that is SERVING or DRAINING (R77, R310). -/
def State.purgeRegion (s : State) (r : Nat) : State :=
  if (s.region r).st ≠ .serving ∧ (s.region r).st ≠ .draining then s
  else
    let s1 := forAll (s.regionTillers r) s (fun s T =>
      let s1 := forAll (tillerChans T) (s.purgeSq T) State.dmaDisable
      forAll (tillerCores T) s1 (fun s c => (forAll (List.range 8) s (fun s k => s.killQuiet ⟨c, k⟩)).stopCtx0 c))
    let s2 := if (s1.region r).mode = 2 then s1.arrayStop r 7 else s1
    s2.modRegion r (fun x => { x with st := .quiescent })

/-- A DMA channel at its reset values; bursts that a disable left in flight stay until they arrive (R244, R255). -/
def DmaChan.reset (x : DmaChan) : DmaChan := { bursts := x.bursts, serial := x.serial }

/-- The reset of a core of a region at its entry to LOADING (R79, R165, R244, R441). -/
def State.resetCore (s : State) (c : Nat) : State :=
  let s1 := (forAll (List.range 8) s (fun s k => s.killQuiet ⟨c, k⟩)).stopCtx0 c
  let s2 := s1.modCore c (fun x =>
    { (x.emptyTiles (List.range 16)) with
        town := ({} : Core).town, dma := (List.range 8).foldl (fun m k => sput {} m k (sget {} x.dma k).reset) [] })
  forAll (List.range 8) s2 (fun s k => s.modCtx ⟨c, k⟩ (fun x => { x with dbg := {} }))

/-- The reset of a tiller of a region at its entry to LOADING: requests that wait are answered, event counters, schedule
contexts, endpoints, windows and channels return to reset, the Thallus part takes the next epoch (R79, R150, R225, R244,
R287, R307, R357). -/
def State.resetTiller (s : State) (T : Nat) : State :=
  let s1 := forAll (List.range 64) s (fun s i =>
    (forAll (s.inbox T i).waiters s (fun s w => s.refuseTo T i w.1 dLoading)).modInbox T i (fun b => { b with waiters := [] }))
  let s2 := forAll (List.range 256) s1 (fun s e =>
    forAll (s.ep T e).waiters s (fun s w => s.answerCh w (T * 256 + e) (.error 0x13)))
  let s3 := forAll (tillerCores T) s2 State.resetCore
  let s4 := s3.modTiller T (fun x =>
    { x with evc := [], sq := [], sqLast := 0, eps := [],
             windows := x.windows.foldl (fun m p => sput {} m p.1 { p.2 with w0 := word (p.2.w0.toNat / 2 * 2) }) [],
             dch := (List.range 32).foldl (fun m k => sput {} m k (sget {} x.dch k).reset) [],
             th := { epoch := (x.th.epoch + 1) % 16, stale := x.th.stale, imbal := x.th.imbal, purged := x.th.purged, flags := x.th.flags,
                     queues := x.th.queues.foldl (fun m p => sput {} m p.1 { transit := p.2.transit, returning := p.2.returning }) [] } })
  { s4 with units := s4.units.filter (fun p => uTiller p.1 ≠ T) }

/-- The load's regions enter LOADING; regions that a base image does not define, or that get no blocks, become UNDEFINED
(R74, R79). -/
def State.enterLoading (s : State) : State :=
  let l := s.loader
  let gone := (List.range 16).filter (fun r => match l.entries.find? (fun e => e.region = r) with | some e => e.blocks = 0 | none => l.isBase)
  let live := l.entries.filter (fun e => e.blocks ≠ 0)
  let s1 := forAll gone s (fun s r => s.modRegion r (fun _ => {}))
  let s2 := forAll live s1 (fun s e => s.modRegion e.region (fun _ =>
    { st := .loading, mode := e.mode, blocks := bv 16 e.blocks, zeroise := e.zeroise, image := l.image, imageLen := l.length, hash := l.whole }))
  let s3 := forAll (live.flatMap (fun e => blockTillers e.blocks)) s2 State.resetTiller
  s3.modLoader (fun l => { l with closing := [], toWrite := live.map (·.region), toCheck := live.map (·.region) })

/-- A session that the loader waits for is CLOSED (R354). -/
def State.sessionGone (s : State) (sess : Nat) : State :=
  if s.loader.closing.contains sess then
    let s1 := s.modLoader (fun l => { l with closing := l.closing.erase sess })
    if s1.loader.closing.isEmpty then s1.enterLoading else s1
  else s

end Sys2Proof.Machine
end

