-- ==== Sys2Proof/Machine/Stolon.lean ====
section
/-! DEFINITION. The Stolon fabric: the link layer, handover and restoration of routes, sessions and their tags and credits,
requests at the target, multicast and remote windows (chapter 13). -/

namespace Sys2Proof.Machine

/-! ## Answers to requesters (R351, Table 9) -/

/-- A code that stands for an error response met on the die before the home was reached. -/
def dieError (detail : Nat) : Nat := 0x100 + detail

/-- The `DCH.ERR` code of a fabric code (Table 9 of chapter 13). -/
def dchCode (code : Nat) : Nat := if 0x100 ≤ code then 0x10 + (code - 0x100) else if code ≤ 3 then 8 else 0x16

/-- Delivers an answer to a request of a core's access: its data, or an error response with DETAIL REMOTE (R358). -/
def State.answerAccess (s : State) (id code : Nat) (data : List Byte) : State :=
  { s with reqs := s.reqs.map (fun (r : Req) =>
      if r.id = id ∧ r.resp.isNone then
        { r with back := if code = 0 then data else r.back,
                 resp := some (if code = 0 then 0 else if 0x100 ≤ code then code - 0x100 else dRemote, r.addr) }
      else r) }

/-- Delivers an answer to a piece of a DMA channel's burst: source pieces below 512, writes from 512 (R254, R256). -/
def State.answerDma (s : State) (c : ChanRef) (b code : Nat) (data : List Byte) : State :=
  let k := b % 1024
  s.modBurst c (b / 1024) (fun x =>
    let x := if code = 0 then x else if code = 0xC then { x with partialFail := true }
      else { x with err := if x.err = 0 then dchCode code else x.err }
    if k < 512 then { x with got := x.got ++ [(k, data)] } else { x with acks := x.acks ++ [k] })

/-- Delivers an answer to a P-unit: a block read, or a write acknowledged. An error leaves the wave incomplete until
WAVE_FAULT reports it (R299, R311). -/
def State.answerUnit (s : State) (u w n code : Nat) (data : List Byte) : State :=
  if code ≠ 0 then s
  else s.modUnit u (fun x =>
    if x.rec'.mode = 0 then { x with asked := x.asked.erase (w, n), fetched := x.fetched ++ [(w, n, data)] }
    else { x with outbox := x.outbox.filter (fun o => !(o.1 = w && o.2.1 = n)) })

/-- Delivers an answer to a requester. -/
def State.answerReq (s : State) (r : Requester) (code : Nat) (data : List Byte) : State :=
  match r with
  | .access id => s.answerAccess id code data
  | .dma c b => s.answerDma c b code data
  | .unit h w n => s.answerUnit h.toNat w n code data
  | .module => s

/-- Records a fabric code in a session's entry: all but OK, PARTIAL and CREDIT_BUSY (R360). -/
def State.sessError (s : State) (sess code : Nat) : State :=
  if code = 0 ∨ code = 0xC ∨ code = 0xD ∨ 0x100 ≤ code then s
  else
    let (st, s) := s.stamp (portNodeNode (2 * sessHome sess))
    s.modSession sess (fun e => { e with lastErr := code, errors := satAdd 32 e.errors 1, errStamp := st })

/-- Answers a request that holds no tag. -/
def State.refuseReq (s : State) (r : SessReq) (code : Nat) : State := (s.sessError r.sess code).answerReq r.from' code []

/-! ## Tags, credits and routes of a home (R351 to R355) -/

/-- Whether a request is a write that takes credits. -/
def reqWrites (r : SessReq) : Bool := match r.kind with | .read => false | _ => true

/-- Credits a request consumes: one for each 128 bytes of a WR or AOW (R353). -/
def State.creditsOf (s : State) (r : SessReq) : Nat :=
  if reqWrites r && (s.session r.sess).credit / 4096 % 2048 ≠ 0 then (r.length + 127) / 128 else 0

/-- A session's inbox handle and N. -/
def Session.handle (e : Session) : Nat := e.credit % 4096
def Session.credits (e : Session) : Nat := e.credit / 4096 % 2048

/-- Whether the request lacks credits. -/
def State.lacksCredit (s : State) (r : SessReq) : Bool := decide ((s.session r.sess).held < s.creditsOf r)

/-- Answers every waiting write of a session that lacks credits with a fabric code. -/
def State.creditFail (s : State) (sess code : Nat) : State :=
  let h := sessHome sess
  let out := (s.portNode h).waiting.filter (fun r => r.sess = sess && s.lacksCredit r)
  let s1 := (s.modSession sess (fun e => { e with asked := false, busyRetry := false })).modPortNode h
    (fun x => { x with waiting := x.waiting.filter (fun r => !out.contains r) })
  forAll out s1 (fun s r => s.refuseReq r code)

/-- Sends CREDIT_REQ for a session's N credits (R353). -/
def State.askRemote (s : State) (sess : Nat) : State :=
  let e := s.session sess
  let r := (s.modSession sess (fun e => { e with asked := true, busyRetry := false })).send (sessHome sess)
    { dest := e.module, cls := .request, hops := 0, body := .creditReq sess e.handle e.credits } true
  if r.2 then r.1 else r.1.creditFail sess 5

/-- The sessions of a home in which requests wait, in session order from the one after the last served (R352). -/
def PortNode.turns (x : PortNode) : List Nat :=
  let l := (x.waiting.map SessReq.sess).eraseDups
  let after := (List.range 1024).map (fun i => x.turn / 1024 * 1024 + (x.turn + 1 + i) % 1024)
  after.filter (l.contains ·)

/-- The oldest request that waits in a session. -/
def PortNode.head (x : PortNode) (sess : Nat) : Option SessReq := x.waiting.find? (fun r => r.sess = sess)

/-- The lowest free tag of a port node's pool (R352). -/
def PortNode.freeTag (x : PortNode) : Option Nat := (x.freeTags 1).bind List.head?

/-- Whether a request may leave now: its session holds fewer tags than its share, and its credits are there. -/
def State.mayLeave (s : State) (r : SessReq) : Bool :=
  let e := s.session r.sess
  decide (e.outstanding < e.tagShare) && !s.lacksCredit r

/-- The class of a request's packet (Table 8 of chapter 13). -/
def Session.cls (e : Session) (r : SessReq) : TClass := if reqWrites r && e.rights.testBit 4 then .bulk else .request

/-- Sends a request under tag `n`: the tag is held, its credits are consumed, and the packet takes its route; without one
it is answered UNREACHABLE (R345, R351, R353). -/
def State.launchReq (s : State) (r : SessReq) (n : Nat) : State :=
  let h := sessHome r.sess
  let e := s.session r.sess
  let s0 := s.modPortNode h (fun x => { x with waiting := x.waiting.erase r, turn := r.sess })
  let k : Packet := { dest := e.module, cls := e.cls r, hops := 0, body := .sess ⟨h, n⟩ r.offset r.length (if s.creditsOf r = 0 then 0 else e.heldGen) r.kind }
  match s0.trySend k true with
  | .gone s1 =>
    (s1.modSession r.sess (fun e => { e with held := e.held - s.creditsOf r, outstanding := e.outstanding + 1 })).modPortNode h
      (fun x => { x with tags := sput none x.tags n (some { sess := some r.sess, req := r.from', write := reqWrites r, branches := [], failed := false }),
                         reclaimed := sput none x.reclaimed n none })
  | _ => s0.refuseReq r 5

/-- Serves the requests that wait at a home: sessions take turns; one that lacks credits asks for them (R352, R353). -/
def State.serveHome (s : State) (h : Nat) : (fuel : Nat) → State
  | 0 => s
  | fuel + 1 =>
    let s := forAll (s.portNode h).turns s (fun s k => match (s.portNode h).head k with
      | some r => if s.lacksCredit r && !(s.session k).asked then s.askRemote k else s
      | none => s)
    let x := s.portNode h
    match x.freeTag, (x.turns.filterMap x.head).find? s.mayLeave with
    | some n, some r => (s.launchReq r n).serveHome h fuel
    | _, _ => s

/-- Serves a home's waiting requests as far as tags and credits allow. -/
def State.serve (s : State) (h : Nat) : State := s.serveHome h ((s.portNode h).waiting.length + 1)

/-- Gives a CLOSING session that holds no tag its last state, and ends its command (R354, Table 13 of chapter 13). -/
def State.closeIfDone (s : State) (sess : Nat) : State :=
  let e := s.session sess
  if e.st = 2 ∧ e.outstanding = 0 then
    ((s.modSession sess (fun e => { e with st := 0 })).modPortNode (sessHome sess)
      (fun x => if x.cmdSess = sess then { x with busy := false } else x)).sessionGone sess
  else s

/-- Frees a tag and gives its use; `late` if a response may still come for it. -/
def State.freeTag (s : State) (t : Tag) (late : Bool) : Option (TagUse × State) :=
  match sget none (s.portNode t.node).tags t.num with
  | none => none
  | some u =>
    let s1 := s.modPortNode t.node (fun x =>
      { x with tags := sput none x.tags t.num none, reclaimed := if late then sput none x.reclaimed t.num u.sess else x.reclaimed })
    let s2 := match u.sess with
      | some k => (s1.modSession k (fun e => { e with outstanding := e.outstanding - 1 })).closeIfDone k
      | none => s1
    some (u, s2)

/-- Ends the request that holds a tag: its session records the code, the requester gets the answer, and waiting requests
are served (R351). -/
def State.endTag (s : State) (t : Tag) (code : Nat) (data : List Byte) (late : Bool) : State :=
  match s.freeTag t late with
  | none => s
  | some (u, s1) =>
    let s2 := match u.sess with | some k => s1.sessError k code | none => s1
    (s2.answerReq u.req code data).serve t.node

/-- A response returns to its home: it retires its tag, or counts LATE for a reclaimed one (R351). -/
def State.response (s : State) (t : Tag) (code : Nat) (data : List Byte) : State :=
  let x := s.portNode t.node
  match sget none x.tags t.num with
  | some _ => s.endTag t code data false
  | none => match sget none x.reclaimed t.num with
    | some k => (s.modPortNode t.node (fun x => { x with reclaimed := sput none x.reclaimed t.num none })).modSession k
        (fun e => { e with late := satAdd 32 e.late 1 })
    | none => s

/-! ## Multicast acknowledgements (R363) -/

/-- Counts a part of a multicast that failed, at the port node of a port. -/
def State.mcFailed (s : State) (p : Nat) (fails : Bool) : State :=
  if fails then s.modPortNode (p / 2) (fun x => { x with mcPartial := satAdd 15 x.mcPartial 1 }) else s

/-- Sends the MC_ACK of a received multicast that is complete, on its arrival port. -/
def State.mcAnswer (s : State) (m : McPending) : State :=
  if m.left.isEmpty then
    let s1 := { s with mcPending := s.mcPending.erase m }
    if s1.portUp m.port then s1.leaveBy m.port { dest := m.origin, cls := .response, hops := 0, body := .mcAck m.tag m.failed } true else s1
  else s

/-- The branch of a multicast by port `p` has ended: at the origin it counts toward the tag, elsewhere toward this module's
own MC_ACK. -/
def State.branchEnd (s : State) (p : Nat) (t : Tag) (fails : Bool) : State :=
  match sget none (s.portNode t.node).tags t.num with
  | some u =>
    if u.sess.isNone && u.branches.contains p then
      let v := { u with branches := u.branches.erase p, failed := u.failed || fails }
      let s1 := (s.mcFailed p fails).modPortNode t.node (fun x => { x with tags := sput none x.tags t.num (some v) })
      if v.branches.isEmpty then s1.endTag t (if v.failed then 0xC else 0) [] false else s1
    else s
  | none =>
    match s.mcPending.find? (fun m => m.tag = t && m.left.contains p) with
    | some m =>
      let m' := { m with left := m.left.erase p, failed := m.failed || fails }
      let s1 : State := s.mcFailed p fails
      ({ s1 with mcPending := s1.mcPending.map (fun x => if x = m then m' else x) }).mcAnswer m'
    | none => s

/-! ## Packets that cannot leave (R345) -/

/-- Whether a packet of a TYPE is a request (Table 3 of chapter 13). -/
def isRequestType (t : Nat) : Bool := t = 1 || t = 2 || t = 3 || t = 8

/-- The answer UNREACHABLE to the origin of a request in transit. -/
def unreachableRsp (origin : Nat) (tag : Tag) (type : Nat) : Packet :=
  { dest := origin, cls := .response, hops := 0,
    body := if type = 1 then .rdRsp tag 5 [] else if type = 8 then .creditGrant tag 5 0 0 else .wrAck tag 5 }

/-- Answers a request packet that no choice can carry with UNREACHABLE. -/
def State.unreachable (s : State) (h : Nat) (k : Packet) : State :=
  match k.body with
  | .sess t _ _ _ _ => s.endTag t 5 [] false
  | .creditReq sess _ _ => s.creditFail sess 5
  | .transit o t y => if isRequestType y then (s.send h (unreachableRsp o t y) false).1 else s
  | _ => s

/-- Sends a packet; a request that finds no route is answered (R345). -/
def State.sendOr (s : State) (h : Nat) (k : Packet) (own : Bool) : State :=
  let r := s.send h k own
  if r.2 then r.1 else r.1.unreachable h k

/-- Sends a packet by its destination's new choice, ahead of those that are held (R347). -/
def State.resend (s : State) (h : Nat) (k : Packet) : State :=
  match s.routeSend k false with
  | .gone s' => s'
  | .unreachable => s.unreachable h k
  | .dropped => s.hopDrop h

/-! ## Losing and restoring a route (R347, R348) -/

/-- A health-log entry of a port (Tables 2, 7 and 8 of chapter 15). -/
def portEntry (p cause action detail : Nat) (masked : Bool) : Report := report 6 cause action masked (portNodeNode p) p detail

/-- The multicast tag of a packet, if it is one. -/
def Packet.mcTag (k : Packet) : Option Tag := match k.body with | .mcast _ _ _ t => some t | _ => none

/-- A link goes DOWN or is disabled: the port enters HANDOVER, its destinations are held, and LINK_STATE goes to the peer
(R347 steps 1 and 2). What waits at the port waits with the held packets. -/
def State.linkDown (s : State) (p : Nat) (retrain : Bool) : State :=
  if !s.portUp p then s
  else
    let x := s.port p
    let h : Hold := { port := p, restore := false, before := s.upPorts, after := [], packets := x.txWait.map (·, false) ++ x.c0Wait.map (·, true) }
    let h := { h with packets := h.packets.filter (fun k => match k.1.body with | .mcast _ _ _ _ | .mcEvinc _ _ | .mcAck _ _ => false | _ => true) }
    let s1 := s.modPort p (fun x => { x with st := .handover, downs := satAdd 16 x.downs 1, retrain := retrain, txWait := [], c0Wait := [] })
    let s2 := forAll (x.txWait.filterMap Packet.mcTag) s1 (fun s t => s.branchEnd p t true)
    let s3 := { s2 with holds := s2.holds ++ [h] }
    match s3.routeSend { dest := x.peerId, cls := .control, hops := 0, body := .linkState p ((x.rxSeq + 4095) % 4096) } true with
    | .gone s' => s'
    | _ => s3.hopDrop (p / 2)

/-- Releases hold `h`: its packets leave by the new choices, oldest first. -/
def State.releaseHold (s : State) (h : Hold) : State :=
  let s1 := { s with holds := s.holds.erase h }
  forAll h.packets s1 (fun s k => s.sendOr (h.port / 2) k.1 k.2)

/-- The end of a handover: holds released, the port DOWN, and training again where that is due; the log records it
(R347). -/
def State.handoverEnd (s : State) (p cause : Nat) (masked : Bool) : State :=
  let mine := s.holds.filter (fun h => h.port = p && !h.restore)
  let s1 := (forAll mine s (fun s h => s.releaseHold h)).log (portEntry p cause 6 0 masked)
  s1.modPort p (fun x =>
    let again := x.retrain && x.en
    { x with st := if again then .training else .down, lanes := if again then (if s.bonded p then 8 else 4) else 0, lanesDropped := [],
             kept := [], txSeq := 0, rxSeq := 0, naks := 0, discarding := false, sinceAck := 0, retrain := false,
             ctlOut := if again then x.ctlOut ++ [.ident] else x.ctlOut })

/-- The flits of a replay buffer after the one with SEQ `n`; all of them if it holds none such. -/
def afterSeq (l : List KeptFlit) (n : Nat) : List KeptFlit :=
  if l.any (fun k => k.seq = n) then (l.dropWhile (fun k => k.seq ≠ n)).drop 1 else l

/-- LINK_STATE_RECEIVE (R347 step 3): what ended at or before the peer's SEQ is gone; the rest is sent whole by the new
choices, but for multicast packets, whose branches count as refused. -/
def execLinkStateReceive (port : Nat) (lastSeq : BitVec 12) (s : State) : Out :=
  onUnit (port < 32) "port" <|
    let x := s.port port
    if !s.up ∨ x.st ≠ .handover then s
    else
      let rest := (afterSeq x.kept lastSeq.toNat).map KeptFlit.packet
      let s1 := s.modPort port (fun x => { x with kept := [] })
      let s2 := forAll rest s1 (fun s k => match k.mcTag with
        | some t => s.branchEnd port t true
        | none => s.resend (port / 2) k)
      s2.handoverEnd port 3 true

/-- LINK_STATE_TIMEOUT (R347 step 4): the replay buffer is discarded and its packets counted. -/
def execLinkStateTimeout (port : Nat) (s : State) : Out :=
  onUnit (port < 32) "port" <|
    let x := s.port port
    if !s.up ∨ x.st ≠ .handover then s
    else
      let s1 := (s.modPort port (fun x => { x with kept := [] })).modPortNode (port / 2) (fun y => { y with lost := satAdd 16 y.lost x.kept.length })
      let s2 := forAll (x.kept.filterMap (fun k => k.packet.mcTag)) s1 (fun s t => s.branchEnd port t true)
      s2.handoverEnd port 4 false

/-- ROUTE_HOLD_EXPIRE (R348): HOLD_US after the last packet left by the old choice, the destination moves to its restored
port and its packets leave. -/
def execRouteHoldExpire (dest : Nat) (s : State) : Out :=
  .next <|
    match (if s.up then s.holds.findIdx? (fun h => h.restore && s.covers h dest) else none) with
    | none => s
    | some i =>
      match s.holds[i]? with
      | none => s
      | some h =>
        let go := h.packets.filter (fun k => k.1.dest = dest)
        let s1 := s.modHold i (fun h => { h with done := nins dest h.done, packets := h.packets.filter (fun k => k.1.dest ≠ dest) })
        forAll go s1 (fun s k => s.sendOr (h.port / 2) k.1 k.2)

/-! ## Ports: training and identity (R341 to R344) -/

/-- Whether a port has a link of its own: the odd port of a bonded node does not (R342). -/
def State.linkPort (s : State) (p : Nat) : Bool := !(s.bonded p && p % 2 = 1)

/-- Lanes a port trains with (R341). -/
def State.fullLanes (s : State) (p : Nat) : Nat := if s.bonded p then 8 else 4

/-- A port trains and sends its IDENT (R343). Link-layer state starts afresh unless flits are still kept for replay. -/
def State.train (s : State) (p : Nat) : State :=
  s.modPort p (fun x =>
    { x with st := .training, lanes := s.fullLanes p, lanesDropped := [], refusal := 0, retrain := false, ctlOut := x.ctlOut ++ [.ident] })

/-- Writes `STP_CTL.EN` (R343, R347): 1 trains a port; 0 hands over an UP link, and ends any other state. -/
def State.setPortEn (s : State) (p : Nat) (v : Bool) : State :=
  let x := s.port p
  let s1 := s.modPort p (fun x => { x with en := v })
  if !s.linkPort p ∨ x.en = v then s1
  else if v then (if x.st = .handover then s1.modPort p (fun x => { x with retrain := true }) else s1.train p)
  else match x.st with
    | .up => s1.linkDown p false
    | .handover => s1
    | _ => s1.modPort p (fun x => { x with st := .disabled, lanes := 0, kept := [], txSeq := 0, rxSeq := 0, naks := 0, discarding := false, sinceAck := 0 })

/-- Writes `STP_CTL.RETRAIN` = 1 (R341). -/
def State.retrainPort (s : State) (p : Nat) : State :=
  let x := s.port p
  if !x.en ∨ !s.linkPort p then s
  else match x.st with
    | .handover => s.modPort p (fun x => { x with retrain := true })
    | _ => s.train p

/-- Whether a register write reaches the port node of a port. -/
def State.portReach (s : State) (p : Nat) : Bool := s.reachable (portNodeNode p)

/-- STP_ENABLE (R343). -/
def execStpEnable (port : Nat) (s : State) : Out :=
  onUnit (port < 32) "port" (if s.portReach port then s.setPortEn port true else s)

/-- STP_DISABLE (R347). -/
def execStpDisable (port : Nat) (s : State) : Out :=
  onUnit (port < 32) "port" (if s.portReach port then s.setPortEn port false else s)

/-- STP_RETRAIN (R341). -/
def execStpRetrain (port : Nat) (s : State) : Out :=
  onUnit (port < 32) "port" (if s.portReach port then s.retrainPort port else s)

/-- The REFUSAL code that a peer's IDENT meets, 0 for none (R343). -/
def State.identRefusal (s : State) (p : Nat) (id : Ident) : Nat :=
  if field id.ident 48 16 ≠ 0x53A1 then 1
  else if field id.ident 28 4 = 0 then 2
  else if id.module.toNat = s.moduleId then 3
  else if id.bond ≠ s.bonded p then 4
  else 0

/-- The port becomes UP: destinations whose first choice it now is keep from it until their restore hold ends (R348). -/
def State.portUpNow (s : State) (p : Nat) : State :=
  let before := s.upPorts
  let s1 := s.modPort p (fun x => { x with st := .up, proto := min 1 (field x.peerIdent 28 4) })
  let h : Hold := { port := p, restore := true, before := before, after := s1.upPorts }
  { s1 with holds := s1.holds.filter (fun h => !(h.restore && h.port = p)) ++ [h] }

/-- IDENT_RECEIVE (R343, R344). -/
def execIdentReceive (port : Nat) (id : Ident) (s : State) : Out :=
  onUnit (port < 32) "port" <|
    if !s.up ∨ (s.port port).st ≠ .training then s
    else
      let s1 := s.modPort port (fun x => { x with peerId := id.module.toNat, peerPort := id.port.toNat, peerIdent := id.ident })
      let c := s.identRefusal port id
      let want := sget 0xFFFF s.loader.peers port
      if c ≠ 0 then s1.modPort port (fun x => { x with st := .refused, refusal := c })
      else if want ≠ 0xFFFF ∧ want ≠ id.module.toNat then s1.modPort port (fun x => { x with st := .miswired })
      else s1.portUpNow port

/-- IDENT_TIMEOUT (R343). -/
def execIdentTimeout (port : Nat) (s : State) : Out :=
  onUnit (port < 32) "port" <|
    if s.up ∧ (s.port port).st = .training then s.modPort port (fun x => { x with st := .refused, refusal := 5 }) else s

/-- REFUSED_RETRAIN (R343). -/
def execRefusedRetrain (port : Nat) (s : State) : Out :=
  onUnit (port < 32) "port" <|
    if s.up ∧ (s.port port).st = .refused ∧ (s.port port).en then s.train port else s

/-! ## The link layer (R339 to R341) -/

/-- Sends a flit without packets. -/
def State.sendCtl (s : State) (p : Nat) (f : CtlFlit) : State := s.modPort p (fun x => { x with ctlOut := x.ctlOut ++ [f] })

/-- Sends an ACK of the last SEQ received in order. -/
def State.sendAck (s : State) (p : Nat) : State :=
  let n := ((s.port p).rxSeq + 4095) % 4096
  (s.sendCtl p (.ack n)).modPort p (fun x => { x with sinceAck := 0, ackSent := n })

/-- Sends what waits for room in the replay buffer (R340). -/
def State.pumpTx (s : State) (p : Nat) : (fuel : Nat) → State
  | 0 => s
  | fuel + 1 =>
    let x := s.port p
    match x.txWait with
    | [] => s
    | k :: rest =>
      if x.kept.length < s.replayRoom p then ((s.modPort p (fun x => { x with txWait := rest })).transmit p k).pumpTx p fuel else s

/-- A packet for another module crosses this one (R345). -/
def State.transit (s : State) (p : Nat) (k : FlitPkt) : State :=
  if k.dest.toNat = s.moduleId then s
  else s.sendOr (p / 2) { dest := k.dest.toNat, cls := k.cls, hops := k.hops.toNat, body := .transit k.origin.toNat k.tag k.type.toNat } false

/-- DATA_FLIT_RECEIVE (R339, R340, R345): accepted in sequence, or discarded with one NAK for each error. What ends in it
and is for this module arrives by commands of its own; the rest goes on. -/
def execDataFlitReceive (port : Nat) (f : FlitIn) (s : State) : Out :=
  onUnit (port < 32) "port" <|
    let x := s.port port
    if !s.up ∨ x.st ≠ .up then s
    else if !f.good ∨ f.seq.toNat ≠ x.rxSeq then
      if f.good ∧ x.discarding then s
      else (s.sendCtl port (.nak x.rxSeq)).modPort port (fun x => { x with discarding := true })
    else if f.protocolError then s.linkDown port true
    else
      let s1 := s.modPort port (fun x => { x with rxSeq := (x.rxSeq + 1) % 4096, discarding := false, sinceAck := x.sinceAck + 1 })
      let s2 := if 64 ≤ (s1.port port).sinceAck then s1.sendAck port else s1
      forAll f.packets s2 (fun s k => (s.count (portNodeNode port) 0x61 (fun q => q % 8 = port % 2 + 2 * clsNo k.cls) 1).transit port k)

/-- NAK_RECEIVE (R340): flits from the SEQ named are resent; the eighth NAK of one SEQ in succession takes the link
DOWN. -/
def execNakReceive (port : Nat) (seq : BitVec 12) (s : State) : Out :=
  onUnit (port < 32) "port" <|
    let x := s.port port
    if !s.up ∨ x.st ≠ .up then s
    else
      let n := if x.naks ≠ 0 ∧ x.nakSeq = seq.toNat then x.naks + 1 else 1
      let s1 := s.modPort port (fun x => { x with nakSeq := seq.toNat, naks := n })
      if 8 ≤ n then s1.linkDown port false
      else
        let again := x.kept.dropWhile (fun k => k.seq ≠ seq.toNat)
        ((s1.modPort port (fun x =>
          { x with replays := satAdd 32 x.replays again.length,
                   out := x.out ++ again.map (fun k => { k.packet with hops := k.packet.hops + 1 }) })).count
          (portNodeNode port) 0x62 (fun q => q % 2 = port % 2) again.length).log (portEntry port 1 1 seq.toNat true)

/-- ACK_RECEIVE (R340). -/
def execAckReceive (port : Nat) (seq : BitVec 12) (s : State) : Out :=
  onUnit (port < 32) "port" <|
    let x := s.port port
    if !s.up ∨ x.st ≠ .up ∨ !(x.kept.any (fun k => k.seq = seq.toNat)) then s
    else
      (s.modPort port (fun x => { x with kept := afterSeq x.kept seq.toNat, naks := 0 })).pumpTx port x.txWait.length

/-- ACK_TIMER (R340). -/
def execAckTimer (port : Nat) (s : State) : Out :=
  onUnit (port < 32) "port" (if s.up ∧ (s.port port).st = .up then s.sendAck port else s)

/-- ACK_STALL_TIMEOUT (R340). -/
def execAckStallTimeout (port : Nat) (s : State) : Out :=
  onUnit (port < 32) "port" (if s.up ∧ !(s.port port).kept.isEmpty then s.linkDown port false else s)

/-- LANE_DROP (R341): the link goes on with the lanes left, or goes DOWN with none. -/
def execLaneDrop (port : Nat) (lane : Nat) (s : State) : Out :=
  onUnit (port < 32) "port" <|
    let x := s.port port
    if !s.up ∨ !(x.st = .up ∨ x.st = .miswired) ∨ s.fullLanes port ≤ lane ∨ x.lanesDropped.contains lane then s
    else
      let s1 := s.modPort port (fun x => { x with lanes := x.lanes - 1, laneDrops := satAdd 8 x.laneDrops 1, lanesDropped := nins lane x.lanesDropped })
      let n := (s1.port port).lanes
      if n = 0 then
        if x.st = .up then s1.linkDown port false else s1.modPort port (fun x => { x with st := .down })
      else (s1.sendCtl port (.lanes n)).log (portEntry port 2 2 lane true)

/-- WITHDRAW_FLIT_RECEIVE (R417): the peer withdraws and the port hands over. -/
def execWithdrawFlitReceive (port : Nat) (s : State) : Out :=
  onUnit (port < 32) "port" (if s.up then s.linkDown port false else s)

/-- Sends waiting class-0 packets within a microsecond's allotment (R362). -/
def State.releaseC0Port (s : State) (p : Nat) : (fuel : Nat) → State
  | 0 => s
  | fuel + 1 =>
    let x := s.port p
    match x.c0Wait with
    | [] => s
    | k :: rest =>
      if x.c0Sent < x.c0Allot then ((s.modPort p (fun x => { x with c0Wait := rest })).leaveBy p k true).releaseC0Port p fuel else s

/-- C0_PORT_RELEASE (R362): a microsecond begins, and held class-0 packets leave up to C0_ALLOT. -/
def execC0PortRelease (port : Nat) (s : State) : Out :=
  onUnit (port < 32) "port" <|
    if !s.up ∨ !s.portUp port then s
    else (s.modPort port (fun x => { x with c0Sent := 0 })).releaseC0Port port (s.port port).c0Wait.length

/-! ## Sessions (R349 to R355) -/

/-- The RESULT that refuses an OPEN at a port node, 0 for OK (R350). -/
def State.openResult (s : State) (node sess module template : Nat) : Nat :=
  if sessHome sess ≠ node then 1
  else if (s.session sess).st ≠ 0 then 2
  else if !(sget {} s.loader.templates template).valid then 3
  else if module = s.moduleId ∨ module = 0x3FFF ∨ 16382 < module then 4
  else 0

/-- A session opens: the template is copied, the counters are zero, OPENED is stamped (R350). -/
def State.sessionOpen (s : State) (node sess module template : Nat) : State :=
  let t := sget {} s.loader.templates template
  let (st, s2) := s.stamp (portNodeNode (2 * node))
  s2.modSession sess (fun e =>
    { e with st := 1, rights := t.rights, template := template, module := module, tagShare := t.tagShare, base := t.base, length := t.length,
             credit := t.credit, held := 0, outstanding := 0, errors := 0, late := 0, opened := st, asked := false, busyRetry := false })

/-- OPEN (R350). -/
def State.openSession (s : State) (node sess module template : Nat) : State :=
  let c := s.openResult node sess module template
  let s1 := s.modPortNode node (fun x => { x with result := c })
  if c ≠ 0 then s1 else s1.sessionOpen node sess module template

/-- CLOSE (R354): requests that wait are answered NO_SESSION, credits go back to the remote inbox, and the session is
CLOSED once it holds no tag. -/
def State.closeSession (s : State) (sess : Nat) : State :=
  let e := s.session sess
  let h := sessHome sess
  if e.st ≠ 1 then s
  else
    let out := (s.portNode h).waiting.filter (fun r => r.sess = sess)
    let s1 := (s.modSession sess (fun e => { e with st := 2, held := 0, asked := false, busyRetry := false })).modPortNode h
      (fun x => { x with waiting := x.waiting.filter (fun r => r.sess ≠ sess) })
    let s2 := forAll out s1 (fun s r => s.refuseReq r 1)
    let s3 := if e.held = 0 then s2
      else s2.sendOr h { dest := e.module, cls := .request, hops := 0, body := .creditRet e.handle e.held e.heldGen } true
    s3.closeIfDone sess

/-- A write of `SESS_CMD` (R350, R354, Table 13 of chapter 13); one while BUSY is ignored. -/
def State.writeSessCmd (s : State) (node : Nat) (w : Word) : State :=
  let x := s.portNode node
  if x.busy then s
  else
    let sess := field w 4 14
    let s1 := s.modPortNode node (fun x =>
      { x with cmdOp := field w 0 3, cmdSess := sess, cmdModule := field w 18 14, cmdTemplate := field w 32 10 })
    match field w 0 3 with
    | 1 => s1.openSession node sess (field w 18 14) (field w 32 10)
    | 2 =>
      if sessHome sess ≠ node then s1.modPortNode node (fun x => { x with result := 1 })
      else
        let s2 := (s1.modPortNode node (fun x => { x with result := 0, busy := decide ((s.session sess).st = 1) })).closeSession sess
        s2
    | _ => s1

/-- SESS_OPEN (R350). -/
def execSessOpen (node : Nat) (w : Word) (s : State) : Out :=
  onUnit (node < 16) "port node" (if s.portReach (2 * node) ∧ field w 0 3 = 1 then s.writeSessCmd node w else s)

/-- SESS_CLOSE (R354). -/
def execSessClose (node : Nat) (w : Word) (s : State) : Out :=
  onUnit (node < 16) "port node" (if s.portReach (2 * node) ∧ field w 0 3 = 2 then s.writeSessCmd node w else s)

/-- The tags a session holds. -/
def State.sessTags (s : State) (sess : Nat) : List Tag :=
  let h := sessHome sess
  ((s.portNode h).tags.filter (fun p => match p.2 with | some u => u.sess = some sess | none => false)).map (fun p => ⟨h, p.1⟩)

/-- Reclaims every tag of a CLOSING session, whose requesters receive TIMEOUT (R354). -/
def State.reclaimSession (s : State) (sess : Nat) : State := forAll (s.sessTags sess) s (fun s t => s.endTag t 4 [] true)

/-- SESS_CLOSE_TIMEOUT (R354): 10 µs after CLOSE the remaining tags are reclaimed and the session is CLOSED. -/
def execSessCloseTimeout (sess : Nat) (s : State) : Out :=
  onUnit (sess < 16384) "session" (if s.up ∧ (s.session sess).st = 2 then s.reclaimSession sess else s)

/-- Whether a requester is waiting to make exactly this request. -/
def State.wantsReq (s : State) (r : SessReq) : Bool :=
  match r.from' with
  | .access id => s.reqs.any (fun q => q.id = id && q.resp.isNone && q.session = some (r.dest.toNat, r.sess) && q.addr.toNat % 2 ^ 44 = r.offset &&
      match q.kind with
      | .load n => r.kind = .read && r.length = n
      | .store d => r.kind = .write d && r.length = d.length
      | .aow op x => r.kind = .aow op (leBytes 8 x.toNat) && r.length = 8)
  | .dma c b =>
    let x := s.chan c
    let k := b % 1024
    x.bursts.any (fun y => y.id = b / 1024 && !y.dead && match x.runOf y.desc with
      | none => false
      | some q =>
        let d := q.desc
        let away := fun (a : Nat) => (s.dmaLocal a).isNone && a % 2 ^ 44 = r.offset && a / 2 ^ 44 % 2 ^ 14 = r.dest.toNat
        d.session = r.sess && (if k < 512 then
          match y.src[k]? with
          | some (some a, n) => !y.read && away a && n = r.length && r.kind = .read && !y.got.any (fun g => g.1 = k)
          | _ => false
        else
          match y.dst[k - 512]? with
          | some (a, n) =>
            let data := (y.data.drop ((y.dst.take (k - 512)).map Prod.snd).sum).take n
            y.left && !d.mcast && away a && n = r.length && !y.acks.contains k
              && (if d.aow then (match r.kind with | .aow op l => aowOpOf d.aowop = some op && l = data | _ => false) else r.kind = .write data)
          | none => false))
  | .unit h w n =>
    let u := h.toNat
    let x := s.unitOf u
    x.valid && uKind u = 3 && x.rec'.session = r.sess &&
      if x.rec'.mode = 0 then
        let a := s.unitAddr u { x with pos := n }
        w = x.wave && decide (x.pos ≤ n) && r.kind = .read && r.length = 64 && a % 2 ^ 44 = r.offset && a / 2 ^ 44 % 2 ^ 14 = r.dest.toNat
          && !x.fetched.any (fun p => p.1 = w && p.2.1 = n)
      else x.outbox.any (fun o => o.1 = w && o.2.1 = n && o.2.2.1 % 2 ^ 44 = r.offset && o.2.2.1 / 2 ^ 44 % 2 ^ 14 = r.dest.toNat
          && r.kind = .write o.2.2.2.1 && r.length = o.2.2.2.1.length)
  | .module => r.length = (match r.kind with | .read => r.length | .write d => d.length | .aow _ d => d.length)

/-- Whether the home already has a request of this requester. -/
def State.inHand (s : State) (r : SessReq) : Bool :=
  let x := s.portNode (sessHome r.sess)
  match r.from' with
  | .module => false
  | _ => x.waiting.any (fun q => q.from' = r.from') || x.tags.any (fun p => match p.2 with | some u => u.req = r.from' | none => false)

/-- Notes at the requester that a request has reached its home. -/
def State.noteAsked (s : State) (r : SessReq) : State :=
  match r.from' with
  | .dma c b => s.modBurst c (b / 1024) (fun y => { y with asked := y.asked ++ [b % 1024] })
  | .unit h w n => s.modUnit h.toNat (fun x =>
      if x.rec'.mode = 0 then { x with asked := x.asked ++ [(w, n)] }
      else { x with outbox := x.outbox.map (fun o => if o.1 = w && o.2.1 = n then (o.1, o.2.1, o.2.2.1, o.2.2.2.1, true) else o) })
  | _ => s

/-- The fabric code that a request meets at its home before it takes a tag (R351). -/
def State.homeCheck (s : State) (r : SessReq) : Nat :=
  let e := s.session r.sess
  if e.st ≠ 1 ∨ e.module ≠ r.dest.toNat then 1
  else if !(match r.kind with | .read => e.rights.testBit 0 | .write _ => e.rights.testBit 1 | .aow _ _ => e.rights.testBit 2) then 2
  else if r.offset < e.base ∨ e.base + e.length < r.offset + r.length then 3
  else 0

/-- SESSION_REQUEST (R351 to R353). -/
def execSessionRequest (r : SessReq) (s : State) : Out :=
  onUnit (r.sess < 16384) "session" <|
    if !s.up ∨ !s.wantsReq r ∨ s.inHand r then s
    else
      let h := sessHome r.sess
      let s1 := s.noteAsked r
      if s.blocked (nodeHalf (portNodeNode (2 * h))) then s1.answerReq r.from' (dieError dParked) []
      else
        let s1 := s1.count (portNodeNode (2 * h)) 0x64 (fun _ => true) 1
        let c := s1.homeCheck r
        if c ≠ 0 then s1.refuseReq r c
        else (s1.modPortNode h (fun x => { x with waiting := x.waiting ++ [r] })).serve h

/-- TAG_TIMEOUT (R351): a tag with no response after 1 ms is reclaimed. -/
def execTagTimeout (tag : Tag) (s : State) : Out :=
  onUnit (tag.node < 16 && tag.num < 8192) "tag" (if s.up then s.endTag tag 4 [] true else s)

/-- CREDIT_BUSY_RETRY (R353). -/
def execCreditBusyRetry (sess : Nat) (s : State) : Out :=
  onUnit (sess < 16384) "session" <|
    let e := s.session sess
    if s.up ∧ e.st = 1 ∧ e.busyRetry then s.askRemote sess else s

/-- RD_RSP_RECEIVE (R351). -/
def execRdRspReceive (tag : Tag) (status : BitVec 8) (data : List Byte) (s : State) : Out :=
  onUnit (tag.node < 16 && tag.num < 8192) "tag" (if s.up then s.response tag status.toNat data else s)

/-- WR_ACK_RECEIVE (R351). -/
def execWrAckReceive (tag : Tag) (status : BitVec 8) (s : State) : Out :=
  onUnit (tag.node < 16 && tag.num < 8192) "tag" (if s.up then s.response tag status.toNat [] else s)

/-- CREDIT_GRANT_RECEIVE (R353): credits add to HELD, those of another GEN being discarded; CREDIT_BUSY is tried again
later; an error answers the writes that wait. A grant that a closed session no longer wants goes back. -/
def execCreditGrantReceive (sess : Nat) (status : BitVec 8) (count : Nat) (gen : BitVec 4) (s : State) : Out :=
  onUnit (sess < 16384) "session" <|
    let e := s.session sess
    if !s.up then s
    else if e.st ≠ 1 ∨ !e.asked then
      if status = 0 ∧ count ≠ 0 then
        s.sendOr (sessHome sess) { dest := e.module, cls := .request, hops := 0, body := .creditRet e.handle count gen.toNat } true
      else s
    else if status = 0 then
      (s.modSession sess (fun e =>
        { e with asked := false, heldGen := gen.toNat, held := min ((if e.heldGen = gen.toNat then e.held else 0) + count) 65535 })).serve (sessHome sess)
    else if status = 0xD then s.modSession sess (fun e => { e with busyRetry := true })
    else s.creditFail sess status.toNat

/-! ## At the target (R359 to R361) -/

/-- Whether an EXPOSE record allows an access of kind bit `right` (R359). -/
def State.exposed (s : State) (right origin a n : Nat) : Bool :=
  n ≠ 0 && s.loader.expose.any (fun r => match r with
    | .memory rights first last base length =>
      rights.testBit right && decide (first ≤ origin) && decide (origin ≤ last) && decide (base ≤ a) && decide (a + n ≤ base + length)
    | .counters _ _ _ _ _ => false)

/-- Whether a range touches the control space, which is never served to the fabric (R359). -/
def touchesCtl (a n : Nat) : Bool := decide (a < 0x1F064000000) && decide (0x1F000000000 < a + n)

/-- The code that refuses a remote access before it is performed: WITHDRAWN, TARGET_DENIED or none (R359, R417). -/
def State.targetCheck (s : State) (right : Nat) (p : RemoteReq) (n : Nat) : Nat :=
  if s.rel.st ≠ 0 then 0xB else if !s.exposed right p.origin p.offset n ∨ touchesCtl p.offset n then 6 else 0

/-- Whether a port receives packets. -/
def State.receives (s : State) (port : Nat) : Bool := s.up && s.portUp port

/-- The half of a port's node, whose agent performs an accepted access (R360). -/
def portHalf (p : Nat) : Half := nodeHalf (portNodeNode p)

/-- RD_RECEIVE (R359, R360, R417). -/
def execRdReceive (port : Nat) (p : RemoteReq) (s : State) : Out :=
  onUnit (port < 32) "port" <|
    if !s.receives port then s
    else
      let reply := fun (s : State) (c : Nat) (d : List Byte) =>
        s.sendOr (port / 2) { dest := p.origin, cls := .response, hops := 0, body := .rdRsp p.tag c d } true
      let c := s.targetCheck 0 p p.length
      if c ≠ 0 then reply s c []
      else match s.readAcc (portHalf port) p.offset p.length with
        | .ok d => reply s 0 d
        | .error e => reply (if e = dUncorrectable then s.noteUe p.offset else s) (fabricCode e) []

/-- Performs the pieces of at most 128 bytes of a remote write, each under the inbox rules with the packet's GEN: the first
error's DETAIL (R222, R223, R360). -/
def State.remoteWrite (s : State) (port : Nat) (gen : Nat) (a : Nat) (n : Nat) (act : State → Nat → Nat → Option Nat × State) : Option Nat × State :=
  (cutAt 128 a n).foldl (fun (r : Option Nat × State) q =>
    let y := r.2.creditedWrite (portHalf port) none q.1 q.2 (some gen) (fun s => act s q.1 q.2)
    (r.1.or y.1, if y.1 = some dUncorrectable then y.2.noteUe q.1 else y.2)) (none, s)

/-- Answers a remote write or AOW with WR_ACK (R360). -/
def State.wrAck (s : State) (port : Nat) (p : RemoteReq) (c : Nat) : State :=
  s.sendOr (port / 2) { dest := p.origin, cls := .response, hops := 0, body := .wrAck p.tag c } true

/-- WR_RECEIVE (R359, R360, R417). -/
def execWrReceive (port : Nat) (p : RemoteReq) (s : State) : Out :=
  onUnit (port < 32) "port" <|
    if !s.receives port then s
    else
      let c := s.targetCheck 1 p p.data.length
      if c ≠ 0 then s.wrAck port p c
      else
        let r := s.remoteWrite port p.gen p.offset p.data.length (fun s a n => s.writeAcc (portHalf port) a ((p.data.drop (a - p.offset)).take n))
        r.2.wrAck port p ((r.1.map fabricCode).getD 0)

/-- AOW_PACKET_RECEIVE (R217, R327, R359, R360): whole aligned words, each an indivisible operation of its bank. -/
def execAowPacketReceive (port : Nat) (op : AowOp) (p : RemoteReq) (s : State) : Out :=
  onUnit (port < 32) "port" <|
    if !s.receives port then s
    else
      let c := s.targetCheck 2 p p.data.length
      if c ≠ 0 then s.wrAck port p c
      else if p.offset % 8 ≠ 0 ∨ p.data.length % 8 ≠ 0 then s.wrAck port p 6
      else
        let r := s.remoteWrite port p.gen p.offset p.data.length (fun s a n =>
          (List.range (n / 8)).foldl (fun (x : Option Nat × State) k =>
            let y := x.2.aowAt (portHalf port) (a + 8 * k) op (fld p.data (a + 8 * k - p.offset) 8)
            (x.1.or y.1, y.2)) (none, s))
        r.2.wrAck port p ((r.1.map fabricCode).getD 0)

/-- Whether a COUNTERS record allows an increment (R361). -/
def State.counterOpen (s : State) (origin tiller ctr : Nat) : Bool :=
  tiller < 64 && s.loader.expose.any (fun r => match r with
    | .counters f l first last t => decide (f ≤ ctr) && decide (ctr ≤ l) && decide (first ≤ origin) && decide (origin ≤ last) && bit t tiller
    | .memory _ _ _ _ _ => false)

/-- EVINC_PACKET_RECEIVE (R361, R417). -/
def execEvincPacketReceive (port : Nat) (origin : Nat) (tiller ctr : Nat) (amount : BitVec 32) (s : State) : Out :=
  onUnit (port < 32) "port" <|
    if !s.receives port ∨ s.rel.st ≠ 0 then s
    else if !s.counterOpen origin tiller ctr then s.modPortNode (port / 2) (fun x => { x with c0Deny := satAdd 16 x.c0Deny 1 })
    else s.flyOne (portNodeNode port) (tillerNode tiller) (.inc ctr amount.toNat)

/-- MCAST_WR_RECEIVE (R363): delivery through the local group, forwarding on the other members, and one MC_ACK once both
are done. -/
def execMcastWrReceive (port : Nat) (group : Nat) (p : RemoteReq) (s : State) : Out :=
  onUnit (port < 32) "port" <|
    if !s.receives port then s
    else
      let g := sget {} s.loader.stolonGroups group
      let branches := ((List.range 32).filter (fun q => bit g.members q)).filter (· ≠ port)
      let refuse := s.rel.st ≠ 0 || !g.valid
      let addrs := if refuse || g.local' = 0xFF then [] else s.mcastAddrs g.local' (p.offset % 2 ^ 22)
      let w := addrs.foldl (fun (r : Bool × State) a =>
        let y := (cutAt 128 a p.data.length).foldl (fun (r : Option Nat × State) q =>
          let y := r.2.creditedWrite (portHalf port) none q.1 q.2 none
            (fun s => s.writeAcc (portHalf port) q.1 ((p.data.drop (q.1 - a)).take q.2))
          (r.1.or y.1, y.2)) (none, r.2)
        (r.1 || y.1.isSome, y.2)) (false, s)
      let s1 := w.2.mcFailed port (w.1 || refuse)
      let fwd := if refuse then [] else branches
      let up := fwd.filter (fun q => s.portUp q && p.hops < 31)
      let s2 := forAll (fwd.filter (fun q => !up.contains q)) s1 (fun s q => s.mcFailed q true)
      let s3 := if 31 ≤ p.hops then forAll fwd s2 (fun s q => s.hopDrop (q / 2)) else s2
      let s4 := forAll up s3 (fun s q => s.leaveBy q { dest := 0, cls := .bulk, hops := p.hops, body := .mcast group p.offset p.data p.tag } false)
      let m : McPending := { port := port, origin := p.origin, tag := p.tag, failed := w.1 || refuse || up.length ≠ fwd.length, left := up }
      ({ s4 with mcPending := s4.mcPending ++ [m] }).mcAnswer m

/-- MC_ACK_RECEIVE (R363). -/
def execMcAckReceive (port : Nat) (tag : Tag) (partialFail : Bool) (s : State) : Out :=
  onUnit (port < 32 && tag.node < 16 && tag.num < 8192) "port or tag" (if s.receives port then s.branchEnd port tag partialFail else s)

/-- Requests from Stolon on the waiting list of a tiller (R228). -/
def State.stolonWaiters (s : State) (T : Nat) : Nat :=
  ((s.tiller T).inboxes.map (fun p => (p.2.waiters.filter (fun w => match w.1 with | .stolon _ _ _ => true | _ => false)).length)).sum

/-- CREDIT_REQ_RECEIVE (R228, R353, R417). -/
def execCreditReqReceive (port : Nat) (origin : Nat) (tag : Tag) (handle : BitVec 12) (n : BitVec 11) (s : State) : Out :=
  onUnit (port < 32) "port" <|
    if !s.receives port then s
    else
      let T := handle.toNat / 64
      let i := handle.toNat % 64
      let reply := fun (c : Nat) => s.sendOr (port / 2) { dest := origin, cls := .response, hops := 0, body := .creditGrant tag c 0 0 } true
      if s.rel.st ≠ 0 then reply 0xB
      else match s.routeErr (portHalf port) (tmAddr T 0) with
        | some e => reply (fabricCode e)
        | none =>
          let b := s.inbox T i
          if b.valid && b.avail = 0 && decide (1024 ≤ s.stolonWaiters T) then reply 0xD
          else s.askInbox T i (.stolon port origin tag) n.toNat

/-- CREDIT_RET_RECEIVE (R230, R354). -/
def execCreditRetReceive (handle : BitVec 12) (count : BitVec 16) (gen : BitVec 4) (s : State) : Out :=
  .next <|
    let T := handle.toNat / 64
    if s.reachable (tillerNode T) then s.returnCredits T (handle.toNat % 64) gen.toNat count.toNat else s

/-! ## Remote windows (R357) -/

/-- Word 0 and word 1 of a window entry as they are kept (Table 10 of chapter 13). -/
def windowWord0 (w : Word) : Word := word (field w 0 1 + field w 12 46 * 2 ^ 12)
def windowWord1 (w : Word) : Word := word (field w 12 46 * 2 ^ 12)

/-- Writes word 0 of a remote window entry, which brings word 1 as last written into force. -/
def State.writeWindow0 (s : State) (T i : Nat) (w : Word) : State :=
  s.modTiller T (fun x => { x with windows := sput {} x.windows i (let e := sget {} x.windows i; { e with w0 := windowWord0 w, w1 := e.w1Next }) })

/-- REMOTE_WINDOW_WRITE (R357). -/
def execRemoteWindowWrite (tiller i : Nat) (w : Word) (s : State) : Out :=
  onUnit (tiller < 64 && i < 64) "window" (if s.reachable (tillerNode tiller) then s.writeWindow0 tiller i w else s)

end Sys2Proof.Machine
end

