-- ==== Sys2Proof/Machine/Resets.lean ====
section
/-! DEFINITION. The cold, module, core and link resets (Table 10 of chapter 18). -/

namespace Sys2Proof.Machine

/-- What the repair tables in boot flash hold of a store instance (R399, R405). -/
def SramRepair.kept (x : SramRepair) : SramRepair := { rows := x.rows, bankUsed := x.bankUsed }

/-- What the remap table in boot flash holds of a stack (R328). -/
def Stack.kept (x : Stack) : Stack := { remap := x.remap, bankRows := x.bankRows }

/-- The module after a reset that keeps flash and fuses, in a power state: the commands that wait and the model's count of
free values stay. -/
def State.afresh (s : State) (p : Power) : State :=
  { pending := s.pending, freeCtr := s.freeCtr, fuses := s.fuses, flashA := s.flashA, flashB := s.flashB, power := p,
    repairs := s.repairs.map (fun r => (r.1, r.2.kept)), hbmStacks := s.hbmStacks.foldl (fun m p => sput {} m p.1 p.2.kept) [],
    rel := { retired := s.rel.retired }, culmNodes := s.culmNodes.foldl (fun m p => sput {} m p.1 { rows := p.2.rows }) [] }

/-- The cold reset: power goes, and with it everything but flash and fuses (R453, R459). -/
def State.coldReset (s : State) (phase : Phase) (thermal : Bool) : State :=
  s.afresh { phase, thermal, powerEn := s.power.powerEn, present := s.power.present, restartOk := false }

/-- The module reset: the `TB` count, the health log, the power front end and CARRIER_CAP stay, and the bypass is still to
close (R462, R465, R486). -/
def State.moduleReset (s : State) : State :=
  let p := s.power
  { s.afresh { phase := .reset, powerEn := p.powerEn, present := p.present, restartOk := p.restartOk, vin := p.vin, iin := p.iin, samples := p.samples,
               pavg := p.pavg, carrierCap := p.carrierCap, bypassOpen := p.bypassOpen } with
    time := { tb := s.time.tb, counting := s.time.counting, resync := [(0, 1), (1, 1), (2, 1)] }
    rel := { retired := s.rel.retired, log := s.rel.log, head := s.rel.head, lost := s.rel.lost } }

/-- The core reset (R126, R135, R230, R255, R275). -/
def State.coreReset (s : State) (core : Nat) : State :=
  if !s.clockOn (tillerHalf (core / 16)) then s
  else
    let s1 := forAll ((List.range 8).map (ChanRef.core core ·)) s State.dmaDisable
    let s2 := forAll (List.range 8) s1 (fun s k => s.kill ⟨core, k⟩)
    let s3 := (s2.stopCtx0 core).modCore core (fun x => { (x.emptyTiles (List.range 16)) with town := ({} : Core).town, teSent := 0 })
    let s4 := forAll (List.range 8) s3 (fun s k => s.modCtx ⟨core, k⟩ (fun x => { x with dbg := {} }))
    if s4.ctx0Due core then s4.startCtx0 core else s4

/-- The link reset: a port is disabled, then enabled and trained with every lane (R343, R347). -/
def State.linkReset (s : State) (p : Nat) : State :=
  ((s.setPortEn p false).modPort p (fun x => { x with lanesDropped := [] })).setPortEn p true

end Sys2Proof.Machine
end

