-- ==== Sys2Proof/Machine/Thatch.lean ====
section
/-! DEFINITION. The Thatch loader: the commands DRAIN, RESUME, LOAD and PURGE, the acceptance of an image, the writing and
checking of its regions, and the region reset (chapter 2, R485, R487). -/

namespace Sys2Proof.Machine

/-! ## The configuration that an image gives (R73) -/

/-- Whether a load applies a section: a region reset takes only the sections of its regions, none of base scope, and from a
base image none that is die-wide (R487). -/
def usesSec (reset fromBase : Bool) (mask : Nat) (x : Sec) : Bool :=
  knownType x.type && (!reset || (!baseOnly x.type && !(fromBase && splitScope x.type) && (x.region = 0xFF || mask.testBit x.region)))

/-- The records of `k` bytes of every section of a type. -/
def recsOf (k : Nat) (img : List Byte) (xs : List Sec) (t : Nat) : List (List Byte) :=
  (xs.filter (fun x => x.type = t)).flatMap (fun x => (chunks k (secBody img x)).map Prod.snd)

/-- The body of the section of a type that configures a region, or the whole module (0xFF); empty without one. -/
def bodyOf (img : List Byte) (xs : List Sec) (t region : Nat) : List Byte :=
  match xs.find? (fun x => x.type = t && x.region = region) with | some x => secBody img x | none => []

/-- The router tables that a load sets (R65, R66): of every node for a base image, of the masked regions' tiller nodes for
a partial one. -/
def tablesOf (p : Plan) (img : List Byte) (xs : List Sec) : List NodeTables :=
  let routes := recsOf 16 img xs 2
  let slots := recsOf 40 img xs 3
  let d : Node := {}
  (if p.base then List.range 100 else (p.tillers 0xFF).map tillerNode).map (fun n =>
    let ovr := (routes.filter (fun l => fld l 0 1 = n)).foldl (fun m l => sput 0 m (fld l 1 1) (ovrBits (word (fld l 8 8)))) []
    match slots.find? (fun l => fld l 0 1 = n) with
    | some l => { node := n, slot := word (fld l 8 8), arb := word (fld l 16 8), destLo := word (fld l 24 8), destHi := word (fld l 32 8), ovr }
    | none => { node := n, slot := d.slot, arb := d.arb, destLo := d.destLo, destHi := d.destHi, ovr })

/-- A node with new router tables. -/
def Node.withTables (n : Node) (t : NodeTables) : Node := { n.resetTables.withSlots t.slot t.arb t.destLo t.destHi with ovr := t.ovr }

/-- The nodes with new router tables. -/
def withTables (cfg : Sparse Node) (ts : List NodeTables) : Sparse Node := ts.foldl (fun m t => sput {} m t.node ((sget {} m t.node).withTables t)) cfg

/-- The multicast group records of a load, of one kind (Table 13 of chapter 9). -/
def groupRecs (img : List Byte) (xs : List Sec) (kind : Nat) : List (Nat × McGroup) :=
  (xs.filter (fun x => x.type = 0xD)).flatMap (fun x =>
    let b := secBody img x
    (((mcastRecs b.length 0 b).getD []).filter (fun q => fld q.2 1 1 = kind)).map (fun q => (fld q.2 0 1, groupOf q.2)))

/-- The groups of a kind that result: a base image replaces them all. -/
def groupsAfter (base : Bool) (old : Sparse McGroup) (l : List (Nat × McGroup)) : Sparse McGroup :=
  l.foldl (fun m g => sput {} m g.1 g.2) (if base then [] else old)

/-- The inboxes that result, by tiller. -/
def State.boxesAfter (s : State) (p : Plan) (img : List Byte) (xs : List Sec) : List (Nat × Inbox) :=
  let ts := p.tillers 0xFF
  (recsOf 16 img xs 6).map (fun l => (fld l 1 1, inboxOf l))
    ++ ((List.range 64).filter (fun T => !ts.contains T)).flatMap (fun T => ((s.tiller T).inboxes.filter (fun b => b.2.valid)).map (fun b => (T, b.2)))

/-- The buffer pairs of a load: tiller, pair, address and half size. -/
def pairsOf (img : List Byte) (xs : List Sec) : List (Nat × Nat × Nat × Nat) :=
  ((recsOf 32 img xs 9).filter (fun l => fld l 0 1 = 1)).map (fun l => (fld l 1 1, fld l 2 1, fld l 8 8, fld l 16 4))

/-- Owner tables of an OWNERSHIP body (R70). -/
def ownerGroups (b : List Byte) (o n : Nat) : Sparse Nat := (List.range n).foldl (fun m i => sput 0xFF m i (fld b (o + i) 1)) []

/-- Trees that enter the class-0 budget of a partial load: a group counts with the links of its old and its new tree. -/
def treesBoth (old new : Sparse McGroup) : List McGroup :=
  (List.range 64).flatMap (fun k =>
    let a := sget {} old k
    let b := sget {} new k
    if a.valid && b.valid && a.plane = b.plane then [{ b with branches := b.branches ++ a.branches }] else [a, b])

/-! ## Structural checks (R73, Table 7) -/

/-- Position of a failure in Table 7: the first row that fails is reported. -/
def failRank (code : Nat) : Nat := ([0x05, 0x06, 0x0D, 0x0F, 0x10, 0x11, 0x12, 0x13, 0x14, 0x15, 0x16, 0x17, 0x0E].idxOf? code).getD 99

/-- The first failure of the lowest rank. -/
def bestFail : List Refuse → Option Refuse
  | [] => none
  | x :: l => match bestFail l with | some y => if failRank y.code < failRank x.code then some y else some x | none => some x

/-- The failures of a sectIdxs body. -/
def State.sectionFails (s : State) (p : Plan) (img : List Byte) (xs : List Sec) (park : Bool) (around : Around) (x : Sec) : List (Nat × Nat) :=
  let b := secBody img x
  let r := x.region
  let templates := ((recsOf 32 img xs 0xC).filter (fun l => fld l 0 1 = 0)).map (fun l => fld l 2 2)
  match x.type with
  | 0x02 => routesCheck p r b
  | 0x03 => slotsCheck p r b
  | 0x04 => threadSlotsCheck p r b
  | 0x05 => segmentsCheck p r b
  | 0x06 => inboxesCheck p r b
  | 0x07 => interleaveCheck park b
  | 0x08 => dmaCheck p r b
  | 0x09 => schedulesCheck p r b
  | 0x0A => unitsCheck p r around b
  | 0x0B => routesBodyCheck s.moduleId b
  | 0x0C => templatesCheck s p r b
  | 0x0D => groupsCheck s p r b
  | 0x0E => deviceCheck b
  | 0x0F => reliabilityCheck s.moduleId templates ((pairsOf img xs).map (fun q => (q.1, q.2.1, q.2.2.2))) b
  | 0x10 => watchCheck p r b
  | 0x11 => spareCheck s b
  | 0x12 => ownershipCheck b
  | _ => []

/-- The blocks that the regions of a mask hold. -/
def State.heldBlocks (s : State) (mask : Nat) : Nat := (bitsOf 16 mask).foldl (fun m r => m ||| (s.region r).blocks.toNat) 0

/-- The structural checks of an image on a plan: the failure to report (R73). A region reset from a base image keeps the
router tables and groups in force. -/
def State.structural (s : State) (p : Plan) (keep : Bool) (img : List Byte) (xs : List Sec) : Option Refuse :=
  let reg := (xs.find? (fun x => x.type = 1)).map (fun x => (x.idx, x.off + 16))
  let cfg := if keep then s.nodes else withTables s.nodes (tablesOf p img xs)
  let trees := if keep then s.loader.dieGroups else groupsAfter p.base s.loader.dieGroups (groupRecs img xs 0)
  let park := if p.base then (fld (bodyOf img xs 0xE 0xFF) 5 1).testBit 0 else s.parkEn
  let own := bodyOf img xs 0x12 0xFF
  let around : Around :=
    { cfg, boxes := s.boxesAfter p img xs, groups := trees,
      pairs := pairsOf img xs,
      owner := fun g => if p.base then (if own = [] then 0xFF else fld own g 1) else sget 0xFF s.loader.ownerDie g }
  let whole := fun (b : Bool) (code : Nat) => if b then [(⟨code, 0, 0⟩ : Refuse)] else []
  bestFail (
    xs.flatMap (fun x => (s.sectionFails p img xs park around x).map (fun f => (⟨f.1, x.idx, x.off + 16 + f.2⟩ : Refuse)))
    ++ (if coverOk p (s.heldBlocks p.mask) then [] else [⟨0xD, (reg.getD (0, 0)).1, (reg.getD (0, 0)).2⟩])
    ++ whole (routeCycle s.nodes cfg s.loader.dieGroups trees) 0xF
    ++ whole (c0Long s.nodes || c0Long cfg) 0x10
    ++ whole (routeEdge cfg) 0x6
    ++ whole (if p.base then c0Over [cfg] (trees.map Prod.snd) else c0Over [s.nodes, cfg] (treesBoth s.loader.dieGroups trees)) 0x11
    ++ whole (park && routeCrosses cfg) 0x12)

/-! ## Acceptance (R59 to R64, R80, R81) -/

/-- Reads as the Keeper, from HBM or the common store. -/
def State.keeperRead (s : State) (a n : Nat) : Option (List Byte) :=
  if inHbmOrCs a n then (match s.readAcc .west a n with | .ok d => some d | .error _ => none) else none

/-- Whether a region counts as quiescent (R74). -/
def State.quietRegion (s : State) (r : Nat) : Bool := (s.region r).st = .quiescent || (s.region r).st = .undefined

/-- Whether the loader is cut off from the regions of a mask by a half's parking (R81). -/
def State.parkCuts (s : State) (mask : Nat) : Bool :=
  s.blocked .west || (blockTillers (s.heldBlocks mask)).any (fun T => s.blocked (tillerHalf T))

/-- The first breach among the section headers of scope, kind and requirement (R62, R63). -/
def scopeFail (base : Bool) (mask : Nat) (xs : List Sec) : Option Refuse :=
  match xs.find? (fun x =>
      if !knownType x.type then x.required
      else (!base && baseOnly x.type) || (let regional := regionScope x.type || (splitScope x.type && !base)
        if regional then decide (16 ≤ x.region) || !mask.testBit x.region else x.region ≠ 0xFF)) with
  | some x =>
    if !knownType x.type then some ⟨6, x.idx, x.off⟩ else if !base && baseOnly x.type then some ⟨0xE, x.idx, x.off⟩ else some ⟨6, x.idx, x.off + 8⟩
  | none => if (if base then [1, 7, 0xE, 0xFF] else [1, 0xFF]).all (fun t => xs.any (fun x => x.type = t)) then none else some ⟨6, 0, 0⟩

/-- Extends a measurement register with a digest (R480). -/
def State.measExtend (s : State) (i : Nat) (d : List Byte) : State :=
  s.modBoot (fun x => { x with meas := sput (List.replicate 32 0) x.meas i (sha256 (sget (List.replicate 32 0) x.meas i ++ d)) })

/-- The checks of a LOAD before its structure: the image, its sections and its entries, or the refusal. -/
def State.loadHead (s : State) (mask : Nat) (purge : Bool) (addr : Nat) : Except Refuse (List Byte × List Sec) :=
  if s.parkCuts mask then .error ⟨0xC, 0, 0⟩
  else match s.keeperRead addr 64 with
    | none => .error ⟨1, 0, 0⟩
    | some h =>
      match headerCheck s.fuses h with
      | some (c, o) => .error ⟨c, 0, o⟩
      | none =>
        match s.keeperRead addr (hLength h) with
        | none => .error ⟨5, 0, 16⟩
        | some img =>
          match sections img with
          | .error e => .error e
          | .ok xs =>
            match scopeFail (hBase h) (hMask h) xs with
            | some e => .error e
            | none =>
              let sig := xs.getLastD ⟨0, 0, 0, false, 0, 0⟩
              let b := secBody img sig
              if b.length ≠ 776 ∨ !zeroAt b 388 4 then .error ⟨6, sig.idx, sig.off⟩
              else if s.fuses.keyHash (fld h 40 1) ≠ some (sha256 (b.take 388)) then .error ⟨7, sig.idx, sig.off + 16⟩
              else if hMask h ≠ mask then .error ⟨9, 0, 12⟩
              else if hBase h && ((List.range 16).any (fun r => !s.quietRegion r) || s.sessions.any (fun q => q.2.st ≠ 0) || s.blocked .east) then .error ⟨0xB, 0, 0⟩
              else if !purge && (bitsOf 16 mask).any (fun r => !s.quietRegion r) then .error ⟨0xA, 0, 0⟩
              else if !rsaPssOk (b.take 384) ((b.drop 384).take 4) (img.take (sig.off + 16 + 392)) (b.drop 392) then .error ⟨8, sig.idx, sig.off + 16 + 392⟩
              else .ok (img, xs)

/-- The plan of a load: its entries, or a breach of the REGIONS section. -/
def planOf (base reset : Bool) (mask : Nat) (img : List Byte) (xs : List Sec) : Except Refuse Plan :=
  match xs.find? (fun x => x.type = 1) with
  | none => .error ⟨6, 0, 0⟩
  | some x =>
    match regionsOf mask (!reset) (secBody img x) with
    | .error o => .error ⟨6, x.idx, x.off + 16 + o⟩
    | .ok es => .ok { base, mask, entries := es }

/-- The sessions opened from templates that a partial image redefines (R354). -/
def State.templateSessions (s : State) (img : List Byte) (xs : List Sec) : List Nat :=
  let ts := ((recsOf 32 img xs 0xC).filter (fun l => fld l 0 1 = 0)).map (fun l => fld l 2 2)
  (s.sessions.filter (fun q => q.2.st ≠ 0 && ts.contains q.2.template)).map Prod.fst

/-- Takes an image that has passed every check: its regions are purged, sessions of redefined templates closed, and the
regions enter LOADING (R81, R354). -/
def State.takeImage (s : State) (p : Plan) (reset fromBase : Bool) (addr : Nat) (img : List Byte) (xs : List Sec) : State :=
  let s0 := if reset then s else s.measExtend 4 (sha256 img)
  let s1 := forAll (bitsOf 16 p.mask) s0 State.purgeRegion
  let uses := xs.filter (usesSec reset fromBase p.mask)
  let close := if p.base then [] else s1.templateSessions img uses
  let s2 := s1.modLoader (fun l =>
    { l with image := addr, length := img.length, whole := sha256 img, hash := sectionHash img xs, imageId := word (fld img 32 8), isBase := p.base,
             isReset := reset, fromBase := fromBase, secs := xs, entries := p.entries, changed := false, nextInterleave := none, closing := close,
             kept := if reset && fromBase then [] else tablesOf p img uses })
  let s3 := forAll close s2 State.closeSession
  if close.isEmpty then s3.enterLoading else s3

/-- Sets the outcome of a loader command (Table 12 of chapter 2). -/
def State.loadStatus (s : State) (e : Refuse) : State := s.modLoader (fun l => { l with code := e.code, sectIdx := e.sectIdx % 65536, offset := e.offset })

/-- Ends the loader's work. -/
def State.loadIdle (s : State) : State :=
  let s1 := s.modLoader (fun l =>
    { l with busy := false, waiting := false, isReset := false, secs := [], entries := [], toWrite := [], toCheck := [], kept := [], closing := [],
             nextInterleave := none, failed := 0 })
  if s.loader.isReset then s1.modBoot (fun x => { x with rstBusy := false }) else s1

/-- LOAD, or the load of the base image at boot (R81, R475). -/
def State.imageGo (s : State) (mask : Nat) (purge : Bool) (addr : Nat) : Except Refuse State :=
  match s.loadHead mask purge addr with
  | .error e => .error e
  | .ok (img, xs) =>
    let skipped := (xs.filter (fun x => !knownType x.type)).length
    match planOf (hBase img) false mask img xs with
    | .error e => .error e
    | .ok p =>
      match s.structural p false img (xs.filter (usesSec false (hBase img) mask)) with
      | some e => .error e
      | none => .ok ((s.modLoader (fun l => { l with skipped := min skipped 255, failed := 0 })).takeImage p false (hBase img) addr img xs)

/-- One group of a region reset: the regions that the same image last defined (R487). An image that has changed leaves them
QUIESCENT with mode IDLE. -/
def State.resetGroup (s : State) (mask : Nat) (x : Region) : Except Refuse State :=
  match s.keeperRead x.image x.imageLen with
  | some img =>
    if sha256 img ≠ x.hash then .error ⟨0x18, 0, 0⟩
    else match sections img with
      | .error e => .error e
      | .ok xs =>
        match planOf false true mask img xs with
        | .error e => .error e
        | .ok p =>
          match s.structural p (hBase img) img (xs.filter (usesSec true (hBase img) mask)) with
          | some e => .error e
          | none => .ok (s.takeImage p true (hBase img) x.image img xs)
  | none => .error ⟨0x18, 0, 0⟩

/-- A region reset goes on with the images of the regions left: the first that is accepted begins to load, a refused one is
passed over with its code (R487). -/
def State.resetNext (s : State) : (fuel : Nat) → State
  | 0 => (s.loadStatus ⟨s.loader.failed, 0, 0⟩).loadIdle
  | fuel + 1 =>
    match s.loader.resetLeft with
    | [] => (s.loadStatus ⟨s.loader.failed, 0, 0⟩).loadIdle
    | r :: _ =>
      let x := s.region r
      let same := s.loader.resetLeft.filter (fun k => let y := s.region k; y.image = x.image && y.imageLen = x.imageLen && y.hash = x.hash)
      let mask := same.foldl (fun m k => m ||| 2 ^ k) 0
      let s1 := s.modLoader (fun l => { l with resetLeft := l.resetLeft.filter (fun k => !same.contains k) })
      if s1.parkCuts mask then (s1.modLoader (fun l => { l with failed := if l.failed = 0 then 0xC else l.failed })).resetNext fuel
      else match s1.resetGroup mask x with
        | .ok s2 => s2
        | .error e =>
          let s2 := s1.modLoader (fun l => { l with failed := if l.failed = 0 then e.code else l.failed })
          let s3 := if e.code = 0x18 then
              (forAll same s2 (fun s k => (s.purgeRegion k).modRegion k (fun y => if y.st = .undefined then y else { y with st := .quiescent, mode := 0 }))).log
                (report 0xC 0x18 0xA false 0 0 0x18)
            else s2
          s3.resetNext fuel

/-- Begins a region reset; a region that no image defines is passed over (R487). -/
def State.resetRegions (s : State) (mask : Nat) : State :=
  let rs := (bitsOf 16 mask).filter (fun r => (s.region r).st ≠ .undefined)
  (s.modLoader (fun l => { l with busy := true, isReset := true, skipped := 0, failed := 0, resetLeft := rs })).resetNext 17

/-! ## One command at a time (R81, R416, R486) -/

/-- RESUME of a region (R74, R284, R310). Context 0 starts where a PURGE returned it to its entry (R126). -/
def State.resumeRegion (s : State) (r : Nat) : State :=
  let x := s.region r
  if !(x.st = .draining || (x.st = .quiescent && x.mode ≠ 0)) then s
  else
    let s1 := forAll (s.regionTillers r) (s.modRegion r (fun x => { x with st := .serving })) (fun s T =>
      forAll (List.range 8) s (fun s k => s.sqCommand T k 3))
    let s2 := if x.mode = 2 && x.array ≠ [] then s1.waveCommand r 3 else s1
    forAll ((s.regionTillers r).flatMap tillerCores) s2 (fun s c => if s.ctx0Due c && (s.ctx ⟨c, 0⟩).st = .free then s.startCtx0 c else s)

/-- Carries out the command in `THL_CMD`. -/
def State.thlRun (s : State) : State :=
  let l := s.loader
  let s1 := s.modLoader (fun l => { l with waiting := false })
  let done := fun (s : State) => (s.loadStatus ⟨0, 0, 0⟩).loadIdle
  if l.op = 3 then
    match (s1.modLoader (fun l => { l with skipped := 0 })).imageGo l.mask l.purgeBit l.src with
    | .ok s2 => s2
    | .error e => ((s1.modLoader (fun l => { l with skipped := 0 })).loadStatus e).loadIdle
  else if s.blocked .west then (s1.loadStatus ⟨0xC, 0, 0⟩).loadIdle
  else match l.op with
    | 1 => done (forAll (bitsOf 16 l.mask) s1 State.drainRegion)
    | 2 => done (forAll (bitsOf 16 l.mask) s1 State.resumeRegion)
    | _ => done (forAll (bitsOf 16 l.mask) s1 State.purgeRegion)

/-- Whether the Keeper can take up a command: the loader is idle and no withdrawal is under way. -/
def State.keeperIdle (s : State) : Bool := (!s.loader.busy || s.loader.waiting) && s.rel.wdr = .none

/-- Carries out the reset in `RST_CMD` (Table 10 of chapter 18). -/
def State.rstRun (s : State) : State :=
  let x := s.boot
  let done := s.modBoot (fun x => { x with rstBusy := false })
  match x.rstOp with
  | 1 => s.moduleReset
  | 2 => s.resetRegions x.rstMask
  | 3 => done.coreReset x.rstCore
  | 4 => done.linkReset x.rstPort
  | _ => done

/-- The Keeper takes up what waits: a loader command, a withdrawal, a reset, a park request. -/
def State.keeperNext (s : State) : State :=
  let s1 := if s.loader.waiting && s.keeperIdle then s.thlRun else s
  let s2 := match s1.rel.wdrDue with | some c => if s1.keeperIdle && s1.rel.st = 0 then s1.withdrawNow c else s1 | none => s1
  let s3 := if s2.boot.rstBusy && s2.keeperIdle && !s2.loader.isReset then s2.rstRun else s2
  s3.keeperFree

/-- A write of `THL_CMD` at level 1 (R82, Table 10 of chapter 2). -/
def State.writeThlCmd (s : State) (w : Word) : State :=
  if s.loader.busy then s
  else
    let op := field w 0 3
    let s1 := s.modLoader (fun l => { l with op := op, purgeBit := bit w 3, mask := field w 16 16 })
    if op = 0 ∨ 4 < op then s1 else (s1.modLoader (fun l => { l with busy := true, waiting := true })).keeperNext

/-- A write of `RST_CMD` at level 1 (R486, Table 11 of chapter 18). -/
def State.writeRstCmd (s : State) (w : Word) : State :=
  if s.boot.rstBusy then s
  else
    let op := field w 0 3
    let s1 := s.modBoot (fun x => { x with rstOp := op, rstMask := field w 16 16, rstCore := field w 32 10, rstPort := field w 42 5 })
    if op = 0 ∨ 4 < op then s1 else (s1.modBoot (fun x => { x with rstBusy := true })).keeperNext

/-- A `THL_CMD` value. -/
def thlWord (op : Nat) (purge : Bool) (mask : BitVec 16) : Word := word (op + b2n purge * 8 + mask.toNat * 65536)

/-- THL_DRAIN (R76). -/
def execThlDrain (mask : BitVec 16) (s : State) : Out := .next (if s.up then s.writeThlCmd (thlWord 1 false mask) else s)
/-- THL_RESUME (R74). -/
def execThlResume (mask : BitVec 16) (s : State) : Out := .next (if s.up then s.writeThlCmd (thlWord 2 false mask) else s)
/-- THL_LOAD (R81). -/
def execThlLoad (mask : BitVec 16) (purge : Bool) (s : State) : Out := .next (if s.up then s.writeThlCmd (thlWord 3 purge mask) else s)
/-- THL_PURGE (R77). -/
def execThlPurge (mask : BitVec 16) (s : State) : Out := .next (if s.up then s.writeThlCmd (thlWord 4 false mask) else s)

/-- RST_REGION (R486, R487). -/
def execRstRegion (mask : BitVec 16) (s : State) : Out := .next (if s.up then s.writeRstCmd (word (2 + mask.toNat * 65536)) else s)
/-- RST_MODULE (R486). -/
def execRstModule (s : State) : Out := .next (if s.up then s.writeRstCmd 1 else s)
/-- RST_CORE (R486). -/
def execRstCore (core : Nat) (s : State) : Out := onUnit (core < 1024) "core" (if s.up then s.writeRstCmd (word (3 + core * 2 ^ 32)) else s)
/-- RST_LINK (R486). -/
def execRstLink (port : Nat) (s : State) : Out := onUnit (port < 32) "port" (if s.up then s.writeRstCmd (word (4 + port * 2 ^ 42)) else s)

/-! ## Quiescence (R75, R76, R310) -/

/-- Whether a core's contexts meet R75. -/
def Core.restful (c : Core) : Bool :=
  (List.range 8).all (fun k =>
    let x : Ctx := sget {} c.ctx k
    x.st = .free || (k = 0 && (x.st = .halted || (x.st = .waiting && match x.wait with | some ⟨.event _ _, _⟩ => true | _ => false))))

/-- Whether a region meets R75. -/
def State.meetsQuiet (s : State) (r : Nat) : Bool :=
  let ts := s.regionTillers r
  let thallus := (s.region r).mode = 2
  ts.all (fun T =>
    (List.range 8).all (fun k => (s.sq T k).steps.isEmpty)
      && (thallus || (tillerCores T).all (fun c => (s.core c).restful))
      && (tillerChans T).all (fun c => (s.chan c).st = .idle)
      && !(s.reqs.any (fun q => q.src.unit < 1024 && q.src.unit / 16 = T && !q.acked))
      && (!thallus || (s.th T).queues.all (fun q => q.2.tokens.isEmpty)))
    && (!thallus || ((s.region r).array = [] || (s.th (arrCtrl (s.arr r))).inflight.isEmpty)
      && (s.regionUnits r).all (fun u => (s.unitOf u).asked.isEmpty && (s.unitOf u).outbox.isEmpty))

/-- REGION_QUIESCENT (R75). -/
def execRegionQuiescent (r : Nat) (s : State) : Out :=
  onUnit (r < 16) "region"
    (if s.up ∧ (s.region r).st = .draining ∧ s.meetsQuiet r then s.modRegion r (fun x => { x with st := .quiescent }) else s)

/-- REGION_DRAIN_TIMEOUT (R76): the region stays DRAINING. -/
def execRegionDrainTimeout (r : Nat) (s : State) : Out :=
  onUnit (r < 16) "region"
    (if s.up ∧ (s.region r).st = .draining ∧ s.loader.drainLim ≠ 0 ∧ !s.meetsQuiet r then s.loadStatus ⟨0x1A, 0, 0⟩ else s)

/-! ## Writing a region (R79) -/

/-- Clears a tiller's stores (R64, R215). -/
def State.zeroise (s : State) (T : Nat) : State :=
  let mine := fun (a : Nat) => match locOf a with | .tm t _ => t = T | .clm c _ | .eb c _ => c / 16 = T | _ => false
  { s with mem := s.mem.filter (fun p => !mine p.1), badWords := s.badWords.filter (fun a => !mine a), ceWords := s.ceWords.filter (fun a => !mine a) }

/-- The record of a list that covers a core: its own, or the region default (R140). -/
def coreRec (rs : List (List Byte)) (core : Nat) : Option (List Byte) :=
  match rs.find? (fun l => fld l 0 2 = core) with
  | some l => some l
  | none => rs.find? (fun l => fld l 0 2 = 0xFFFF)

/-- Writes a core's THREAD_SLOTS and SEGMENTS values, and the Keeper's copies of them (R140, R221, R404). -/
def State.writeCore (s : State) (slots segs : List (List Byte)) (core : Nat) : State :=
  let d : Core := {}
  let (slot, pc, dog) := match coreRec slots core with
    | some l => (word (fld l 8 8), word (fld l 16 8), word (fld l 24 8))
    | none => (d.slotTbl, 0, word 0x114)
  let g := match coreRec segs core with | some l => segsFor l core | none => {}
  s.modCore core (fun c =>
    { c with slotTbl := slot, slotTblNext := none, ctx0pc := pc, tseg := g, twdogExp := field dog 0 6, twdogFired := c.twdogFired && !bit dog 8,
             keptSlot := slot, keptTwdog := field dog 0 6, keptSegs := g })

/-- The DMA_CHANNELS record of a channel (R243). -/
def chanRec (rs : List (List Byte)) (c : ChanRef) : Option (List Byte) :=
  let (kind, unit) := match c with | .core n _ => (0, n) | .tiller T _ => (1, T)
  let of := fun (l : List Byte) (u : Nat) => fld l 0 1 = kind && fld l 1 1 = chNum c && fld l 2 2 = u
  match rs.find? (of · unit) with
  | some l => some l
  | none => rs.find? (of · 0xFFFF)

/-- Writes a channel's values (R243). -/
def State.writeChan (s : State) (rs : List (List Byte)) (c : ChanRef) : State :=
  match chanRec rs c with
  | some l =>
    s.modChan c (fun x =>
      { x with prio := fld l 4 1, owner := (match c with | .tiller _ _ => some (fld l 5 1) | .core _ _ => none), ownerCore := fld l 6 1,
               sessOk := (fld l 7 1).testBit 0, mcastOk := (fld l 7 1).testBit 1 })
  | none => s

/-- Writes a tiller's inboxes, each with the next GEN (R224, R225). -/
def State.writeInboxes (s : State) (rs : List (List Byte)) (T : Nat) : State :=
  forAll (List.range 64) s (fun s i => s.modInbox T i (fun b =>
    match rs.find? (fun l => fld l 0 1 = i && fld l 1 1 = T) with
    | some l => { (inboxOf l) with gen := (b.gen + 1) % 16 }
    | none => { gen := (b.gen + 1) % 16 }))

/-- Writes a tiller's schedule contexts and buffer pairs (R276, R287). A base load restarts the mirror's SEQ (R414). -/
def State.writeSchedules (s : State) (base : Bool) (rs : List (List Byte)) (T : Nat) : State :=
  let mine := rs.filter (fun l => fld l 1 1 = T)
  let s1 := forAll (mine.filter (fun l => fld l 0 1 = 0)) s (fun s l => s.modSq T (fld l 2 1) (fun q => { q with base := fld l 8 8, maxflight := fld l 4 1 }))
  forAll (List.range 64) s1 (fun s p => s.modPair T p (fun x =>
    let y : Pair := match mine.find? (fun l => fld l 0 1 = 1 && fld l 2 1 = p) with
      | some l => { valid := true, live := (fld l 3 1).testBit 0, base := fld l 8 8, size := fld l 16 4 }
      | none => {}
    { y with mirrorSeq := if base then 0 else x.mirrorSeq, mirrorSlot := x.mirrorSlot }))

/-- Writes a tiller's part of an array: its units, its queues and the copy at CFG_COPY (R313). -/
def State.writeArray (s : State) (thallus : Bool) (b : List Byte) (T : Nat) : State :=
  let s1 := s.modTh T (fun x => { x with on := thallus })
  if b = [] then s1
  else
    let s2 := forAll ((unitRecs b).filter (fun q => uTiller (recHandle q.2) = T)) s1 (fun s q =>
      s.modUnit (recHandle q.2) (fun _ => { valid := true, rec' := unitOfRec q.2 }))
    let s3 := forAll ((queueRecs b).filter (fun q => uTiller (fld q.2 6 2) = T)) s2 (fun s q =>
      s.modQueue T (fld q.2 0 2) (fun x => { (queueOf q.2) with transit := x.transit, returning := x.returning }))
    s3.poke (tmAddr T (arrCopy b)) (arrCopyOf b T)

/-- Writes the router tables of nodes that the loader kept (R79). -/
def State.writeTables (s : State) (ns : Nat → Bool) : State :=
  { s with nodes := withTables s.nodes (s.loader.kept.filter (fun t => ns t.node)) }

/-- Templates of a SESSION_TEMPLATES body over those in force (R356). -/
def templatesAfter (old : Sparse Template) (b : List Byte) : Sparse Template :=
  ((chunks 32 b).filter (fun q => fld q.2 0 1 = 0)).foldl (fun m q =>
    sput {} m (fld q.2 2 2) { valid := true, rights := fld q.2 1 1, tagShare := fld q.2 4 2, base := fld q.2 8 8, length := fld q.2 16 8, credit := fld q.2 24 4 }) old

/-- EXPOSE and COUNTERS records of a base image (R356). -/
def exposeOf (b : List Byte) : List ExposeRec :=
  (chunks 32 b).filterMap (fun q =>
    let l := q.2
    if fld l 0 1 = 1 then some (.memory (fld l 1 1) (fld l 2 2) (fld l 4 2) (fld l 8 8) (fld l 16 8))
    else if fld l 0 1 = 2 then some (.counters (fld l 1 1) (fld l 6 1) (fld l 2 2) (fld l 4 2) (word (fld l 8 8)))
    else none)

/-- Whether the base image's port enables apply: boot has reached stage FABRIC, the module joined, and it is not standalone
(R482, R484, R485). -/
def State.portsMayOpen (s : State) : Bool := !s.boot.standalone && (s.boot.stage = 6 || s.boot.stage = 7) && s.boot.stop = 0

/-- Applies the port enables of the base image in force (R346, R485). -/
def State.applyPorts (s : State) : State :=
  forAll (List.range 32) s (fun s p => s.setPortEn p (s.portsMayOpen && s.loader.portEnable.testBit p))

/-- Writes the STOLON_ROUTES section of a base image (R346). -/
def State.writeStolon (s : State) (b : List Byte) : State :=
  let l := if b = [] then { s.loader with routes := [], portEnable := 0, bond := 0, portC0 := 0x10, holdUs := 20, peers := [] }
    else { s.loader with
           routes := (chunks 8 (b.drop 80)).map (fun q => ⟨fld q.2 0 2, fld q.2 2 2, fld q.2 4 1, fld q.2 5 1, fld q.2 6 1, fld q.2 7 1⟩),
           portEnable := fld b 0 4, bond := fld b 4 2, portC0 := fld b 7 1, holdUs := max 20 (fld b 10 2),
           peers := (List.range 32).foldl (fun m k => sput 0xFFFF m k (fld b (16 + 2 * k) 2)) [] }
  let s1 := forAll (List.range 32) { s with loader := l } (fun s p => s.modPort p (fun x => { x with c0Allot := l.portC0 }))
  (s1.modTime (fun t => { t with alt := if b = [] then 0xFF else fld b 6 1 })).applyPorts

/-- Writes the DEVICE section: clock targets, parking, time (R68). -/
def State.writeDevice (s : State) (b : List Byte) : State :=
  let f := fld b 5 1
  let d : Device :=
    { coreW := fld b 0 1, meshW := fld b 1 1, coreE := fld b 2 1, meshE := fld b 3 1, culmF := fld b 4 1, parkEn := f.testBit 0,
      unparkEv := f.testBit 2, unparkEvc := fld b 6 1 }
  let s1 := ({ s with parkEn := d.parkEn } : State).modLoader (fun l => { l with device := d })
  let s2 := s1.modTime (fun t =>
    let free := f.testBit 1 || fld b 8 1 = 0xFF
    { t with master := f.testBit 1, parent := fld b 8 1, beaconPer := fld b 7 1, holdover := t.holdover && !free, onAlt := false, missed := 0 })
  (s2.setTargets .west d.coreW d.meshW).setTargets .east d.coreE d.meshE

/-- Writes the die-wide sections of a base image, with its last region (R62, R68 to R70, R356, R422). -/
def State.writeDie (s : State) (img : List Byte) (xs : List Sec) : State :=
  let body := fun (t : Nat) => bodyOf img xs t 0xFF
  let own := body 0x12
  let t := body 0xC
  let s1 := s.modLoader (fun l =>
    { l with templates := templatesAfter [] t, expose := exposeOf t,
             dieGroups := groupsAfter true [] (groupRecs img xs 0), stolonGroups := groupsAfter true [] (groupRecs img xs 1),
             rel := (if body 0xF = [] then none else some (reliabilityOf (body 0xF))),
             ownerDie := if own = [] then [] else ownerGroups own 0 64, ownerStolon := if own = [] then [] else ownerGroups own 64 256,
             ownerTmpl := if own = [] then [] else (List.range 16).foldl (fun m i => sput (0, 0) m i (fld own (320 + 4 * i) 2, fld own (322 + 4 * i) 2)) [],
             nextInterleave := some (interleaveOf (body 7)) })
  let s2 := s1.modRel (fun x => { x with mirrorDown := false })
  let s3 := forAll (List.range 64) s2 (fun s T => s.modTiller T (fun x => { x with hold := body 0x11 ≠ [] && fld (body 0x11) T 1 = 1 }))
  (s3.writeStolon (body 0xB)).writeDevice (body 0xE)

/-- Writes the sections of a region from the second read (R79). -/
def State.writeSections (s : State) (r : Nat) (last : Bool) (img : List Byte) : State :=
  let l := s.loader
  let mask := l.entries.foldl (fun m e => m ||| 2 ^ e.region) 0
  let xs := l.secs.filter (usesSec l.isReset l.fromBase mask)
  let body := fun (t : Nat) => bodyOf img xs t r
  let recs := fun (k t : Nat) => (chunks k (body t)).map Prod.snd
  let ts := s.regionTillers r
  let arr := body 0xA
  let s1 := forAll (ts.flatMap tillerCores) s (fun s c => s.writeCore (recs 32 4) (recs 72 5) c)
  let s2 := forAll ts s1 (fun s T => s.writeInboxes (recs 16 6) T)
  let s3 := forAll (ts.flatMap tillerChans) s2 (fun s c => s.writeChan (recs 16 8) c)
  let s4 := forAll ts s3 (fun s T => s.writeSchedules l.isBase (recs 32 9) T)
  let s5 := forAll ts s4 (fun s T => s.writeArray ((s.region r).mode = 2) arr T)
  let s6 := forAll ts s5 (fun s T => s.modTiller T (fun x => { x with twRecords := 0, twErrors := 0, twDumpAt := 0 }))
  let s7 := s6.modRegion r (fun x =>
    { x with array := arr.take 64, arrayAuto := (fld arr 3 1).testBit 0, watch := body 0x10,
             autostart := ((recs 32 9).filter (fun b => fld b 0 1 = 0 && (fld b 3 1).testBit 0)).map (fun b => (fld b 1 1, fld b 2 1)) })
  let s8 := if l.isBase then s7
    else s7.modLoader (fun l =>
      let g := xs.filter (fun x => x.region = r)
      { l with templates := templatesAfter l.templates (body 0xC), dieGroups := groupsAfter false l.dieGroups (groupRecs img g 0),
               stolonGroups := groupsAfter false l.stolonGroups (groupRecs img g 1) })
  if l.isBase && last then s8.writeDie img xs else s8

/-- A region of the load is written (R79): stores are cleared where ZEROISE is set, router tables written from the copy kept,
every other section from the second read; a read that differs from the first writes nothing and fails the load. -/
def State.regionWritten (s : State) (r : Nat) : State :=
  let l := s.loader
  let last := l.toWrite = [r]
  let s1 := if (s.region r).zeroise then forAll (s.regionTillers r) s State.zeroise else s
  let s2 := s1.writeTables (fun n => match nodeTiller n with | some T => (s.regionTillers r).contains T | none => l.isBase && last)
  let s3 := match s.keeperRead l.image l.length with
    | some img => if !l.changed && sectionHash img l.secs = l.hash then s2.writeSections r last img else s2.modLoader (fun l => { l with changed := true })
    | none => s2.modLoader (fun l => { l with changed := true })
  (s3.modLoader (fun l => { l with toWrite := l.toWrite.erase r })).modRegion r (fun x => { x with st := .checking })

/-- REGION_WRITE_DONE (R79). -/
def execRegionWriteDone (r : Nat) (s : State) : Out :=
  onUnit (r < 16) "region" (if s.up ∧ (s.region r).st = .loading ∧ s.loader.toWrite.contains r then s.regionWritten r else s)

/-! ## CHECKING and the end of a load (R79, R287, R407, R415, R498) -/

/-- A region enters SERVING at the end of a load: context 0 of each core starts, schedule contexts and the array with
AUTOSTART perform START (R126, R287, R313). -/
def State.serveRegion (s : State) (r : Nat) : State :=
  let x := s.region r
  let s1 := s.modRegion r (fun x => { x with st := .serving })
  let s2 := if x.mode = 1 then forAll ((s.regionTillers r).flatMap tillerCores) s1 State.startCtx0 else s1
  let s3 := forAll x.autostart s2 (fun s q => s.startSq q.1 q.2)
  if x.mode = 2 && x.arrayAuto then s3.waveCommand r 1 else s3

/-- The base image enters service: the INTERLEAVE applies and the loader opens the mirror session (R415, R498). -/
def State.baseService (s : State) : State :=
  let s1 := match s.loader.nextInterleave with | some i => s.modLoader (fun l => { l with interleave := i }) | none => s
  let s2 := s1.modLoader (fun l => { l with baseLoaded := true })
  match s2.loader.rel with
  | some r =>
    if r.mirrorEn then
      let h := sessHome r.sess
      if s2.openResult h r.sess r.buddy r.template = 0 then s2.sessionOpen h r.sess r.buddy r.template else s2.mirrorFails
    else s2
  | none => s2

/-- The last region has left CHECKING. -/
def State.loadEnd (s : State) : State :=
  let l := s.loader
  let s1 := if l.isBase then s.baseService else s
  if l.isReset then (s1.resetNext 17).keeperNext
  else (((s1.modLoader (fun x => { x with lastId := l.imageId })).loadStatus ⟨l.failed, 0, 0⟩).loadIdle).keeperNext

/-- A region's CHECKING ends: SERVING, or QUIESCENT in mode IDLE or after a failure; the last region ends the load (R79). -/
def State.regionChecked (s : State) (r : Nat) (pass : Bool) : State :=
  let l := s.loader
  let x := s.region r
  let code := if l.changed then 0x18 else if pass then 0 else 0x19
  let s0 := if code ≠ 0 && l.failed = 0 then s.log (report 0xC code 0xA false 0 0 code) else s
  let s1 := s0.modLoader (fun l => { l with toCheck := l.toCheck.erase r, failed := if l.failed = 0 then code else l.failed })
  let s2 := if code ≠ 0 then s1.modRegion r (fun x => { x with st := .quiescent, mode := 0 })
    else if x.mode = 0 then s1.modRegion r (fun x => { x with st := .quiescent })
    else s1.serveRegion r
  if s2.loader.toCheck.isEmpty then s2.loadEnd else s2

/-- REGION_CHECK_DONE (R79, R407): a region whose read-back, self-test and probes pass enters SERVING, or QUIESCENT in mode
IDLE; a self-test failure of one core first starts a takeover, where the spare policy allows it. -/
def execRegionCheckDone (r : Nat) (res : CheckResult) (s : State) : Out :=
  onUnit (r < 16) "region" <|
    let l := s.loader
    let x := s.region r
    let ts := s.regionTillers r
    if !s.up ∨ x.st ≠ .checking ∨ !l.toCheck.contains r ∨ ts.any (fun T => (s.tiller T).takeover.isSome) then s
    else
      let takes := match res with
        | .failCore c => ts.contains (c / 16) && x.checkTries = 0 && s.spareFree (c / 16) && !l.changed
        | _ => false
      match takes, res with
      | true, .failCore c =>
        ((s.log { report 1 2 4 true (tillerNode (c / 16)) c 0 with persistent := true }).modRegion r (fun x => { x with checkTries := 1 })).startTakeover (c / 16) (c % 16)
      | _, _ => s.regionChecked r (res = .pass)

end Sys2Proof.Machine
end

