-- ==== Sys2Proof/Machine/Reliability.lean ====
section
/-! DEFINITION. Reliability: takeover by the spare core, faults outside steps, mirroring, withdrawal and the health log
(chapter 15). -/

namespace Sys2Proof.Machine

/-! ## The spare core (R403 to R406) -/

/-- Whether nothing of a failed core is still on its way: its posted stores and MMAs are complete (R281 step 3). -/
def State.coreQuiet (s : State) (core : Nat) : Bool :=
  !(s.reqs.any (fun q => q.src.unit = core && !q.isLoad && !q.acked)) && (s.core core).mmaArray.isNone

/-- A core as the spare that takes over its number has it (R404). -/
def Core.taken (x : Core) : Core :=
  { (x.emptyTiles (List.range 16)) with
    slotTbl := x.keptSlot, slotTblNext := none, tseg := x.keptSegs, twdogExp := x.keptTwdog, twdogFired := false, twdogDone := false,
    gdtb := 0, xdtb := 0, evPend := 0, evOver := 0, deadlock := false, urgent := false, mailWake := false, town := ({} : Core).town,
    mmaQueue := [], gang := none, lastFault := none, dma := (List.range 8).foldl (fun m k => sput {} m k (sget {} x.dma k).reset) [] }

/-- The units of a core load from the copy at CFG_COPY (R312, R403). -/
def State.reloadUnits (s : State) (T core : Nat) : State :=
  match s.regionOf T with
  | none => s
  | some r =>
    let h := s.arr r
    if h = [] then s
    else
      let n := ((s.regionUnits r).filter (fun u => uTiller u = T)).length
      forAll (List.range n) s (fun s i =>
        let l := s.peek (tmAddr T (arrCopy h + 64 + 32 * i)) 32
        let u := recHandle l
        if uKind u ≤ 2 ∧ uPlace u = core ∧ (s.unitOf u).valid then s.modUnit u (fun x => { x with rec' := unitOfRec l }) else s)

/-- The spare begins to serve core `c` of a tiller (R403 to R405): its own stores hold the copy, corrected; the core that
failed is retired. -/
def State.takeOver (s : State) (T c : Nat) : State :=
  let core := T * 16 + c
  let mine := fun (a : Nat) => match locOf a with | .clm k _ | .eb k _ => k = core | _ => false
  let s1 := forAll ((List.range 8).map (ChanRef.core core ·)) s State.dmaDisable
  let s2 : State :=
    { s1 with ceWords := s1.ceWords.filter (fun a => !mine a),
              repairs := s1.repairs.filter (fun r => r.1 ≠ .eb core ∧ r.1 ≠ .clm core) }
  let s3 := (s2.modRel (fun x => { x with retired := nins (T * 17 + c) x.retired })).modCore core Core.taken
  let s4 := forAll (List.range 8) s3 (fun s k => s.modCtx ⟨core, k⟩ (fun x =>
    { x with crs := [], xs0 := { x.xs0 with slim := 0 }, xs1 := { x.xs1 with slim := 0 } }))
  let s5 := (s4.modTiller T (fun x => { x with takeover := none, spareServes := some c })).reloadUnits T core
  if s5.ctx0Due core then s5.startCtx0 core else s5

/-- TAKEOVER_COPY_DONE (R403, R404): the copy ends; a fault in the spare ends the takeover and the tiller is out of
spares. -/
def execTakeoverCopyDone (tiller : Nat) (fault : Bool) (s : State) : Out :=
  onUnit (tiller < 64) "tiller" <|
    match (s.tiller tiller).takeover with
    | none => s
    | some c =>
      let core := tiller * 16 + c
      if !s.up ∨ !s.clockOn (tillerHalf tiller) then s
      else if fault then
        let s1 := (s.modTiller tiller (fun x => { x with takeover := none, spareLost := true })).log
          (report 1 2 0xA false (tillerNode tiller) core 0)
        if s1.ctx0Due core then s1.startCtx0 core else s1
      else if s.coreQuiet core then s.takeOver tiller c else s

/-- Whether a thread of a core belongs to a step in flight (R406). -/
def State.inStep (s : State) (core : Nat) : Bool :=
  (List.range 8).any (fun k => (s.sq (core / 16) k).steps.any (fun x => x.live.any (fun t => t.unit = core)))

/-- CORE_FAULT_UNSTEPPED (R406): contexts 1 to 7 are killed and context 0 starts again; a second such fault of one
physical core within 1 s starts a takeover. -/
def execCoreFaultUnstepped (core : Nat) (s : State) : Out :=
  onUnit (core < 1024) "core" <|
    let T := core / 16
    if !s.up ∨ !s.clockOn (tillerHalf T) ∨ s.inStep core then s
    else
      let s1 : State := { s with faultReports := s.faultReports.erase (T, .coreFault core, none) }
      let again := match (s.core core).lastFault with | some t => decide (s.time.tb < t + 1000000000) | none => false
      let spare := again && s.spareFree T
      let s2 := s1.log { report 1 2 0xA false (tillerNode T) core 0 with persistent := spare }
      let s3 := s2.modCore core (fun x => { x with lastFault := some s.time.tb })
      (if spare then s3.startTakeover T (core % 16) else s3.restartCore core).spareDamage T (.coreFault core) false

/-! ## Mirroring (R413 to R415) -/

/-- A pair's mirror record is written: it is on its way to the buddy. -/
def State.sendRecord (s : State) (T p seq : Nat) (slot : Bool) (context stepId next iter : Nat) : State :=
  let r := s.mirrorRecord T p seq slot context stepId next iter
  r.2.modPair T p (fun x => { x with mirrorRec := r.1 })

/-- The mirroring of a step's commit goes on: the copy of a pair has arrived, or its record (R413). An error response
takes mirroring down, and the commit goes on without it (R415). -/
def State.stepMirror (s : State) (T k p : Nat) (x : Step) (ok : Bool) : State :=
  let r : StepRef := ⟨T, k, x.serial⟩
  if !s.mayCommit r then s
  else if !ok then (s.mirrorFails.modStep r (fun x => { x with mirrorLeft := [] })).commitGo r 4
  else if x.mirrorLeft.contains (p, false) then
    let q := s.sq T k
    let y := s.pair T p
    (s.sendRecord T p (y.mirrorSeq + 1) (!y.mirrorSlot) k x.rec'.stepId q.next (q.iter % 65536)).modStep r (fun x =>
      { x with mirrorLeft := x.mirrorLeft.map (fun e => if e.1 = p then (p, true) else e) })
  else ((s.mirrorDone T p true).modStep r (fun x => { x with mirrorLeft := x.mirrorLeft.filter (fun e => e.1 ≠ p) })).commitGo r 4

/-- The same for a wave's commit; NEXT and ITER of its record are open (R303, R413). -/
def State.waveMirror (s : State) (r T p : Nat) (ok : Bool) : State :=
  match s.waveReady r with
  | none => s
  | some w =>
    if !ok then (s.mirrorFails.modTh T (fun x => { x with mirrorLeft := [] })).waveGo r w 4
    else if (s.th T).mirrorLeft.contains (p, false) then
      let y := s.pair T p
      let (a, s1) := s.draw 16
      let (b, s2) := s1.draw 16
      (s2.sendRecord T p (y.mirrorSeq + 1) (!y.mirrorSlot) 0xFF (w % 2 ^ 32) a.toNat b.toNat).modTh T (fun x =>
        { x with mirrorLeft := x.mirrorLeft.map (fun e => if e.1 = p then (p, true) else e) })
    else ((s.mirrorDone T p true).modTh T (fun x => { x with mirrorLeft := x.mirrorLeft.filter (fun e => e.1 ≠ p) })).waveGo r w 4

/-- A background copy goes on: its copy has arrived, or its record, whose CONTEXT, STEP_ID, NEXT and ITER are open
(R415). -/
def State.backgroundMirror (s : State) (T p : Nat) (ok : Bool) : State :=
  let y := s.pair T p
  if !ok then s.mirrorFails.modPair T p (fun x => { x with background := 0 })
  else if y.background = 1 then
    let (a, s1) := s.draw 8
    let (b, s2) := s1.draw 32
    let (c, s3) := s2.draw 16
    let (d, s4) := s3.draw 16
    (s4.sendRecord T p y.mirrorSeq (!y.mirrorSlot) a.toNat b.toNat c.toNat d.toNat).modPair T p (fun x => { x with background := 2 })
  else s.mirrorDone T p false

/-- MIRROR_WRITE_ARRIVED (R413, R415): the writes of a pair's copy, or its record, have all arrived. -/
def execMirrorWriteArrived (tiller pair : Nat) (ok : Bool) (s : State) : Out :=
  onUnit (tiller < 64 && pair < 64) "buffer pair" <|
    if !s.up then s
    else if (s.pair tiller pair).background ≠ 0 then s.backgroundMirror tiller pair ok
    else
      let mine := fun (k : Nat) => match (s.sq tiller k).steps with
        | x :: _ => if x.mirrorLeft.any (fun e => e.1 = pair) then some (k, x) else none
        | [] => none
      match (List.range 8).findSome? mine, s.regionOf tiller with
      | some (k, x), _ => s.stepMirror tiller k pair x ok
      | none, some r =>
        if arrCtrl (s.arr r) = tiller ∧ (s.th tiller).mirrorLeft.any (fun e => e.1 = pair) then s.waveMirror r tiller pair ok else s
      | none, none => s

/-- Whether a commit is mirroring a pair. -/
def State.commitMirrors (s : State) (T p : Nat) : Bool :=
  (List.range 8).any (fun k => (s.sq T k).steps.any (fun x => x.mirrorLeft.any (fun e => e.1 = p)))
    || (s.th T).mirrorLeft.any (fun e => e.1 = p)

/-- MIRROR_BACKGROUND_COPY (R415): while the mirror session is open, the live half of a mirrored pair that is not current
is copied. -/
def execMirrorBackgroundCopy (tiller pair : Nat) (s : State) : Out :=
  onUnit (tiller < 64 && pair < 64) "buffer pair" <|
    let x := s.pair tiller pair
    let isOpen : Bool := match s.loader.rel with | some r => r.mirrorEn && (s.session r.sess).st = 1 | none => false
    if s.up ∧ isOpen ∧ s.mirrored tiller pair ∧ x.valid ∧ !x.mirrorCurrent ∧ x.background = 0 ∧ !s.commitMirrors tiller pair then
      s.modPair tiller pair (fun x => { x with background := 1 })
    else s

/-- WATCH_RECORD_ARRIVED (R435): a watch record of a schedule context's step has arrived, or (`s` = 8) of the tiller's
wave controller. -/
def execWatchRecordArrived (tiller k : Nat) (s : State) : Out :=
  onUnit (tiller < 64 && k < 9) "schedule context" <|
    if !s.sqOn tiller then s else if k < 8 then s.stepWatchArrived tiller k else s.waveWatchArrived tiller

/-! ## Withdrawal (R416 to R419) -/

/-- A write of `REL_CMD` at level 1 (Table 10 of chapter 15); it is BUSY while a withdrawal waits or runs. -/
def State.relBusy (s : State) : Bool := s.rel.wdr != .none || s.rel.wdrDue.isSome
def State.writeRelCmd (s : State) (w : Word) : State :=
  if s.relBusy then s
  else
    let s1 := s.modRel (fun x => { x with cmdOp := field w 0 2 })
    if field w 0 2 = 1 then s1.withdraw 1 else s1

/-- REL_WITHDRAW (R416): `REL_CMD` WITHDRAW (cause 1), or damage beyond spares (causes 2 to 7) where WITHDRAW_EN is set. -/
def execRelWithdraw (cause : Nat) (s : State) : Out :=
  .next (if !s.up then s else if cause = 1 then s.writeRelCmd 1 else if 2 ≤ cause ∧ cause ≤ 7 then s.damage cause else s)

/-- Whether a range of memory holds something that cannot be read (R418). -/
def State.rangeLost (s : State) (a n : Nat) : Bool := (wordsOf a n).any s.unitBad

/-- An item of a manifest (R418); the spec does not say how the area is laid out, so an item's offset is open. -/
def State.wdrItem (s : State) (kind T index flags size : Nat) (source : Option Nat) : List Byte × State :=
  let (off, s1) := s.draw 64
  let (src, s2) : Nat × State := match source with | some a => (a, s1) | none => let (b, s2) := s1.draw 64; (b.toNat, s2)
  (leBytes 1 kind ++ leBytes 1 T ++ leBytes 1 index ++ leBytes 1 flags ++ leBytes 4 size ++ leBytes 8 off.toNat ++ leBytes 8 src
    ++ List.replicate 8 0, s2)

/-- What a withdrawal copies: kind, tiller, index, whether mirroring holds it, size, source (R417, R418). -/
def State.wdrList (s : State) : List (Nat × Nat × Nat × Bool × Nat × Option Nat) :=
  let pairs := (List.range 64).flatMap (fun T => ((List.range 64).filter (fun p => (s.pair T p).valid)).map (fun p =>
    let x := s.pair T p
    (1, T, p, s.mirrored T p && x.mirrorCurrent && !s.rel.mirrorDown, x.size, some (x.start false))))
  let persist := match s.loader.rel with
    | some r => (r.persist.zipIdx.filter (fun q => q.1.2 ≠ 0)).map (fun q => (2, 0, q.2, false, q.1.2, some q.1.1))
    | none => []
  pairs ++ persist ++ [(3, 0, 0, false, 64 * 8 * 8 + 64 * 8, none), (4, 0, 0, false, 64 * 256 * 8, none)]

/-- The manifest of a withdrawal, not yet COMPLETE (R418). -/
def State.wdrManifest (s : State) : List Byte × State :=
  let lost := fun (q : Nat × Nat × Nat × Bool × Nat × Option Nat) => match q.2.2.2.2.2 with
    | some a => !q.2.2.2.1 && s.rangeLost a q.2.2.2.2.1
    | none => false
  let items := s.wdrList
  let head := leBytes 2 s.moduleId ++ leBytes 1 s.rel.cause ++ leBytes 1 (2 * b2n (items.any lost)) ++ leBytes 4 items.length
    ++ leBytes 8 s.rel.wdrAt.toNat
  items.foldl (fun (r : List Byte × State) q =>
    let (l, s1) := r.2.wdrItem q.1 q.2.1 q.2.2.1 (b2n (lost q) + 2 * b2n q.2.2.2.1) q.2.2.2.2.1 q.2.2.2.2.2
    (r.1 ++ l, s1)) (head, s)

/-- WITHDRAW_DRAIN_END (R417, R419): regions still draining are aborted, and the copy to the buddy begins, if there is a
buddy that can be reached. -/
def execWithdrawDrainEnd (s : State) : Out :=
  .next <|
    if !s.up ∨ s.rel.wdr ≠ .draining then s
    else
      let s1 := forAll ((List.range 16).filter (fun r => (s.region r).st = .draining)) s (fun s r =>
        let s1 := forAll (s.regionTillers r) s (fun s T => forAll (List.range 8) s (fun s k => s.abortSq T k 6))
        if (s1.region r).mode = 2 then s1.arrayStop r 6 else s1)
      if s1.buddyOk then
        let m := s1.wdrManifest
        m.2.modRel (fun x => { x with wdr := .copying, manifest := m.1 })
      else s1.modRel (fun x => { x with wdr := .copying, wdrLost := true })

/-- WITHDRAW_COPY_END (R417, R418): the manifest is marked COMPLETE, a WITHDRAW flit leaves on every UP port, and every
port is disabled. -/
def execWithdrawCopyEnd (s : State) : Out :=
  .next <|
    if !s.up ∨ s.rel.wdr ≠ .copying then s
    else
      let s1 := s.modRel (fun x =>
        { x with wdr := .closing,
                 manifest := if x.wdrLost then x.manifest
                   else x.manifest.take 3 ++ leBytes 1 (leNat ((x.manifest.drop 3).take 1) ||| 1) ++ x.manifest.drop 4 })
      let s2 := forAll s1.upPorts s1 (fun s p => s.sendCtl p .withdraw)
      forAll (List.range 32) s2 (fun s p => s.setPortEn p false)

/-- WITHDRAW_COMPLETE (R417): the bypass closes and the module is WITHDRAWN until a module reset. -/
def execWithdrawComplete (s : State) : Out :=
  .next <|
    if !s.up ∨ s.rel.wdr ≠ .closing then s
    else
      let s1 := (s.modRel (fun x => { x with st := 2, wdr := .none, wdrDue := none })).modPower (fun x => { x with bypassOpen := false })
      (s1.setAlert 8).keeperNext

/-! ## The health log (R397, R420, R421) -/

/-- HEALTH_REPORT (R420): the Keeper takes a report from its node's queue and writes or merges it; a report of a detection
point that no other command stands for is queued first. -/
def execHealthReport (r : Report) (s : State) : Out :=
  onUnit (r.node < 100) "node" <|
    let same := fun (e : HealthEntry) => decide (entryOf e.stamp r = e)
    let take := fun (s : State) => match (s.node r.node).reports.find? same with
      | some e => some ((s.modNode r.node (fun n => { n with reports := n.reports.erase e })).writeEntry e)
      | none => none
    if !s.up then s
    else match take s with
      | some s1 => s1
      | none => let s1 := s.log r; (take s1).getD s1

/-- REL_RATE_EXPIRE (R397, R398): one second after a tiller's second fault within 10 ms its RATE condition ends. -/
def execRelRateExpire (tiller : Nat) (s : State) : Out :=
  onUnit (tiller < 64) "tiller" (if s.up then s.modTiller tiller (fun x => { x with rate := false }) else s)

end Sys2Proof.Machine
end

