-- ==== Sys2Proof/Machine/Repair.lean ====
section
/-! DEFINITION. Memory errors and their repair: the on-die stores (chapters 8 and 15) and HBM (chapter 12). -/

namespace Sys2Proof.Machine

/-! ## Addresses of cells -/

/-- The address in a list of ranges that a pseudo-channel offset holds: R320 and R321 turned round. -/
def hbmAddrFrom (before : List HbmRange) : List HbmRange → (pc off : Nat) → Option Nat
  | [], _, _ => none
  | r :: rs, pc, off =>
    let ss := rangeStacks r
    let stack := pc / 32
    let base := ((before.filter (fun b => (rangeStacks b).contains stack)).map rangeShare).sum
    if ss.contains stack ∧ base ≤ off ∧ off < base + rangeShare r then
      let n := rangeN r
      let q := (off - base) / 4096
      let f := (q % 512) ^^^ ((q >>> 9) % 512) ^^^ ((q >>> 18) % 512)
      let k := pc % 32 / 2 + pc % 2 * 16
      let j := k * ss.length + ss.idxOf stack
      some (r.base * 2 ^ 30 + (q * n + (j + n - f % n) % n) * 4096 + (off - base) % 4096)
    else hbmAddrFrom (before ++ [r]) rs pc off

/-- The common-store offset that a slice offset holds: R211 turned round. -/
def csOffset (mode slice off : Nat) : Nat :=
  let hi := off / 4096
  if mode = 0 then hi * 2 ^ 18 + (slice ^^^ (hi % 64) ^^^ (hi / 64 % 16)) * 4096 + off % 4096
  else
    let s0 := if slice % 8 < 4 then slice else slice - 4
    let h := s0 / 8 * 4 + s0 % 8
    hi * 2 ^ 17 + (h ^^^ (hi % 32) ^^^ (hi / 32 % 32)) * 4096 + off % 4096

/-- The local address that reaches a cell under the mapping in force, if one does. -/
def State.addrOfCell (s : State) (cell : Nat) : Option Nat :=
  if cell < 2 ^ 31 * 384 then hbmAddrFrom [] s.loader.interleave.ranges (cell / 2 ^ 31) (cell % 2 ^ 31)
  else if cell < 0x10100000000 then
    let o := cell - 0x10000000000
    some (0x10000000000 + csOffset s.loader.interleave.csMode (o / 0x400000) (o % 0x400000))
  else some cell

/-- Restores an uncorrectable unit that a scrub found from the mirror, if a covered live half holds it (R401). -/
def State.scrubRestore (s : State) (cell : Nat) : State × Bool :=
  match s.addrOfCell cell with
  | some a => s.restoreGranule a
  | none => (s, false)

/-! ## Stores on the die (R212 to R214, R399, R400) -/

/-- The store instance and the offset in it that an address reaches. -/
def State.storeOf (s : State) (a : Nat) : Option (StoreRef × Nat) :=
  match locOf a with
  | .eb c o => some (.eb c, o)
  | .clm c o => some (.clm c, o)
  | .tm t o => some (.tm t, o)
  | .cs o => let p := csPlace s.loader.interleave.csMode o; some (.cs p.1, p.2)
  | _ => none

/-- Whether a store instance exists, the tiller it lies in, its size in bytes, its number of banks and the UNIT of its
health-log entries (Tables 1 and 2 of chapter 8, Table 7 of chapter 15). -/
def storeOk (st : StoreRef) : Bool := match st with | .eb c | .clm c => c < 1024 | .tm t | .cs t => t < 64
def storeTiller (st : StoreRef) : Nat := match st with | .eb c | .clm c => c / 16 | .tm t | .cs t => t
def storeBytes (st : StoreRef) : Nat := match st with | .eb _ => 0x10000 | .clm _ => 0x80000 | .tm _ | .cs _ => 0x400000
def storeBanks (st : StoreRef) : Nat := match st with | .eb _ => 16 | .clm _ => 32 | .tm _ => 64 | .cs _ => 16
def storeUnit (st : StoreRef) : Nat := match st with | .eb c => c | .clm c => 0x1000 + c | .tm t => 0x2000 + t | .cs t => 0x3000 + t

/-- The bank of a byte of a store: the vector buffer's banks follow the matrix operand buffer's (Table 2 of chapter 8). -/
def storeBank (st : StoreRef) (o : Nat) : Nat :=
  match st with
  | .eb _ => o / 16 % 8 + (if o < 0xC000 then 0 else 8)
  | .clm _ => o / 8 % 32
  | .tm _ => o / 8 % 64
  | .cs _ => o / 8 % 16

/-- The cell of a byte of a store, and whether a cell lies in it. -/
def storeCell (st : StoreRef) (o : Nat) : Nat :=
  match st with | .eb c => ebAddr c o | .clm c => clmAddr c o | .tm t => tmAddr t o | .cs t => 0x10000000000 + t * 0x400000 + o
def inStoreCell (st : StoreRef) (cell : Nat) : Bool := storeCell st 0 ≤ cell && cell < storeCell st 0 + storeBytes st

/-- The repair state of a store instance. -/
def State.repair (s : State) (st : StoreRef) : SramRepair := ((s.repairs.find? (fun r => r.1 = st)).map Prod.snd).getD {}
def State.setRepair (s : State) (st : StoreRef) (x : SramRepair) : State :=
  { s with repairs := s.repairs.filter (fun r => r.1 ≠ st) ++ [(st, x)] }

/-- A health-log entry of a store. -/
def storeEntry (st : StoreRef) (cause action : Nat) (masked persistent lost : Bool) (detail : Nat) : Report :=
  { source := 3, cause, action, masked, persistent, lost, node := tillerNode (storeTiller st), unit := storeUnit st, stepId := 0, detail }

/-- Whether a store works: the module is up and its core clock runs. -/
def State.storeOn (s : State) (st : StoreRef) : Bool := s.up && s.clockOn (tillerHalf (storeTiller st))

/-- A store that is beyond its spares: a core's stores move to the spare core, else the module withdraws (R400). -/
def State.storeLost (s : State) (st : StoreRef) (bank : Nat) : State :=
  let T := storeTiller st
  let leave := (s.log (storeEntry st 4 (if s.loader.rel.any (·.withdrawEn) then 8 else 0xA) false false false bank)).damage 3
  match st with
  | .eb c | .clm c =>
    if s.spareFree T then (s.log (storeEntry st 4 4 true true false bank)).startTakeover T (c % 16) else leave
  | _ => leave

/-- A bank fails: its contents go to the spare bank, corrected, or the store is beyond its spares (R400). -/
def State.bankFail (s : State) (st : StoreRef) (bank : Nat) : State :=
  let x := s.repair st
  if x.bankUsed then s.storeLost st bank
  else
    let fixed := fun (cell : Nat) => inStoreCell st cell && storeBank st (cell - storeCell st 0) = bank
    let s1 := s.setRepair st { x with bankUsed := true, rows := x.rows.filter (fun r => r.1 ≠ bank) }
    ({ s1 with ceWords := s1.ceWords.filter (fun k => !fixed k) } : State).log (storeEntry st 4 2 true true false bank)

/-- A row is worn: a spare row of its bank replaces it, corrected; without one the bank fails (R399, R400). -/
def State.wornRow (s : State) (st : StoreRef) (bank row : Nat) : State :=
  let x := s.repair st
  if 4 ≤ (x.rows.filter (fun r => r.1 = bank)).length then s.bankFail st bank
  else
    let fixed := fun (cell : Nat) => inStoreCell st cell && storeBank st (cell - storeCell st 0) = bank && Config.rowOf cell = row
    let s1 := s.setRepair st { x with rows := x.rows ++ [(bank, row)], seen := sput 0 x.seen (row * 64 + bank) 0 }
    ({ s1 with ceWords := s1.ceWords.filter (fun k => !fixed k) } : State).log (storeEntry st 3 2 true true false bank)

/-- A single-bit error is corrected, written back and counted (R212). -/
def State.sramCorrect (s : State) (st : StoreRef) (cell : Nat) : State :=
  let s1 := ({ s with ceWords := s.ceWords.filter (· ≠ cell) } : State).modTiller (storeTiller st) (fun x => { x with sramCe := satAdd 24 x.sramCe 1 })
  s1.log (storeEntry st 1 1 true false false ((s.addrOfCell cell).getD 0))

/-- A word of a store read as uncorrectable makes its row worn, unless a spare row holds it already (R399). -/
def State.sramUeRow (s : State) (st : StoreRef) (cell : Nat) : State :=
  let bank := storeBank st (cell - storeCell st 0)
  let row := Config.rowOf cell
  if (s.repair st).rows.contains (bank, row) then s else s.wornRow st bank row

/-- SRAM_READ (R212, R213, R399): a bank reads the word at an address: a single-bit error is corrected and written back,
an uncorrectable one is counted and its row repaired. -/
def execSramRead (addr : Nat) (s : State) : Out :=
  match s.storeOf addr with
  | none => .fault (.noSuchUnit "on-die store")
  | some (st, _) =>
    .next <|
      if !s.storeOn st then s
      else
        let k := s.unitKey addr
        if s.badWords.contains k then (s.noteUe addr).sramUeRow st k
        else if s.ceWords.contains k then s.sramCorrect st k else s

/-- SRAM_SCRUB (R214, R399, R401): the scrubber reads the next word of a store. -/
def execSramScrub (st : StoreRef) (s : State) : Out :=
  onUnit (storeOk st) "store" <|
    if !s.storeOn st then s
    else
      let x := s.repair st
      let words := storeBytes st / 8
      let cell := storeCell st (x.scrubAt % words * 8)
      let pass := x.scrubAt / words + 1
      let s1 := s.setRepair st { x with scrubAt := x.scrubAt + 1 }
      if s1.badWords.contains cell then
        let r := (s1.modTiller (storeTiller st) (fun x => { x with sramUe := satAdd 16 x.sramUe 1 })).scrubRestore cell
        let a := (s.addrOfCell cell).getD 0
        (r.1.log (if r.2 then storeEntry st 2 5 true false false a else storeEntry st 2 0xA false false true a)).sramUeRow st cell
      else if s1.ceWords.contains cell then
        let s2 := s1.sramCorrect st cell
        let bank := storeBank st (cell - storeCell st 0)
        let key := Config.rowOf cell * 64 + bank
        let first := sget 0 x.seen key
        if first ≠ 0 ∧ first ≠ pass then s2.wornRow st bank (Config.rowOf cell)
        else s2.setRepair st { (s2.repair st) with seen := sput 0 x.seen key (if first = 0 then pass else first) }
      else s1

/-- SRAM_BANK_FAIL (R400): a bank's own logic fails. -/
def execSramBankFail (st : StoreRef) (bank : Nat) (s : State) : Out :=
  onUnit (storeOk st && bank < storeBanks st) "bank" (if s.storeOn st then s.bankFail st bank else s)

/-! ## HBM (R324 to R330) -/

/-- A health-log entry of a pseudo-channel. -/
def hbmEntry (pc cause action : Nat) (masked lost : Bool) (detail : Nat) : Report :=
  { source := 4, cause, action, masked, persistent := false, lost, node := stackNode (pc / 32), unit := pc, stepId := 0, detail }

/-- Whether a stack serves: the module is up and the stack READY. -/
def State.stackOn (s : State) (i : Nat) : Bool := s.up && (s.stack i).st = 2

/-- A correctable codeword is corrected, written back and counted (R324). -/
def State.hbmCorrect (s : State) (cell : Nat) : State :=
  let pc := cell / 2 ^ 31
  let s1 := ({ s with ceWords := s.ceWords.filter (· ≠ cell) } : State).modStack (pc / 32) (fun x => { x with ce := satAdd 24 x.ce 1 })
  s1.log (hbmEntry pc 1 1 true false ((s.addrOfCell cell).getD 0))

/-- The codewords that a range of bytes touches. -/
def codewords (a n : Nat) : List Nat := if n = 0 then [] else (List.range ((a + n + 31) / 32 - a / 32)).map (fun i => (a / 32 + i) * 32)

/-- HBM_READ (R324, R325): each codeword is read: a correctable error is corrected and written back; an uncorrectable one
makes the read UNCORRECTABLE, which is counted. -/
def execHbmRead (addr len : Nat) (s : State) : Out :=
  onUnit (addr + len ≤ 0xC000000000) "HBM" <|
    let ws := (codewords addr len).filter (fun a => s.stackOn ((s.hbmPlace a).1 / 32))
    let s1 := forAll (ws.filter (fun a => !s.unitBad a && s.ceWords.contains (s.unitKey a))) s (fun s a => s.hbmCorrect (s.unitKey a))
    match ws.find? s.unitBad with
    | some a => s1.noteUe a
    | none => s1

/-- HBM_WRITE (R326, R327): a write in flight reaches its controller and is performed; an accumulate-on-write is
refused. -/
def execHbmWrite (req : Nat) (s : State) : Out :=
  .next <|
    match (if s.up then s.reqs.find? (fun r => r.id = req) else none) with
    | some r => (match locOf r.addr.toNat with | .hbm _ => s.performId req | _ => s)
    | none => s

/-- A pseudo-channel fails: its bit is set, and the module withdraws where it may (R329, R416). -/
def State.failPc (s : State) (pc : Nat) : State :=
  if (s.stack (pc / 32)).pcfail.testBit (pc % 32) then s
  else
    let s1 := s.modStack (pc / 32) (fun x => { x with pcfail := x.pcfail ||| 2 ^ (pc % 32) })
    (s1.log (hbmEntry pc 5 (if s.loader.rel.any (·.withdrawEn) then 8 else 0xA) false (!s.mirrorUp) 0)).damage 4

/-- PC_COMMAND_PATH_FAILURE (R329). -/
def execPcCommandPathFailure (pc : Nat) (s : State) : Out :=
  onUnit (pc < 384) "pseudo-channel" (if s.up then s.failPc pc else s)

/-- HBM_LANE_REPAIR (R329): a spare lane takes a failing pin's place, or the error cannot be removed and the
pseudo-channel has failed. -/
def execHbmLaneRepair (pc : Nat) (removable : Bool) (s : State) : Out :=
  onUnit (pc < 384) "pseudo-channel" <|
    if !s.stackOn (pc / 32) then s
    else if removable then (s.modStack (pc / 32) (fun x => { x with lanes := satAdd 8 x.lanes 1 })).log (hbmEntry pc 4 2 true false 0)
    else s.failPc pc

/-- Fewest spare rows left in any bank of a stack. -/
def Stack.sparesLeft (x : Stack) : Nat := Config.hbmSpareRows - x.bankRows.foldl (fun m b => Nat.max m b.2) 0

/-- HBM_ROW_REPAIR (R328, R329): a worn row is copied, corrected, onto a spare row of its bank, and the remap table in
flash records it; without a spare row the pseudo-channel has failed. -/
def execHbmRowRepair (stack bank row : Nat) (s : State) : Out :=
  onUnit (stack < 12) "stack" <|
    if !s.stackOn stack then s
    else
      let pc := 32 * stack + Config.hbmBankPc bank % 32
      let used := sget 0 (s.stack stack).bankRows bank
      if used < Config.hbmSpareRows then
        let s1 := s.modStack stack (fun x => { x with bankRows := sput 0 x.bankRows bank (used + 1), remap := x.remap ++ [(bank, row)], rows := satAdd 12 x.rows 1 })
        let s2 := s1.modStack stack (fun x => { x with spareMin := min x.sparesLeft 255 })
        ({ s2 with ceWords := s2.ceWords.filter (fun k => !(k / 2 ^ 31 / 32 = stack && Config.hbmRowOf k = (bank, row))) } : State).log
          (hbmEntry pc 3 2 true false bank)
      else s.failPc pc

/-- HBM_PATROL_SCRUB (R328, R401): the patrol scrubber reads the next codeword of its stack. -/
def execHbmPatrolScrub (stack : Nat) (s : State) : Out :=
  onUnit (stack < 12) "stack" <|
    if !s.stackOn stack then s
    else
      let x := s.stack stack
      let pc := 32 * stack + x.progress / 2 ^ 26 % 32
      let cell := pc * 2 ^ 31 + x.progress % 2 ^ 26 * 32
      let s1 := s.modStack stack (fun x =>
        if x.progress + 1 = 2 ^ 31 then { x with progress := 0, passes := satAdd 16 x.passes 1, period := x.periodNext }
        else { x with progress := x.progress + 1 })
      if x.pcfail.testBit (pc % 32) || s.badWords.contains cell then
        let s2 := s1.modStack stack (fun x => { x with ue := satAdd 16 x.ue 1 })
        let r := if x.pcfail.testBit (pc % 32) then (s2, false) else s2.scrubRestore cell
        let a := (s.addrOfCell cell).getD 0
        r.1.log (if r.2 then hbmEntry pc 2 5 true false a else hbmEntry pc 2 0xA false true a)
      else if s.ceWords.contains cell then s1.hbmCorrect cell else s1

/-- HBM_TEMP_READ (R330, R457): the temperature sets the refresh rate and the throttle, and HBM_WARN. -/
def execHbmTempRead (stack temp : Nat) (s : State) : Out :=
  onUnit (stack < 12) "stack" <|
    if !s.up ∨ (s.stack stack).st = 0 then s
    else
      let t := min temp 255
      let s1 := s.modStack stack (fun x => { x with temp := t, max := max x.max t, double := 85 < temp, throttle := 95 < temp })
      if 95 < temp then s1.setAlert 3 else s1

/-- HBM_REFRESH (R330): a refresh keeps every cell as it is. -/
def execHbmRefresh (stack : Nat) (s : State) : Out := onUnit (stack < 12) "stack" s

end Sys2Proof.Machine
end

