-- ==== Sys2Proof/Machine/Culm.lean ====
section
/-! DEFINITION. The Culm complex: the paged major, the caches with their errors, and the nodes (chapter 14, R411, R412). -/

namespace Sys2Proof.Machine

/-! ## Lines (R379 to R383) -/

/-- The cores of a node. -/
def nodeCores (i : Nat) : List Nat := (List.range 4).map (4 * i + ·)

/-- Whether a side buffer holds a line. -/
def State.inAnySide (s : State) (l : Nat) : Bool := (List.range 16).any (fun k => s.inSide k l)

/-- A line that no cache holds any more is gone. -/
def State.settleLine (s : State) (l : Nat) : State :=
  let x := s.line l
  if x.cores.isEmpty && x.l3.isNone && !s.inAnySide l then s.setLine l {} else s

/-- Writes a dirty line back: a full line, or, where its copy failed its check, as uncorrectable (R384, R387). -/
def State.writeBack (s : State) (h : Half) (l : Nat) : State :=
  let x := s.line l
  if !x.present || !x.dirty then s
  else
    let s1 := s.setLine l { x with dirty := false, bad := false }
    if x.bad then { s1 with badWords := ((wordsOf (l * 64) 64).map s.unitKey).foldl (fun m k => nins k m) s1.badWords }
    else (s1.writeAcc h (l * 64) x.data).2

/-- The half of a Culm core's node. -/
def culmHalf (k : Nat) : Half := nodeHalf (culmNodeNode (k / 4))

/-- A line leaves a node's L3 by eviction: a dirty one is written back (R380). -/
def State.l3Evict (s : State) (h : Half) (l : Nat) : State :=
  ((s.writeBack h l).setLine l (let x := (s.writeBack h l).line l; { x with l3 := none, reuse := false })).settleLine l

/-- The L2 of core `k` evicts a line: its last copy is offered to the node's L3, which takes a dirty line, and a clean one
only with an invalid way (`l3Victim` none) or one whose reuse bit is clear (R380). -/
def State.l2Evict (s : State) (k l : Nat) (l3Victim : Option Nat) : State :=
  let x := s.line l
  let s1 := s.setLine l { x with cores := x.cores.erase k }
  if !x.cores.contains k then s
  else if !(x.cores.erase k).isEmpty || x.l3.isSome then s1
  else
    let node := k / 4
    let victim := l3Victim.filter (fun v => (s.line v).l3 = some node)
    let takes := x.dirty || (match victim with | some v => !(s.line v).reuse | none => true)
    if !takes then (s1.settleLine l).count (culmNodeNode node) 0x81 (fun _ => true) 1
    else
      let s2 := match victim with | some v => s1.l3Evict (culmHalf k) v | none => s1
      s2.setLine l { (s2.line l) with l3 := some node }

/-- Brings a line into a cache's reach: as some cache holds it, else from memory; the DETAIL of an error response. -/
def State.bringLine (s : State) (k l : Nat) : Except Nat State :=
  if (s.line l).present then .ok s
  else match s.readAcc (culmHalf k) (l * 64) 64 with
    | .ok d => .ok (s.setLine l { present := true, data := d })
    | .error e => .error e

/-- A line enters core `k`'s L2 from memory, from another copy or from an L3, which it leaves, its reuse bit set (R379 to
R381). -/
def State.fillL2 (s : State) (k l : Nat) : State :=
  s.setLine l (let x := s.line l; { x with cores := nins k x.cores, l3 := none, reuse := x.l3.isSome })

/-- A core's copy of a line is invalidated (R383). -/
def State.dropCopy (s : State) (k l : Nat) : State :=
  ((s.modCulm k (fun c => { c with side := ndel l c.side })).setLine l
    (let x := s.line l; { x with cores := x.cores.erase k })).settleLine l

/-- Whether a Culm node runs. -/
def State.nodeRuns (s : State) (i : Nat) : Bool := s.up && (s.culmNode i).st = 1

/-- Ends the wait of a Culm core for a line: its instruction goes on. -/
def State.lineHere (s : State) (k l : Nat) : State :=
  match (s.culmCore k).ctx.wait with
  | some ⟨.cacheLine j, _⟩ => if j = l then s.makeReady ⟨1024 + k, 0⟩ else s
  | _ => s

/-- PREFETCH_FILL (R382): the side buffer takes a line in place of its oldest; an error response ends the prefetch. -/
def execPrefetchFill (k line : Nat) (s : State) : Out :=
  onUnit (k < 16 && isCacheable (line * 64)) "cacheable line" <|
    if !s.nodeRuns (k / 4) then s
    else
      let s1 := s.modCulm k (fun c => { c with prefetch := ndel line c.prefetch })
      if s1.inL2 k line ∨ s1.inSide k line then s1.lineHere k line
      else match s1.bringLine k line with
        | .error _ => s1
        | .ok s2 =>
          let old := (s2.culmCore k).side
          let s3 := s2.modCulm k (fun c => { c with side := (if 16 ≤ old.length then old.drop 1 else old) ++ [line] })
          let s4 := if 16 ≤ old.length then s3.settleLine (old.headD 0) else s3
          s4.lineHere k line

/-- COHERENCE_PROBE (R381, R383): a probe invalidates a core's copy, or leaves it shared; the last dirty copy is written
back. -/
def execCoherenceProbe (k line : Nat) (exclusive : Bool) (s : State) : Out :=
  onUnit (k < 16) "Culm core" <|
    if !s.nodeRuns (k / 4) ∨ !exclusive ∨ !(s.inL2 k line || s.inSide k line) then s
    else
      let last := (s.line line).cores = [k] && (s.line line).l3.isNone
      (if last then s.writeBack (culmHalf k) line else s).dropCopy k line

/-! ## Nodes (R385, R387, R388, R411, R412) -/

/-- `CN_STATE` of a node changes: the others are told (source 50). -/
def State.setNode (s : State) (i st cause : Nat) : State :=
  (s.modCulmNode i (fun x => { x with st := st, cause := cause })).pulseXint 50

/-- The lines that a node's caches hold. -/
def State.nodeLines (s : State) (i : Nat) : List Nat :=
  (s.cache.filter (fun p => p.2.l3 = some i || p.2.cores.any (fun k => k / 4 = i) || (nodeCores i).any (fun k => s.inSide k p.1))).map Prod.fst

/-- A node's caches let go of a line. -/
def State.releaseLine (s : State) (i l : Nat) : State :=
  let h := nodeHalf (culmNodeNode i)
  let s1 := s.writeBack h l
  let s2 := forAll (nodeCores i) s1 (fun s k => s.modCulm k (fun c => { c with side := ndel l c.side }))
  (s2.setLine l (let x := s2.line l; { x with cores := x.cores.filter (fun k => k / 4 ≠ i), l3 := x.l3.filter (· ≠ i), reuse := false })).settleLine l

/-- The caches of a node are emptied. -/
def State.emptyNode (s : State) (i : Nat) : State := forAll (s.nodeLines i) s (fun s l => s.releaseLine i l)

/-- Holrid's failover (R411): interrupts of the failed node's cores move to the surviving node, which is told. -/
def State.failover (s : State) (i r : Nat) : State :=
  let tgt := (List.range 64).foldl (fun m src =>
    let w := sget 0 m src
    if w % 16 / 4 = i then sput 0 m src (w / 16 * 16 + 4 * r + w % 4) else m) s.xintTgt
  let s1 := { s with xintTgt := tgt }
  (s1.modCulmNode i (fun x => { x with period := 0 })).pulseXint 50

/-- Whether no node can run Holrid. -/
def State.noCulm (s : State) : Bool := (List.range 4).all (fun i => (s.culmNode i).st ≠ 1)

/-- A node becomes FAILED: its lines are released, its cores stop; a node that holds Holrid fails over to the other; when
no node is left the module withdraws (R387, R411, Table 2 of chapter 15). -/
def State.nodeFail (s : State) (i cause : Nat) : State :=
  let s1 := (s.emptyNode i).modCulmNode i (fun x => { x with st := 3, cause := cause })
  let entry := fun (action : Nat) (masked : Bool) => report 7 3 action masked (culmNodeNode i) i cause
  let other := match s.loader.rel with
    | some r => if i = r.primary then some r.replica else if i = r.replica then some r.primary else none
    | none => none
  match other with
  | some r =>
    if (s1.culmNode r).st = 1 then (s1.failover i r).log (entry 7 true)
    else
      let s2 := s1.pulseXint 50
      if s2.noCulm then (s2.log (entry (if s.loader.rel.any (·.withdrawEn) then 8 else 0xA) false)).damage 7 else s2.log (entry 0xA false)
  | none => (s1.pulseXint 50).log (entry 0xA false)

/-- CULM_NODE_FAIL (R387): a fatal cache error, a watchdog, or a core that R123 stopped. -/
def execCulmNodeFail (node cause : Nat) (s : State) : Out :=
  onUnit (node < 4) "Culm node" <|
    let ok := cause = 1 || cause = 2 || (cause = 3 && (nodeCores node).any (fun k => (s.culmCore k).stopped))
    if s.nodeRuns node && ok then s.nodeFail node cause else s

/-- A Culm core at its start: level 0, translation off, at the boot entry, every segment from 0 (R388, R477; log
entry 22). -/
def CulmCore.started (c : CulmCore) (entry : Nat) : CulmCore :=
  let g : Seg := { base := 0, bound := 0xFFFFFFFFFFF }
  { ctx := { st := .running, level := 0, pc := word entry, segs := { s0 := g, s1 := g, s2 := g, s3 := g } }, tmr := c.tmr, timerAt := c.timerAt }

/-- A node is reset into Mode P and its cores start (R388). -/
def State.nodeStart (s : State) (i : Nat) : State :=
  let s1 := s.emptyNode i
  let s2 := forAll (nodeCores i) s1 (fun s k => s.modCulm k (fun c => c.started s.boot.culmEntry))
  (s2.modCulmNode i (fun x => { x with mode := 0, wdogAt := s.time.tb })).setNode i 1 0

/-- A node stops: its dirty lines are written back, its cores keep their state (R388). -/
def State.nodeStop (s : State) (i : Nat) : State :=
  (forAll (s.nodeLines i) s (fun s l => s.writeBack (nodeHalf (culmNodeNode i)) l)).setNode i 2 (s.culmNode i).cause

/-- A write of `CN_REQ` at level 1 (R388, Table 8 of chapter 14). -/
def State.writeCnReq (s : State) (w : Word) : State :=
  let i := field w 2 2
  let st := (s.culmNode i).st
  let s1 := { s with cnReq := field w 0 4 }
  match field w 0 2 with
  | 1 => if st = 1 then s1.nodeStop i else s1
  | 2 => if st = 2 ∨ st = 3 then s1.nodeStart i else s1
  | _ => s1

/-- CN_STOP (R388). -/
def execCnStop (node : Nat) (s : State) : Out := onUnit (node < 4) "Culm node" (if s.up then s.writeCnReq (word (1 + 4 * node)) else s)
/-- CN_START (R388). -/
def execCnStart (node : Nat) (s : State) : Out := onUnit (node < 4) "Culm node" (if s.up then s.writeCnReq (word (2 + 4 * node)) else s)

/-- A write of `CN_CTL` (R385, Table 7 of chapter 14): GO_E from Mode P, TEST of a STOPPED node, which empties its caches. -/
def State.writeCnCtl (s : State) (i : Nat) (w : Word) : State :=
  match field w 2 2 with
  | 1 => if (s.culmNode i).mode = 0 then s.modCulmNode i (fun x => { x with mode := 2 }) else s
  | 2 => if (s.culmNode i).st = 2 then (s.emptyNode i).modCulmNode i (fun x => { x with mode := 3 }) else s
  | _ => s

/-- CN_GO_E (R385). -/
def execCnGoE (node : Nat) (s : State) : Out :=
  onUnit (node < 4) "Culm node" (if s.reachable (culmNodeNode node) then s.writeCnCtl node 4 else s)
/-- CN_TEST (R385). -/
def execCnTest (node : Nat) (s : State) : Out :=
  onUnit (node < 4) "Culm node" (if s.reachable (culmNodeNode node) then s.writeCnCtl node 8 else s)

/-- CN_SWEEP_END (R385): the sweep, or the test with the sweep that ends it, is over. -/
def execCnSweepEnd (node : Nat) (s : State) : Out :=
  onUnit (node < 4) "Culm node"
    (if s.up ∧ ((s.culmNode node).mode = 2 ∨ (s.culmNode node).mode = 3) then s.modCulmNode node (fun x => { x with mode := 1 }) else s)

/-- A write of `CN_WDOG[i]` at level 1: KICK restarts the count, any other write sets PERIOD, which restarts it too. -/
def State.writeCnWdog (s : State) (i : Nat) (w : Word) : State :=
  s.modCulmNode i (fun x => { x with wdogAt := s.time.tb, period := if bit w 31 then x.period else field w 0 24 })

/-- CN_WDOG_KICK (R388). -/
def execCnWdogKick (node : Nat) (s : State) : Out :=
  onUnit (node < 4) "Culm node" (if s.up then s.writeCnWdog node (word (2 ^ 31)) else s)

/-- CN_WDOG_EXPIRE (R388): a running node whose watchdog has reached PERIOD fails. -/
def execCnWdogExpire (node : Nat) (s : State) : Out :=
  onUnit (node < 4) "Culm node" <|
    let x := s.culmNode node
    if s.nodeRuns node ∧ x.period ≠ 0 ∧ x.wdogAt + x.period * 1000 ≤ s.time.tb then s.nodeFail node 2 else s

/-- CULM_RESTART (R412): a FAILED node is tested, its failing rows mapped, and started as the new replica; a node that
fails the test stays FAILED. -/
def execCulmRestart (node rowsMapped : Nat) (ok : Bool) (s : State) : Out :=
  onUnit (node < 4) "Culm node" <|
    let en := match s.loader.rel with | some r => r.culmRestart | none => false
    if !s.up ∨ !en ∨ (s.culmNode node).st ≠ 3 then s
    else
      let s1 := s.modCulmNode node (fun x => { x with rows := satAdd 8 x.rows rowsMapped })
      let s2 := if rowsMapped = 0 then s1
        else s1.log { report 7 3 2 true (culmNodeNode node) node rowsMapped with persistent := true }
      if ok then s2.nodeStart node else if s2.noCulm then s2.damage 7 else s2

/-! ## Cache errors (R386) -/

/-- Counts a corrected error, or a clean line invalidated, with its merged entry. -/
def State.noteCulm (s : State) (i : Nat) (inv : Bool) (l : Nat) : State :=
  (s.modCulmNode i (fun x => if inv then { x with cleanInv := satAdd 16 x.cleanInv 1 } else { x with ce := satAdd 24 x.ce 1 })).log
    (report 7 (if inv then 2 else 1) 1 true (culmNodeNode i) i (l * 64))

/-- Whether a core's caches or its node's L3 hold a line. -/
def State.reachesLine (s : State) (k l : Nat) : Bool := s.inL2 k l || s.inSide k l || (s.line l).l3 = some (k / 4)

/-- The copies of a line that a core's caches and its node's L3 hold are invalidated. -/
def State.dropLine (s : State) (k l : Nat) : State :=
  let s1 := s.setLine l (let x := s.line l; { x with l3 := if x.l3 = some (k / 4) then none else x.l3 })
  s1.dropCopy k l

/-- CULM_CACHE_ERROR (Table 6 of chapter 14). Outside Mode E a data error shows as a parity error. -/
def execCulmCacheError (k : Nat) (e : CacheErr) (line : Nat) (s : State) : Out :=
  onUnit (k < 16) "Culm core" <|
    let i := k / 4
    let modeE := (s.culmNode i).mode = 1
    let x := s.line line
    let parity := fun (s : State) =>
      if x.dirty then (s.setLine line { x with bad := true }).nodeFail i 1 else (s.dropLine k line).noteCulm i true line
    if !s.nodeRuns i then s
    else match e with
      | .l1iParity => s
      | .tagParity =>
        let set := (s.cache.filter (fun p => s.reachesLine k p.1 && Config.cacheSet p.1 = Config.cacheSet line)).map Prod.fst
        let s1 := forAll (set.filter (fun l => !(s.line l).dirty)) s (fun s l => s.dropLine k l)
        if set.any (fun l => (s.line l).dirty) then
          (forAll (set.filter (fun l => (s.line l).dirty)) s1 (fun s l => s.setLine l { (s.line l) with bad := true })).nodeFail i 1
        else s1
      | .single => if !s.reachesLine k line then s else if modeE then s.noteCulm i false line else parity s
      | .uncorrectable => if s.reachesLine k line then parity s else s
      | .dataParity => if s.reachesLine k line && !modeE then parity s else s

/-! ## The paged major (R377) -/

/-- An instruction of the paged major that needs level 1 raises PRIVILEGE at level 2 (R100). -/
def State.pagedLevel1 (s : State) (t : Tid) (body : State → State) : Out :=
  s.culmOnly t (fun s => if (s.ctx t).level = 2 then s.privilege t else body s)

/-- Writes back every dirty copy of a line, and with `inv` invalidates every copy. -/
def State.flushLine (s : State) (h : Half) (l : Nat) (inv : Bool) : State :=
  let s1 := s.writeBack h l
  if inv then (forAll (List.range 16) s1 (fun s k => s.modCulm k (fun c => { c with side := ndel l c.side }))).setLine l {} else s1

/-- The lines of CFLUSH and CFLUSHI, each translated first: a failure raises PAGE for the first that fails. -/
def State.flushLines (s : State) (t : Tid) (inv : Bool) : (n : Nat) → (va : Nat) → State
  | 0, _ => s.advance t 4
  | n + 1, va =>
    match s.translate t (s.ctx t).level va .load with
    | .error d => s.raise t (pageExc s t d va)
    | .ok (a, _, s1) => (if isCacheable a then s1.flushLine (tidHalf t) (a / 64) inv else s1).flushLines t inv n (va + 64)

/-- CFLUSH (R377). -/
def execCflush (t : Tid) (ra : Reg) (n : BitVec 11) (s : State) : Out :=
  s.culmOnly t (fun s => s.flushLines t false (n.toNat + 1) ((s.reg t ra).toNat / 64 * 64))
/-- CFLUSHI (R377). -/
def execCflushi (t : Tid) (ra : Reg) (n : BitVec 11) (s : State) : Out :=
  s.culmOnly t (fun s => s.flushLines t true (n.toNat + 1) ((s.reg t ra).toNat / 64 * 64))

/-- Invalidates translations in a core's TLBs, or in those of every running core (R376, R377). -/
def State.tlbDrop (s : State) (t : Tid) (all : Bool) (p : Tlb → Bool) : State :=
  let own := t.unit - 1024
  forAll (if all then (List.range 16).filter (fun k => k = own || (s.culmNode (k / 4)).st = 1) else [own]) s (fun s k =>
    s.modCulm k (fun c => { c with tlb := c.tlb.filter (fun e => !p e) }))

/-- TLBI (R377). -/
def execTlbi (t : Tid) (ra : Reg) (all : Bool) (s : State) : Out :=
  s.pagedLevel1 t (fun s =>
    let va := (s.reg t ra).toNat
    let asid := (s.culmCore (t.unit - 1024)).asid
    (s.tlbDrop t all (fun e => va / 2 ^ e.shift = e.vpn && (e.asid = asid || e.pte.getLsbD 5))).advance t 4)

/-- TLBIA (R377): translations of an ASID, or every translation with the G ones. -/
def execTlbia (t : Tid) (ra : Reg) (every all : Bool) (s : State) : Out :=
  s.pagedLevel1 t (fun s =>
    let asid := field (s.reg t ra) 0 16
    (s.tlbDrop t all (fun e => every || (e.asid = asid && !e.pte.getLsbD 5))).advance t 4)

/-- WFI (R377). -/
def execWfi (t : Tid) (s : State) : Out :=
  s.pagedLevel1 t (fun s =>
    let c := s.culmCore (t.unit - 1024)
    if c.xint ≠ 0 ∨ c.timerAt.isSome then s.advance t 4 else s.stall t .interrupt (.wfi t))

/-! ## Interrupts between cores and the timer (R371, R389, R390) -/

/-- IPI_SEND (R371): a level-1 write of `IPI_SEND` makes source 52 + VEC pending at the target core. -/
def State.writeIpi (s : State) (w : Word) : State := s.setXint (field w 0 4) (52 + field w 4 2)
def execIpiSend (t : Tid) (w : Word) (s : State) : Out :=
  if t.unit < 1024 then onUnit (tidOk t) "thread" s else s.pagedLevel1 t (fun s => (s.writeIpi w).advance t 4)

/-- TMR_CMP_WRITE (R390): a level-1 write of `TMR_CMP` sets the time and clears a pending TIMER. -/
def State.writeTmr (s : State) (t : Tid) (w : Word) : State :=
  s.modCulm (t.unit - 1024) (fun c => { c with tmr := field w 0 63, timerAt := none })
def execTmrCmpWrite (t : Tid) (w : Word) (s : State) : Out :=
  if t.unit < 1024 then onUnit (tidOk t) "thread" s else s.pagedLevel1 t (fun s => (s.writeTmr t w).advance t 4)

/-- TIMER_MATCH (R390): TIMER becomes pending once `TB` has reached TIME, and ends a WFI. -/
def execTimerMatch (k : Nat) (s : State) : Out :=
  onUnit (k < 16) "Culm core" <|
    let c := s.culmCore k
    if !s.nodeRuns (k / 4) ∨ c.tmr = 0 ∨ s.time.tb < c.tmr ∨ c.timerAt.isSome then s
    else
      let t : Tid := ⟨1024 + k, 0⟩
      let s1 := s.modCulm k (fun c => { c with timerAt := some s.time.tb })
      match (s1.ctx t).wait with
      | some ⟨.interrupt, _⟩ => ((s1.advance t 4).makeReady t).settleDebug t
      | _ => s1

end Sys2Proof.Machine
end

