-- ==== Sys2Proof/Machine/Services.lean ====
section
/-! DEFINITION. The service Ethernet ports and the PCIe root port (R392 to R396). -/

namespace Sys2Proof.Machine

/-! ## Service Ethernet ports (R392 to R394) -/

/-- The node of the service ports and that of the PCIe root port (R392, R395). -/
def ethNode : Nat := 9
def pcieNode : Nat := 90

/-- Whether a range lies in HBM, or in the common store. -/
def inBulk (a n : Nat) : Bool := inHbmOrCs a n

/-- The address of descriptor `i` of a ring. -/
def EthPort.txDesc (x : EthPort) : Nat := x.txBase + 32 * (x.txNext % 2 ^ x.txSize)
def EthPort.rxDesc (x : EthPort) : Nat := x.rxBase + 32 * (x.rxNext % 2 ^ x.rxSize)

/-- A descriptor as the port reads it; none where the ring lies elsewhere or cannot be read. -/
def State.ethDesc (s : State) (a : Nat) : Option (List Byte) :=
  if inBulk a 32 then (match s.readAcc (nodeHalf ethNode) a 32 with | .ok l => some l | .error _ => none) else none

/-- Writes a descriptor's FLAGS, STATUS, LEN and STAMP back, with OWN = 0 (R393, R394). -/
def State.ethBack (s : State) (a : Nat) (l : List Byte) (len status : Nat) (stamp : Option Word) : State :=
  let flags := fld l 10 1
  let f := flags / 2 % 4 * 2 + flags / 16 * 16 + (if stamp.isSome then 8 else 0)
  let d := l.take 8 ++ leBytes 2 len ++ leBytes 1 f ++ leBytes 1 status ++ (l.drop 12).take 4
    ++ (match stamp with | some w => leBytes 8 w.toNat | none => (l.drop 16).take 8) ++ l.drop 24
  (s.writeAcc (nodeHalf ethNode) a d).2

/-- A write of `ETH_DB` at level 1: an enabled port scans its transmit ring. -/
def State.writeEthDb (s : State) (p : Nat) (w : Word) : State :=
  s.modEth p (fun x => if bit w 0 && x.en then { x with scanning := true } else x)

/-- ETH_DB_TX (R393). -/
def execEthDbTx (p : Nat) (w : Word) (s : State) : Out :=
  onUnit (p < 2) "service port" (if s.reachable ethNode then s.writeEthDb p w else s)

/-- The longest frame without its FCS (R392). -/
def ethMax : Nat := 9212

/-- ETH_TX_FRAME_SENT (R393, R394): the next descriptor's frame leaves, with its FCS, and the descriptor is written back; a
descriptor with OWN = 0 ends the scan. -/
def execEthTxFrameSent (p : Nat) (s : State) : Out :=
  onUnit (p < 2) "service port" <|
    let x := s.ethPort p
    if !s.up ∨ !x.en ∨ !x.scanning ∨ x.link ≠ 2 then s
    else match s.ethDesc x.txDesc with
      | none => s.modEth p (fun x => { x with scanning := false })
      | some l =>
        let flags := fld l 10 1
        if !flags.testBit 0 then s.modEth p (fun x => { x with scanning := false })
        else
          let a := fld l 0 8
          let n := fld l 8 2
          let data := if inBulk a n then s.readAcc (nodeHalf ethNode) a n else .error 0
          let status := if ethMax < n then 2 else match data with | .ok _ => 0 | .error _ => 4
          let frame := match data with | .ok d => d | .error _ => []
          let (st, s1) : Option Word × State :=
            if status = 0 ∧ flags.testBit 1 then (let r := s.stamp ethNode; (some r.1, r.2)) else (none, s)
          let s2 := s1.ethBack x.txDesc l n status st
          let s3 := s2.modEth p (fun x =>
            { x with txNext := (x.txNext + 1) % 2 ^ x.txSize, sent := if status = 0 then x.sent ++ [frame] else x.sent })
          if flags.testBit 2 then s3.pulseXint (2 * p) else s3

/-- A frame's destination address, first octet first. -/
def frameDest (f : List Byte) : Nat := (f.take 6).foldl (fun v b => v * 256 + b.toNat) 0

/-- Whether a port accepts a frame (R392). -/
def EthPort.accepts (x : EthPort) (f : List Byte) : Bool := x.promisc || frameDest f = x.mac || frameDest f = 2 ^ 48 - 1

/-- ETH_FRAME_RECEIVE (R393, R394): a frame, without its FCS, goes to the next descriptor with OWN = 1, with a stamp; a
frame that finds none is dropped and counted. -/
def execEthFrameReceive (p : Nat) (frame : List Byte) (fcsOk : Bool) (s : State) : Out :=
  onUnit (p < 2) "service port" <|
    let x := s.ethPort p
    if !s.up ∨ !x.en ∨ x.link ≠ 2 ∨ !x.accepts frame then s
    else
      let s1 := if fcsOk then s else s.modEth p (fun x => { x with fcsErr := satAdd 16 x.fcsErr 1 })
      match (s1.ethDesc x.rxDesc).filter (fun l => (fld l 10 1).testBit 0) with
      | none => s1.modEth p (fun x => { x with rxDrop := satAdd 16 x.rxDrop 1 })
      | some l =>
        let a := fld l 0 8
        let size := fld l 8 2
        let n := frame.length
        let k := min n size
        let w := if inBulk a k then s1.writeAcc (nodeHalf ethNode) a (frame.take k) else (some 0, s1)
        let status := if w.1.isSome then 4 else if !fcsOk then 1 else if ethMax < n then 2 else if size < n then 3 else 0
        let (st, s2) := w.2.stamp ethNode
        let s3 := s2.ethBack x.rxDesc l n status (some st)
        (s3.modEth p (fun x => { x with rxNext := (x.rxNext + 1) % 2 ^ x.rxSize })).pulseXint (2 * p + 1)

/-- ETH_LINK_CHANGE (R389): the link state of a port changes. -/
def execEthLinkChange (p : Nat) (link : BitVec 2) (s : State) : Out :=
  onUnit (p < 2) "service port" <|
    let x := s.ethPort p
    if !s.up ∨ link = 3 ∨ (link ≠ 0 ∧ !x.en) ∨ x.link = link.toNat then s
    else (s.modEth p (fun x => { x with link := link.toNat })).pulseXint (4 + p)

/-! ## PCIe root port (R395, R396) -/

/-- The PCI address of an MSI (R396). -/
def msiAddr : Nat := 0xFFFFFFF000

/-- Whether the PCIe link carries requests. -/
def State.pcieUp (s : State) : Bool := s.up && s.pcie.en && s.pcie.link = 2

/-- An MSI pulses source 16 + vector (R396). -/
def State.msi (s : State) (v : Nat) : State := s.pulseXint (16 + v % 32)

/-- PCIE_INBOUND_WRITE (R396): an inbound write reaches HBM or the common store, or is an MSI; any other is an Unsupported
Request. Each completes as it is issued, so the order R396 asks for holds. -/
def execPcieInboundWrite (addr : Word) (data : List Byte) (_relaxed : Bool) (s : State) : Out :=
  .next <|
    if !s.pcieUp then s
    else if addr.toNat = msiAddr ∧ data.length = 4 then s.msi (fld data 0 1)
    else if inBulk addr.toNat data.length then (s.writeAcc (nodeHalf pcieNode) addr.toNat data).2 else s

/-- PCIE_INBOUND_READ (R396): the bytes, or none for an Unsupported Request or a read that fails. -/
def execPcieInboundRead (addr : Word) (len : Nat) (s : State) : Out :=
  .next <|
    if !s.pcieUp then s
    else
      let r := if inBulk addr.toNat len && len ≤ 4096 then (match s.readAcc (nodeHalf pcieNode) addr.toNat len with | .ok l => some l | .error _ => none) else none
      { s with pcie := { s.pcie with reply := r } }

/-- PCIE_MSI (R396). -/
def execPcieMsi (data : BitVec 32) (s : State) : Out := .next (if s.pcieUp then s.msi (data.toNat % 32) else s)

/-- PCIE_LINK_CHANGE (R389, Table 13): the link state changes, or an error is logged. -/
def execPcieLinkChange (link : BitVec 2) (speed width : Nat) (err : Bool) (s : State) : Out :=
  onUnit (speed ≤ 5 && width ≤ 8) "PCIe link" <|
    let x := s.pcie
    let ok := s.up && link != 3 && (link == 0 || x.en)
    if !ok ∨ (x.link = link.toNat ∧ x.speed = speed ∧ x.width = width ∧ !err) then s
    else
      ({ s with pcie := { x with link := link.toNat, speed, width, aer := if err then satAdd 16 x.aer 1 else x.aer } } : State).pulseXint 8

/-- PCIE_INTX_MESSAGE (R389). -/
def execPcieIntxMessage (s : State) : Out := .next (if s.pcieUp then s.pulseXint 9 else s)

end Sys2Proof.Machine
end

