-- ==== Sys2Proof/Machine/Observe.lean ====
section
/-! DEFINITION. Observation and debug: own-thread and node counters, the sampler, and halting, stepping and resuming a
context (chapter 16). -/

namespace Sys2Proof.Machine

/-! ## Counters (R425 to R428) -/

/-- Zeroes the own-thread counters that a write of `OTC_CLR` selects; another bit raises ILLEGAL (R102, R425). -/
def State.otcClr (s : State) (t : Tid) (w : Word) : State :=
  if 256 ≤ w.toNat then s.illegal t
  else (s.modCtx t (fun c => { c with otc := c.otc.filter (fun p => !bit w p.1) })).advance t 4

/-- OTC_CLR (R425). -/
def execOtcClr (t : Tid) (ra : Reg) (s : State) : Out := s.issue t 4 (fun s => s.otcClr t (s.reg t ra))

/-- The kinds of events a node offers (Table 3 of chapter 16). -/
def offers (node ev : Nat) : Bool :=
  (ev = 0x20 || ev = 0x21)
    || ((nodeTiller node).isSome && 1 ≤ ev && ev ≤ 0xF)
    || ((List.range 12).any (fun i => stackNode i = node) && 0x40 ≤ ev && ev ≤ 0x44)
    || ((List.range 16).any (fun i => portNodeNode (2 * i) = node) && 0x60 ≤ ev && ev ≤ 0x64)
    || ((List.range 4).any (fun i => culmNodeNode i = node) && (ev = 0x80 || ev = 0x81))

/-- The events whose counts depend on timing or on units whose traffic the model does not follow: their counts are free
values (log entry 1). -/
def openEvent (ev : Nat) : Bool := [1, 2, 5, 0xB, 0x20, 0x21, 0x40, 0x41, 0x42, 0x43, 0x44, 0x63].contains ev

/-- The value of a counter whose count the spec's words alone do not fix is drawn at the moment it is looked at. -/
def State.syncCnt (s : State) (node j : Nat) : State :=
  let w := sget 0 (s.node node).cntSel j
  if bit w 16 && openEvent (field w 0 8) then
    let (v, s1) := s.draw 64
    s1.modNode node (fun x => { x with cntVal := sput 0 x.cntVal j v })
  else s

/-- A write of `CNT_SEL[j]`: an event that the node does not offer reads back 0x00. -/
def State.writeCntSel (s : State) (node j : Nat) (w : Word) : State :=
  let ev := field w 0 8
  (s.syncCnt node j).modNode node (fun x =>
    { x with cntSel := sput 0 x.cntSel j (word ((if offers node ev then ev else 0) + field w 8 5 * 256 + field w 16 2 * 2 ^ 16)) })

/-- A write of `CNT_VAL[j]`. -/
def State.writeCntVal (s : State) (node j : Nat) (w : Word) : State :=
  s.modNode node (fun x => { x with cntVal := sput 0 x.cntVal j w })

/-- A write of `CNT_CMD`. -/
def State.writeCntCmd (s : State) (node : Nat) (w : Word) : State :=
  let s1 := s.modNode node (fun x => { x with ctxMask := if (nodeTiller node).isSome then field w 40 8 else 0 })
  if bit w 32 then s1.cntReset node else s1

/-- CNT_RESET (R428): a write of RESET; it leaves CTX_MASK as it is. -/
def execCntReset (node : Nat) (s : State) : Out := onUnit (node < 100) "node" (if s.reachable node then s.cntReset node else s)

/-! ## The sampler (R429 to R433) -/

/-- Bytes of a sample record of `n` entries (R432). -/
def sampleBytes (n : Nat) : Nat := (32 + 16 * n + 63) / 64 * 64

/-- The address of record `k` of a sampler's ring. -/
def Sampler.recordAt (x : Sampler) (k : Nat) : Nat := x.ringBase + k % 2 ^ x.ringLog * sampleBytes x.entries.length

/-- Whether a sampler pauses: the West half is PARKING, PARKED or UNPARKING, or the ring lies in a half that is
(R433). -/
def State.samplerPaused (s : State) (x : Sampler) : Bool :=
  s.blocked .west || (s.blocked .east &&
    (List.range (2 ^ x.ringLog * sampleBytes x.entries.length / 4096 + 1)).any (fun k =>
      match s.destNode (x.ringBase + k * 4096) with | some n => nodeHalf n = .east | none => false))

/-- EN becomes 1: the list is read and checked, and sample 0 is due at the first multiple of the period at least 10 µs
later (R429, R430). -/
def State.smpStart (s : State) (i : Nat) : State :=
  let x := s.sampler i
  let fail := fun (e : Nat) => s.modSampler i (fun x => { x with st := 3, err := e, head := 0, skipped := 0 })
  if x.period = 0 ∨ 1000000 < x.period then fail 0x21
  else match (if x.n = 0 ∨ 64 < x.n then none else (s.readAcc .west x.list (2 * x.n)).toOption) with
    | none => fail 0x20
    | some l =>
      let es := (List.range x.n).map (fun e => fld l (2 * e) 2)
      if es.any (fun e => decide (799 < e)) then fail 0x20
      else
        let p := x.period * 1000
        let t0 := (s.time.tb + 10000 + p - 1) / p * p
        s.modSampler i (fun x =>
          { x with st := 1, err := 0, head := 0, skipped := 0, entries := es, periodNow := p, t0 := t0, due := 0, gap := 0,
                   busy := none, stopping := false })

/-- A write of `SMP_CTL` (Table 4 of chapter 16): EN rising starts the sampler, EN falling stops it after any record
being written. -/
def State.writeSmpCtl (s : State) (i : Nat) (w : Word) : State :=
  let was := (s.sampler i).en
  let s1 := s.modSampler i (fun x => { x with en := bit w 0, n := field w 8 8, period := field w 16 20 })
  if bit w 0 ∧ !was then s1.smpStart i
  else if !bit w 0 ∧ was then
    s1.modSampler i (fun x => if x.busy.isSome then { x with stopping := true } else { x with st := 0 })
  else s1

/-- SMP_ENABLE (R429). -/
def execSmpEnable (i : Nat) (w : Word) (s : State) : Out :=
  onUnit (i < 4) "sampler" (if s.reachable 0 ∧ bit w 0 then s.writeSmpCtl i w else s)

/-- SMP_DISABLE (R429). -/
def execSmpDisable (i : Nat) (w : Word) (s : State) : Out :=
  onUnit (i < 4) "sampler" (if s.reachable 0 ∧ !bit w 0 then s.writeSmpCtl i w else s)

/-- Latches one list entry: its 16 bytes of the record (R430, R431, Table 5 of chapter 16). -/
def State.latchEntry (s : State) (e : Nat) : List Byte × State :=
  let node := e / 8
  let s1 := if s.reachable node then s.syncCnt node (e % 8) else s
  let x := s1.node node
  if s.reachable node then (leBytes 8 (sget 0 x.cntVal (e % 8)).toNat ++ leBytes 4 x.cntSeq ++ leBytes 2 0 ++ leBytes 2 e, s1)
  else
    let (q, s2) := s1.draw 32
    (leBytes 8 0 ++ leBytes 4 q.toNat ++ leBytes 2 2 ++ leBytes 2 e, s2)

/-- Latches every entry of a list, in list order. -/
def State.latchAll (s : State) : List Nat → List Byte × State
  | [] => ([], s)
  | e :: es =>
    let (l, s1) := s.latchEntry e
    let (r, s2) := s1.latchAll es
    (l ++ r, s2)

/-- SAMPLE_DUE (R430, R433): at T_n the counters latch, or the sample is skipped. -/
def execSampleDue (i : Nat) (s : State) : Out :=
  onUnit (i < 4) "sampler" <|
    let x := s.sampler i
    let tn := x.t0 + x.due * x.periodNow
    if !s.up ∨ !x.en ∨ x.st ≠ 1 ∨ s.time.tb < tn then s
    else if s.samplerPaused x ∨ x.busy.isSome then
      s.modSampler i (fun x => { x with due := x.due + 1, skipped := satAdd 32 x.skipped 1, gap := x.gap + 1 })
    else
      let (l, s1) := s.latchAll x.entries
      let head := leBytes 8 (tn % 2 ^ 63) ++ leBytes 4 x.due ++ leBytes 2 x.entries.length ++ leBytes 2 (if x.gap = 0 then 0 else 1)
        ++ leBytes 4 x.gap ++ List.replicate 12 0
      let rec' := head ++ l
      s1.modSampler i (fun x =>
        { x with due := x.due + 1, gap := 0, latchAt := s.time.tb,
                 busy := some (rec' ++ List.replicate (sampleBytes x.entries.length - rec'.length) 0) })

/-- SAMPLE_WRITTEN (R432, R433): entries, then header, then `SMP_HEAD`; an error response stops the sampler. -/
def execSampleWritten (i : Nat) (s : State) : Out :=
  onUnit (i < 4) "sampler" <|
    let x := s.sampler i
    match x.busy with
    | none => s
    | some d =>
      if !s.up then s
      else
        -- the record's number is its SAMPLE field
        let a := x.recordAt (fld d 8 4)
        let skip := fun (s : State) => s.modSampler i (fun x =>
          { x with busy := none, stopping := false, st := if x.stopping then 0 else x.st })
        let fail := fun (s : State) (e : Nat) => s.modSampler i (fun x => { x with busy := none, stopping := false, st := 3, err := 0x10 + e })
        match s.writeAcc .west (a + 32) (d.drop 32) with
        | (some e, s1) => fail s1 e
        | (none, s1) => match s1.writeAcc .west a (d.take 32) with
          | (some e, s2) => fail s2 e
          | (none, s2) => (skip s2).modSampler i (fun x => { x with head := (x.head + 1) % 2 ^ 32 })

/-! ## Halting and stepping (R441 to R446) -/

/-- The node whose control block holds a thread's debug registers (R441); a register write from level 1 or the test access
port reaches it. -/
def State.dbgReach (s : State) (t : Tid) : Bool := s.reachable (tidNode t)

/-- A halt request (R442). -/
def State.dbgHalt (s : State) (t : Tid) : State :=
  let c := s.ctx t
  let hold := fun (late : Bool) => s.modCtx t (fun c => { c with dbg := { c.dbg with pending := true, late := late } })
  match c.st, c.wait with
  | .free, _ | .halted, _ => s
  | .faulted, _ | .fenced, _ | .running, none => hold false
  | .ready, _ => s.haltNow t 1 0
  | .running, some _ => hold true
  | .waiting, some w => if w.open' then (s.dropLoads t).haltNow t (if c.dbg.stepping then 2 else 1) 0 else hold true
  | .waiting, none => hold true

/-- RESUME and STEP of a context that a debugger halted (R125, R443). -/
def State.dbgRestart (s : State) (t : Tid) (step : Bool) : State :=
  let c := s.ctx t
  if c.st = .halted ∧ c.dbg.byDebugger then s.restart t step else s

/-- A write of DBG_PC while HALTED: it also zeroes DBG_PROG (R441); bit 0 of a PC is always zero (R85). -/
def State.writeDbgPc (s : State) (t : Tid) (w : Word) : State :=
  let pc := word (w.toNat / 2 * 2)
  s.modCtx t (fun c =>
    if c.st = .halted ∧ c.dbg.byDebugger then { c with pc := pc, prog := 0, dbg := { c.dbg with pc := pc, prog := 0 } } else c)

/-- A write of DBG_PROG while HALTED (R441). -/
def State.writeDbgProg (s : State) (t : Tid) (w : Word) : State :=
  s.modCtx t (fun c =>
    if c.st = .halted ∧ c.dbg.byDebugger then { c with prog := w.toNat, dbg := { c.dbg with prog := w.toNat } } else c)

/-- A write of DBG_CTL (Table 9 of chapter 16). -/
def State.writeDbgCtl (s : State) (t : Tid) (w : Word) : State :=
  let s1 := s.modCtx t (fun c => { c with dbg := { c.dbg with brkHalt := bit w 3 } })
  let s2 := if bit w 0 then s1.dbgHalt t else s1
  if bit w 2 then s2.dbgRestart t true else if bit w 1 then s2.dbgRestart t false else s2

/-- DBG_HALT (R442). -/
def execDbgHalt (t : Tid) (s : State) : Out := onUnit (tidOk t) "thread" (if s.dbgReach t then s.dbgHalt t else s)
/-- DBG_RESUME (R443). -/
def execDbgResume (t : Tid) (s : State) : Out := onUnit (tidOk t) "thread" (if s.dbgReach t then s.dbgRestart t false else s)
/-- DBG_STEP (R443). -/
def execDbgStep (t : Tid) (s : State) : Out := onUnit (tidOk t) "thread" (if s.dbgReach t then s.dbgRestart t true else s)
/-- DBG_PC_WRITE (R441). -/
def execDbgPcWrite (t : Tid) (w : Word) (s : State) : Out := onUnit (tidOk t) "thread" (if s.dbgReach t then s.writeDbgPc t w else s)

end Sys2Proof.Machine
end

