-- ==== Sys2Proof/Machine/Power.lean ====
section
/-! DEFINITION. Power, pins, the governor, temperature and the management bus (chapter 17). -/

namespace Sys2Proof.Machine

/-! ## Pins (R449, R462, Table 9 of chapter 17) -/

/-- Whether the rails are in regulation: PWR_GOOD is high. -/
def State.pwrGood (s : State) : Bool := s.power.phase = .reset || s.power.phase = .running
/-- Whether the front end has switched the rails on. -/
def State.railsOn (s : State) : Bool := s.power.phase = .starting || s.pwrGood
/-- ALERT_L is low: a bit of the carrier's alert copy is set whose enable is set (R458). -/
def State.alertLow (s : State) : Bool := s.up && (s.power.carrierAlert &&& s.power.carrierEn) != 0
/-- THERMTRIP_L is low (R459). -/
def State.thermtripLow (s : State) : Bool := s.power.phase = .tripped && s.power.thermal
/-- PCIE_PERST_L is high. -/
def State.perstHigh (s : State) : Bool := s.up && s.pcie.en

/-! ## Turning on and off (R451 to R453, R459) -/

/-- POWER_EN_RISE (R451, R453): with VIN at or above 39.0 V the rails start, else the start waits for it. A rise is not
heeded before POWER_EN has been low for 100 ms after a turn-off, nor on an unmated module. `vin` is in units of 10 mV. -/
def execPowerEnRise (vin : Nat) (s : State) : Out :=
  .next <|
    let p := s.power
    if !p.present ∨ p.phase ≠ .off ∨ !p.restartOk ∨ (p.powerEn ∧ !p.waitVin) then s.modPower (fun p => { p with powerEn := p.powerEn || p.present })
    else if 3900 ≤ vin then s.modPower (fun p => { p with powerEn := true, waitVin := false, phase := .starting })
    else s.modPower (fun p => { p with powerEn := true, waitVin := true })

/-- Turns the module off as POWER_EN goes low (R453): everything but flash and fuses is lost. -/
def State.turnOff (s : State) (lowUs : Nat) : State :=
  let ok := (s.power.phase = .off && s.power.restartOk) || decide (100000 ≤ lowUs)
  (s.coldReset .off false).modPower (fun p => { p with powerEn := false, restartOk := ok })

/-- POWER_EN_FALL (R453): lows shorter than 50 µs are ignored. -/
def execPowerEnFall (lowUs : Nat) (s : State) : Out := .next (if lowUs < 50 then s else s.turnOff lowUs)

/-- PRESENT_L_CHANGE (R452): while the module is not mated the carrier holds POWER_EN low, and it raises it no sooner than
100 ms after mating. -/
def execPresentLChange (mated : Bool) (s : State) : Out :=
  .next ((if mated then s else s.turnOff 100000).modPower (fun p => { p with present := mated, restartOk := p.restartOk || !s.power.present }))

/-- An electrical or thermal trip (R459): every rail goes off while POWER_EN stays high. -/
def State.trip (s : State) (thermal : Bool) : State := if s.railsOn then s.coldReset .tripped thermal else s

/-- UNDERVOLTAGE_OFF (R451). -/
def execUndervoltageOff (s : State) : Out := .next (s.trip false)
/-- OVERVOLTAGE_OFF (R451). -/
def execOvervoltageOff (s : State) : Out := .next (s.trip false)
/-- OVERCURRENT_OFF (R451). -/
def execOvercurrentOff (s : State) : Out := .next (s.trip false)
/-- RAIL_OUT_OF_REGULATION (R453): PWR_GOOD falls and the module turns off as an electrical trip. -/
def execRailOutOfRegulation (s : State) : Out := .next (if s.pwrGood then s.trip false else s)
/-- THERMAL_TRIP (R459). -/
def execThermalTrip (s : State) : Out := .next (s.trip true)

/-- RAILS_IN_REGULATION (R453): PWR_GOOD rises, and the module waits for the end of reset; the time base counts from zero
(R45). -/
def execRailsInRegulation (s : State) : Out :=
  .next (if s.power.phase = .starting then (s.modPower (fun p => { p with phase := .reset })).modTime (fun t => { t with counting := true }) else s)

/-- MOD_RESET_L_LOW (R462, R486): a low of 10 µs or more is a module reset, whatever is in progress. -/
def execModResetLLow (lowUs : Nat) (s : State) : Out := .next (if s.pwrGood ∧ 10 ≤ lowUs then s.moduleReset else s)

/-- REFCLK_LOST (R461). -/
def execRefclkLost (s : State) : Out :=
  .next (if s.pwrGood ∧ !s.power.localClk then (s.modPower (fun p => { p with localClk := true })).setAlert 6 else s)

/-! ## The governor (R454 to R456) -/

/-- A cap as it counts: from 1,200 W to 2,900 W (Table 7 of chapter 17). -/
def clampCap (w : Nat) : Nat := max 1200 (min w 2900)

/-- Pcap in watts (R454); before the first measurement VIN does not bound it. -/
def State.pcap (s : State) : Nat :=
  let p := s.power
  let c := min 2900 (min (clampCap p.holridCap) (clampCap p.carrierCap))
  if p.vin = 0 then c else min c (75 * p.vin / 100)

/-- GOVERNOR_SAMPLE (R451, R455): VIN and input current, in units of 10 mV and 10 mA, and the power averaged over the last
100 samples. -/
def execGovernorSample (vin iin : Nat) (s : State) : Out :=
  .next <|
    if !s.up then s
    else
      let l := (vin * iin :: s.power.samples).take 100
      let s1 := s.modPower (fun p =>
        { p with vin := min vin 65535, iin := min iin 65535, samples := l, pavg := min 4095 (l.sum / l.length / 10000) })
      let s2 := if 3700 ≤ vin ∧ vin < 4000 then s1.setAlert 4 else s1
      if 5400 < vin ∧ vin ≤ 5700 then s2.setAlert 5 else s2

/-- The limits apply to both halves (R38, R455). -/
def State.applyLimits (s : State) : State := (s.applyClocks .west).applyClocks .east

/-- GOVERNOR_LOWER (R455, R457): the core limit falls by 100 MHz, at 1.2 GHz the mesh limit, down to 0.6 GHz. -/
def execGovernorLower (s : State) : Out :=
  .next <|
    if !s.up ∨ !(decide (s.pcap < s.power.pavg) || s.power.dieHot) then s
    else
      let s1 := s.modPower (fun p =>
        if 12 < p.coreLimit then { p with coreLimit := p.coreLimit - 1 }
        else if 6 < p.meshLimit then { p with meshLimit := p.meshLimit - 1 } else p)
      (s1.setAlert 0).applyLimits

/-- GOVERNOR_RAISE (R455): the mesh limit rises by 100 MHz, at its maximum the core limit. -/
def execGovernorRaise (s : State) : Out :=
  .next <|
    if !s.up ∨ s.power.dieHot ∨ s.pcap ≤ s.power.pavg + 150 then s
    else
      let s1 := s.modPower (fun p =>
        if p.meshLimit < 24 then { p with meshLimit := p.meshLimit + 1 }
        else if p.coreLimit < 27 then { p with coreLimit := p.coreLimit + 1 } else p)
      s1.applyLimits

/-- Whether the input current as last measured exceeds the smaller of 75 A and 1.1 · Pcap / VIN (R456). -/
def State.overCurrent (s : State) : Bool :=
  let p := s.power
  decide (7500 < p.iin) || decide (11000 * s.pcap < p.iin * p.vin)

/-- FAST_THROTTLE (R456): timing only; no result changes. -/
def execFastThrottle (s : State) : Out :=
  .next (if s.up ∧ s.overCurrent then (s.modPower (fun p => { p with fast := true })).setAlert 1 else s)

/-- FAST_THROTTLE_END (R456): the throttle ends unless its condition holds and renews it. -/
def execFastThrottleEnd (s : State) : Out := .next (if s.up ∧ !s.overCurrent then s.modPower (fun p => { p with fast := false }) else s)

/-- DIE_SENSOR_READ (R457): the hottest die sensor and the coolant inlet, in °C. -/
def execDieSensorRead (tdie tinlet : Nat) (s : State) : Out :=
  .next <|
    if !s.up then s
    else
      let s1 := s.modPower (fun p =>
        { p with tdie := min tdie 255, tinlet := min tinlet 255, dieHot := decide (100 < tdie) || (p.dieHot && decide (97 < tdie)) })
      let s2 := if 100 < tdie then s1.setAlert 2 else s1
      if 40 < tinlet then s2.setAlert 7 else s2

/-- `PWR_STAT` (Table 7 of chapter 17). -/
def State.pwrStat (s : State) : Word :=
  let p := s.power
  word (p.vin + p.iin * 2 ^ 16 + p.pavg * 2 ^ 32 + b2n (p.coreLimit < 27 || p.meshLimit < 24) * 2 ^ 44 + b2n p.fast * 2 ^ 45
    + b2n p.localClk * 2 ^ 46 + p.tdie * 2 ^ 48 + p.tinlet * 2 ^ 56)

/-! ## The management bus (R467, Table 11 of chapter 17) -/

/-- A register of the management bus by index. -/
def State.i3cReg (s : State) (i : Nat) : Word :=
  match i with
  | 0 => Config.lmIdent
  | 1 => word (s.boot.rackId + s.boot.slotId * 256)
  | 2 => word (s.rel.st + b2n s.power.bypassOpen * 4)
  | 3 => s.pwrStat
  | 4 => word s.power.carrierCap
  | 5 => word s.power.carrierAlert
  | 6 => word s.power.carrierEn
  | _ => 0

/-- I3C_READ (R467): at the module's address, the register read; the bus keeps what the module last answered. -/
def execI3cRead (addr : BitVec 7) (index : BitVec 8) (s : State) : Out :=
  .next (if s.pwrGood ∧ addr.toNat = s.power.i3cAddr then s.modPower (fun p => { p with i3cOut := s.i3cReg index.toNat }) else s)

/-- I3C_CARRIER_CAP_WRITE (R454, R467). -/
def execI3cCarrierCapWrite (w : Word) (s : State) : Out :=
  .next (if s.pwrGood then s.modPower (fun p => { p with carrierCap := field w 0 12 }) else s)

/-- I3C_ALERT_CLEAR (R458): the carrier clears its own copy. -/
def execI3cAlertClear (w : Word) (s : State) : Out :=
  .next (if s.pwrGood then s.modPower (fun p => { p with carrierAlert := ((word p.carrierAlert) &&& ~~~w).toNat }) else s)

/-- I3C_WITHDRAW (R467): CMD WITHDRAW acts as `REL_CMD` WITHDRAW; other values are ignored. -/
def execI3cWithdraw (w : Word) (s : State) : Out := .next (if s.up ∧ field w 0 2 = 1 then s.writeRelCmd 1 else s)

/-- I3C_DYNAMIC_ADDRESS (R467). -/
def execI3cDynamicAddress (addr : BitVec 7) (s : State) : Out :=
  .next (if s.pwrGood then s.modPower (fun p => { p with i3cAddr := addr.toNat }) else s)

end Sys2Proof.Machine
end

