-- ==== Sys2Proof/Machine/Boot.lean ====
section
/-! DEFINITION. Boot, fuses, measurement and attestation, the boot flash and the address chain (chapter 18). -/

namespace Sys2Proof.Machine

/-! ## Registers (Table 11 of chapter 18) -/

/-- `BOOT_STAT`. -/
def State.bootStat (s : State) : Word :=
  let b := s.boot
  word (b.stage + b.stop * 16 + b2n b.image * 256 + b2n b.standalone * 512 + b.debug * 1024 + b.aFail * 4096 + b.moduleId * 2 ^ 16
    + b.readyMs % 2 ^ 32 * 2 ^ 32)

/-- `FUSE_STAT`; requests are carried out at once, so BUSY reads 0. -/
def State.fuseStat (s : State) : Word :=
  let f := s.fuses
  word (f.rootSlot.getD 0 + f.rootRevoke % 8 * 4 + f.custProg % 16 * 2 ^ 8 + f.custRevoke % 16 * 2 ^ 12 + f.svn % 128 * 2 ^ 16
    + (2 - f.debug) * 2 ^ 24 + s.boot.lastResult * 2 ^ 32)

/-! ## Boot flash (R469, R479) -/

/-- Bytes of a boot flash device. -/
def flashSize : Nat := 0x8000000

/-- A boot flash device: image A on device 0, image B on device 1. -/
def State.flash (s : State) (dev : Bool) : Sparse Byte := if dev then s.flashB else s.flashA

/-- Reads `n` bytes of a boot flash device. -/
def State.flashRead (s : State) (dev : Bool) (o n : Nat) : List Byte := (List.range n).map (fun i => sget 0 (s.flash dev) (o + i))

/-- Writes a 4 KiB block of a boot flash device. -/
def State.flashPut (s : State) (dev : Bool) (o : Nat) (d : Nat → Byte) : State :=
  let put := fun (m : Sparse Byte) => (List.range 4096).foldl (fun m i => sput 0 m (o / 4096 * 4096 + i) (d i)) m
  if dev then { s with flashB := put s.flashB } else { s with flashA := put s.flashA }

/-- The command word of the flash window (R479): an erased block reads 0xFF; a programmed block holds the buffer. -/
def State.flashCommand (s : State) (c : FlashCmd) : State :=
  match c with
  | .erase dev o => if o < flashSize then s.flashPut dev o (fun _ => 0xFF) else s
  | .program dev o => if o < flashSize then s.flashPut dev o (fun i => sget 0 s.boot.flashBuf i) else s

/-- FLASH_WINDOW_COMMAND (R479). -/
def execFlashWindowCommand (c : FlashCmd) (s : State) : Out := .next (if s.up then s.flashCommand c else s)

/-! ## Boot images (R469, R475) -/

/-- The entry of a component in a header, if it is listed: its offset, length and hash. -/
def component (h : List Byte) (type : Nat) : Option (Nat × Nat × List Byte) :=
  ((List.range 3).find? (fun i => fld h (32 + 48 * i) 2 = type)).map (fun i =>
    (fld h (36 + 48 * i) 4, fld h (40 + 48 * i) 4, (h.drop (48 + 48 * i)).take 32))

/-- The bytes of a component, if they match its hash. -/
def State.componentRead (s : State) (dev : Bool) (h : List Byte) (type : Nat) : Option (List Byte) :=
  match component h type with
  | some (o, n, d) =>
    if o + n ≤ 0x7F00000 then
      let l := s.flashRead dev o n
      if sha256 l = d then some l else none
    else none
  | none => none

/-- The header of a device's image: all of Table 2. -/
def State.bootHeader (s : State) (dev : Bool) : List Byte := s.flashRead dev 0 2824

/-- What the mask ROM finds wrong with an image: its A_FAIL code (R475, Table 11 of chapter 18). -/
def State.imageFault (s : State) (dev : Bool) : Option Nat :=
  let h := s.bootHeader dev
  let rz := zeroAt h 25 7 && zeroAt h 176 1872 && zeroAt h 2436 4
    && (List.range 3).all (fun i => zeroAt h (34 + 48 * i) 2 && zeroAt h (44 + 48 * i) 4)
  if fld h 0 4 ≠ 0x4C4D3142 ∨ fld h 4 2 ≠ 0x100 ∨ fld h 6 1 ≠ 1 ∨ 2 < fld h 7 1 ∨ 1 < fld h 12 4 ∨ fld h 24 1 ≠ 3 ∨ !rz
      ∨ [1, 2, 3].any (fun t => (component h t).isNone) then some 2
  else if s.fuses.rootSlot.bind (fun i => s.fuses.root[i]?) ≠ some (sha256 ((h.drop 2048).take 388)) then some 3
  else if !rsaPssOk ((h.drop 2048).take 384) ((h.drop 2432).take 4) (h.take 2440) (h.drop 2440) then some 4
  else if fld h 8 4 < s.fuses.svn then some 5
  else if (s.componentRead dev h 1).isNone then some 6
  else none

/-! ## Stopping, restarting, READY (R475, R476, R478) -/

/-- Boot stops with a code (R478): one MODULE entry, whose CAUSE the spec does not give. With NO_IMAGE no header binds the
policy, and the fuses alone decide it. -/
def State.bootStop (s : State) (code : Nat) : State :=
  let s1 := s.modBoot (fun b => { b with stage := 8, stop := code, debug := if code = 1 then 2 - s.fuses.debug else b.debug })
  let (c, s2) := s1.draw 8
  s2.log (report 0xB c.toNat 9 false 0 0 s2.bootStat.toNat)

/-- Boot starts again from mask ROM on image B (R475): the stages already passed run again. -/
def State.bootOnB (s : State) (code : Nat) : State :=
  let b := s.boot
  { s.moduleReset with
    power := s.power
    boot := { image := true, aFail := code, standalone := b.standalone, moduleId := b.moduleId, rackId := b.rackId, slotId := b.slotId,
              resetEndAt := b.resetEndAt, chain := b.chain } }

/-- The image in use fails (R475, R478). -/
def State.imageFails (s : State) (code : Nat) : State :=
  if s.boot.image then s.bootStop (if code = 7 then 4 else 1) else s.bootOnB code

/-- Stage READY: READY_MS is taken, and COMMIT_SVN takes effect (R474, R476). -/
def State.bootReady (s : State) : State :=
  let h := s.bootHeader s.boot.image
  let s1 := s.modBoot (fun b => { b with stage := 7, readyMs := (s.time.tb - b.resetEndAt) / 1000000 })
  if fld h 12 4 = 1 then { s1 with fuses := { s1.fuses with svn := max s1.fuses.svn (min 64 (fld h 8 4)) } } else s1

/-- Whether the module expects beacons (R50). -/
def State.expectsBeacons (s : State) : Bool := !s.time.master && s.time.parent != 0xFF && !s.boot.standalone

/-- Stage FABRIC ends once `TB` is locked, or at once where no beacon is expected (Table 6 of chapter 18). -/
def State.fabricGo (s : State) : State :=
  if s.boot.stage = 6 ∧ (s.time.locked ∨ !s.expectsBeacons) then s.bootReady else s

/-! ## The stages (R474 to R478) -/

/-- The module ID that the straps give (R482). -/
def strapId (rack slot : Nat) : Nat := rack * 64 + slot

/-- RESET_END (R474, R482): the straps are sampled and the Keeper starts from mask ROM. -/
def execResetEnd (rackId : BitVec 8) (slotId : BitVec 6) (s : State) : Out :=
  .next <|
    if s.power.phase ≠ .reset then s
    else
      let id := strapId rackId.toNat slotId.toNat
      let alone := id = 0x3FFF
      let s1 := (s.modPower (fun p => { p with phase := .running })).modBoot (fun _ =>
        { standalone := alone, moduleId := id, rackId := rackId.toNat, slotId := slotId.toNat, resetEndAt := s.time.tb,
          chain := if alone then 6 else 0 })
      forAll (List.range 2) s1 (fun s p => s.modEth p (fun e => { e with mac := (s.fuses.macBase + p) % 2 ^ 48 }))

/-- BOOT_IMAGE_VERIFY (R475, R479, R480): the image is checked, the measurement registers start anew, and the Keeper
firmware starts. -/
def execBootImageVerify (s : State) : Out :=
  .next <|
    if !s.up ∨ s.boot.stage ≠ 0 then s
    else match s.imageFault s.boot.image with
      | some c => s.imageFails c
      | none =>
        let h := s.bootHeader s.boot.image
        let d := match component h 1 with | some (_, _, d) => d | none => []
        let s1 := s.modBoot (fun b => { b with stage := 1, meas := [], debug := min (2 - s.fuses.debug) (fld h 7 1) })
        (s1.measExtend 0 (sha256 h)).measExtend 1 d

/-- The boot image's base image is checked against its hash, staged in HBM and given to the loader (R475); the A_FAIL code
of a failure, with the loader's own. -/
def State.bootThatch (s : State) : Except (Nat × Refuse) State :=
  match s.componentRead s.boot.image (s.bootHeader s.boot.image) 3 with
  | none => .error (6, ⟨0, 0, 0⟩)
  | some img =>
    match s.draw 44 with
    | (a, s1) =>
      -- the staging address is the Keeper's own choice
      let at' := a.toNat % (0xC000000000 - 2 ^ 26) / 4096 * 4096
      let s2 := (s1.writeAcc .west at' img).2
      match (s2.modLoader (fun l => { l with busy := true })).imageGo (fld img 12 2) false at' with
      | .ok s3 => .ok s3
      | .error e => .error (7, e)

/-- The stacks after training, and the stores zeroed (R215, R328, R331). -/
def State.memoryReady (s : State) : State :=
  let s1 := forAll (List.range 12) s (fun s i => s.modStack i (fun x =>
    { x with st := 2, rows := min x.remap.length 4095, spareMin := min x.sparesLeft 255 }))
  { s1 with mem := [], badWords := [], ceWords := [] }

/-- The spare mapping after the retirement table (R405): a spare serves its tiller's retired core; a retired spare is
lost. -/
def State.mapSpares (s : State) : State :=
  forAll (List.range 64) s (fun s T => s.modTiller T (fun x =>
    { x with spareServes := (List.range 16).find? (fun c => s.rel.retired.contains (T * 17 + c)),
             spareLost := s.rel.retired.contains (T * 17 + 16) }))

/-- BOOT_MEMORY_DONE (R474, R478): stage MEMORY ends. Stage THATCH begins: a base image that the loader takes moves its
regions to LOADING. -/
def execBootMemoryDone (r : MemoryResult) (s : State) : Out :=
  .next <|
    if !s.up ∨ s.boot.stage ≠ 1 then s
    else match r with
      | .stackFailed k => (s.memoryReady.modStack k (fun x => { x with st := 4 })).bootStop 2
      | .selfTestFailed => s.bootStop 3
      | .ok =>
        let (d, s1) := s.memoryReady.mapSpares.draw 256
        let s2 := (s1.measExtend 5 (beBytes 32 d.toNat)).modBoot (fun b => { b with stage := 3 })
        match s2.bootThatch with
        | .ok s3 => s3
        | .error _ => s2

/-- What the load under way has left is written and passes CHECKING. -/
def State.finishLoad (s : State) : State :=
  let s1 := forAll s.loader.toWrite s State.regionWritten
  forAll s1.loader.toCheck s1 (fun s r => s.regionChecked r true)

/-- BOOT_THATCH_DONE (R475, R498): the base image is loaded, the regions not yet written or checked included, and its
INTERLEAVE applied; or the image fails. -/
def execBootThatchDone (s : State) : Out :=
  .next <|
    if !s.up ∨ s.boot.stage ≠ 3 ∨ s.loader.baseLoaded then s
    else if s.loader.busy then s.finishLoad
    else match s.bootThatch with
      | .ok s1 => s1.finishLoad
      | .error (c, e) => (s.loadStatus e).imageFails c

/-- The primary and replica nodes (R422, R477). -/
def State.culmPrimary (s : State) : Nat × Nat := match s.loader.rel with | some r => (r.primary, r.replica) | none => (0, 1)

/-- The Keeper starts a Culm node at the boot entry, and its sweep to Mode E (R385, R477). -/
def State.bootNode (s : State) (i : Nat) : State := (s.nodeStart i).modCulmNode i (fun x => { x with mode := 2 })

/-- BOOT_HOLRID_COPY_DONE (R475, R477, R480): the HOLRID component lies in HBM under the base image's mapping, and the Culm
nodes start. -/
def execBootHolridCopyDone (s : State) : Out :=
  .next <|
    if !s.up ∨ s.boot.stage ≠ 3 ∨ !s.loader.baseLoaded ∨ s.loader.busy then s
    else
      let h := s.bootHeader s.boot.image
      match s.componentRead s.boot.image h 2 with
      | none => s.imageFails 8
      | some l =>
        let s1 := (s.writeAcc .west 0x100000 l).2
        let fuse := leBytes 8 s.fuseStat.toNat ++ leBytes 8 s.fuses.serial.toNat ++ leBytes 1 s.boot.debug ++ List.replicate 15 0
        let s2 := (s1.measExtend 2 (sha256 fuse)).measExtend 3 (sha256 l)
        let (p, q) := s2.culmPrimary
        ((s2.modBoot (fun b => { b with stage := 4 })).bootNode p).bootNode q

/-- A write of `BOOT_CMD` (R474, R482): HOLRID_READY ends stage HOLRID. A standalone module skips CHAIN and FABRIC. -/
def State.writeBootCmd (s : State) (w : Word) : State :=
  if !bit w 0 ∨ s.boot.stage ≠ 4 then s
  else if s.boot.standalone then s.bootReady
  else s.modBoot (fun b => { b with stage := 5, chain := 1 })

/-- HOLRID_READY (R474). -/
def execHolridReady (s : State) : Out := .next (if s.up then s.writeBootCmd 1 else s)

/-- HOLRID_READY_TIMEOUT (R477): the other node is tried once; then boot stops. -/
def execHolridReadyTimeout (s : State) : Out :=
  .next <|
    if !s.up ∨ s.boot.stage ≠ 4 then s
    else if s.boot.holridTried = 0 then
      let (p, q) := s.culmPrimary
      ((s.modBoot (fun b => { b with holridTried := 1 })).nodeStop p).bootNode q
    else s.bootStop 5

/-- KEEPER_WATCHDOG_EXPIRE (R486): a module reset. -/
def execKeeperWatchdogExpire (s : State) : Out := .next (if s.up then s.moduleReset else s)

/-! ## The address chain (R464, R465, R483, R484) -/

/-- BYPASS_OPEN (R464): the module is inserted, and its roll call begins. -/
def execBypassOpen (s : State) : Out :=
  .next <|
    if !s.up ∨ s.boot.stage ≠ 5 ∨ s.boot.chain ≠ 1 then s
    else (s.modPower (fun p => { p with bypassOpen := true })).modBoot (fun b =>
      { b with chain := 2, claims := 0, claimSeen := false, objected := false, rollStart := s.time.tb })

/-- BYPASS_CLOSE_PLANNED (R465): after a module reset, or as a withdrawal closes. -/
def execBypassClosePlanned (s : State) : Out :=
  .next <|
    if s.pwrGood ∧ (s.boot.chain = 0 ∨ s.boot.chain = 6 ∨ s.rel.wdr = .closing ∨ s.rel.st = 2) then s.modPower (fun p => { p with bypassOpen := false }) else s

/-- One bit of the CRC-32 of IEEE 802.3, in its reflected form. -/
def crcBit (c : Nat) : Nat := if c % 2 = 1 then c / 2 ^^^ 0xEDB88320 else c / 2

/-- The CRC-32 of a list of bytes. -/
def crc32 (l : List Byte) : Nat :=
  (l.foldl (fun c b => (List.range 8).foldl (fun c _ => crcBit c) (c ^^^ b.toNat)) 0xFFFFFFFF) ^^^ 0xFFFFFFFF

/-- A chain frame (Table 9 of chapter 18). -/
def chainFrame (kind try' id serial target : Nat) : List Byte :=
  let l := leBytes 1 kind ++ leBytes 1 try' ++ leBytes 2 id ++ leBytes 8 serial ++ leBytes 8 target
  l ++ leBytes 4 (crc32 l)

/-- Sends a frame on CHAIN_OUT. -/
def State.chainSend (s : State) (f : List Byte) : State := s.modBoot (fun b => { b with chainOut := b.chainOut ++ [f] })

/-- Whether the module is inserted. -/
def State.inserted (s : State) : Bool := s.up && s.power.bypassOpen

/-- CLAIM_SEND (R484): the next of three claims. -/
def execClaimSend (s : State) : Out :=
  .next <|
    if !s.inserted ∨ s.boot.stage ≠ 5 ∨ s.boot.chain ≠ 2 ∨ 3 ≤ s.boot.claims then s
    else
      let n := s.boot.claims + 1
      (s.chainSend (chainFrame 1 n s.boot.moduleId s.fuses.serial.toNat 0)).modBoot (fun b => { b with claims := n })

/-- CHAIN_FRAME_RECEIVE (R483): a frame with a bad CRC is dropped and counted, the module's own is removed, any other
repeated. What a frame asks of the module comes by CLAIM_RECEIVE and OBJECT_RECEIVE. -/
def execChainFrameReceive (bytes : List Byte) (s : State) : Out :=
  .next <|
    if !s.inserted then s
    else if bytes.length ≠ 24 ∨ fld bytes 20 4 ≠ crc32 (bytes.take 20) then
      s.modBoot (fun b => { b with chainBad := satAdd 16 b.chainBad 1 })
    else if fld bytes 4 8 = s.fuses.serial.toNat then
      (if fld bytes 0 1 = 1 then s.modBoot (fun b => { b with claimSeen := true }) else s)
    else s.chainSend bytes

/-- A module becomes DUPLICATE (R484). -/
def State.duplicate (s : State) : State := s.modBoot (fun b => { b with chain := 4, stop := 6 })

/-- CLAIM_RECEIVE (R484): the earlier holder of the ID objects; a claimant with the higher serial becomes DUPLICATE. -/
def execClaimReceive (id : BitVec 14) (serial : Word) (s : State) : Out :=
  .next <|
    let own := s.fuses.serial
    if !s.inserted ∨ id.toNat ≠ s.boot.moduleId ∨ serial = own then s
    else if s.boot.chain = 3 ∨ (s.boot.chain = 2 ∧ own.toNat < serial.toNat) then
      s.chainSend (chainFrame 2 0 s.boot.moduleId own.toNat serial.toNat)
    else if s.boot.chain = 2 then s.duplicate
    else s

/-- OBJECT_RECEIVE (R484). -/
def execObjectReceive (target : Word) (s : State) : Out :=
  .next (if s.inserted ∧ s.boot.chain = 2 ∧ target = s.fuses.serial then s.duplicate else s)

/-- CLAIM_WINDOW_END (R484, R485): 1 ms after the third claim a claimant whose claim came back is JOINED; stage FABRIC
applies the base image's port enables. -/
def execClaimWindowEnd (s : State) : Out :=
  .next <|
    let b := s.boot
    if !s.inserted ∨ b.stage ≠ 5 ∨ b.chain ≠ 2 ∨ b.claims ≠ 3 ∨ !b.claimSeen then s
    else ((s.modBoot (fun b => { b with chain := 3, stage := 6 })).applyPorts).fabricGo

/-- ROLL_CALL_RETRY (R484): a claimant that saw no claim return claims again, and is FAILED after 60 s. -/
def execRollCallRetry (s : State) : Out :=
  .next <|
    let b := s.boot
    if !s.inserted ∨ b.chain ≠ 2 ∨ b.claims ≠ 3 ∨ b.claimSeen then s
    else if b.rollStart + 60000000000 ≤ s.time.tb then s.modBoot (fun b => { b with chain := 5, stop := 7 })
    else s.modBoot (fun b => { b with claims := 0 })

/-! ## Fuses (R471 to R473) -/

/-- Whether a customer slot is programmed and not revoked. -/
def Fuses.custLive (f : Fuses) (k : Nat) : Bool := f.custProg.testBit (k - 1) && !f.custRevoke.testBit (k - 1)

/-- The fuses after a signed request, or the LAST_RESULT code that refuses it (Tables 4 and 5 of chapter 18). -/
def Fuses.request (f : Fuses) (l : List Byte) : Except Nat Fuses :=
  let op := fld l 4 1
  let slot := fld l 5 1
  let k := fld l 6 1
  let root := f.rootSlot.getD 0
  let slotOk := if op = 3 then slot = 1 ∨ slot = 2 else op = 4 ∨ (1 ≤ slot ∧ slot ≤ 4)
  let keyOk := k ≤ 4 ∨ k = 0x11 ∨ k = 0x12
  if fld l 0 4 ≠ 0x46555345 ∨ op = 0 ∨ 4 < op ∨ ¬slotOk ∨ (op ≠ 4 ∧ ¬keyOk) ∨ !zeroAt l 7 1 ∨ !zeroAt l 48 16
      ∨ (op ≠ 1 ∧ !zeroAt l 16 32) ∨ (op ≠ 4 ∧ !zeroAt l 452 4) then .error 1
  else if fld l 8 8 = 0 ∨ fld l 8 8 ≠ f.serial.toNat then .error 2
  else if op = 4 then .ok { f with debug := min 2 (f.debug + 1) }
  else
    let signer : Bool := match op with
      | 1 => k = 0 || (decide (k ≤ 4) && f.custLive k && k != slot)
      | 2 => k = 0 || (decide (k ≤ 4) && f.custLive k)
      | _ => k = 0x10 + slot
    let hash := if k ≤ 4 then f.keyHash k else f.root[k - 0x10]?
    let state := match op with
      | 1 => !f.custProg.testBit (slot - 1)
      | 2 => f.custProg.testBit (slot - 1)
      | _ => decide (root < slot)
    if !signer ∨ hash ≠ some (sha256 ((l.drop 64).take 388)) then .error 3
    else if !rsaPssOk ((l.drop 64).take 384) ((l.drop 448).take 4) (l.take 456) ((l.drop 456).take 384) then .error 4
    else if !state then .error 5
    else .ok (match op with
      | 1 => { f with custProg := f.custProg ||| 2 ^ (slot - 1), cust := sput [] f.cust slot ((l.drop 16).take 32) }
      | 2 => { f with custRevoke := f.custRevoke ||| 2 ^ (slot - 1) }
      | _ => { f with rootRevoke := f.rootRevoke ||| (2 ^ slot - 1) })

/-- A write of `FUSE_REQ` (R473): the Keeper reads the request, checks it and burns fuses. -/
def State.writeFuseReq (s : State) (w : Word) : State :=
  let a := field w 6 38 * 64
  let s1 := s.modBoot (fun b => { b with fuseReq := a })
  let done := fun (s : State) (e : Nat) => s.modBoot (fun b => { b with lastResult := e })
  match (if s.blocked .west then none else s.keeperRead a 840) with
  | none => done s1 7
  | some l => match s.fuses.request l with
    | .error e => done s1 e
    | .ok f => done { s1 with fuses := f } 0

/-- FUSE_REQUEST (R473). -/
def execFuseRequest (w : Word) (s : State) : Out := .next (if s.up then s.writeFuseReq w else s)

/-! ## Measurement and attestation (R480, R481) -/

/-- EMSA-PSS encoding (RFC 8017, 9.1.1) of a message with a 32-byte salt. -/
def pssEncode (msg salt : List Byte) (emBits : Nat) : List Byte :=
  let n := (emBits + 7) / 8
  let h := sha256 (List.replicate 8 0 ++ sha256 msg ++ salt)
  let db := List.replicate (n - 66) 0 ++ [0x01] ++ salt
  let masked := db.zipWith (· ^^^ ·) (mgf1 h ((n + 31) / 32) 0)
  let top := match masked with | b :: l => (bv 8 (b.toNat % 2 ^ (8 - (8 * n - emBits)))) :: l | [] => []
  top ++ h ++ [0xbc]

/-- The signature of a report with the identity key (R472, R481); the salt is the signing engine's own choice. -/
def State.idSign (s : State) (msg : List Byte) : List Byte × State :=
  let (salt, s1) := s.draw 256
  let n := s.fuses.idN
  let em := pssEncode msg (beBytes 32 salt.toNat) (Nat.log2 n)
  (beBytes 384 (powMod n 3072 (beNat em) s.fuses.idD), s1)

/-- Bytes 0 to 607 of an attestation report (Table 8 of chapter 18). -/
def State.attReport (s : State) (mask : Nat) (stamp : Word) (nonce : List Byte) : List Byte :=
  leBytes 4 0x41545354 ++ leBytes 2 1 ++ leBytes 2 mask ++ leBytes 8 Config.lmIdent.toNat ++ leBytes 8 s.fuses.serial.toNat
    ++ leBytes 2 s.boot.moduleId ++ leBytes 1 s.boot.debug ++ leBytes 1 0 ++ leBytes 4 s.fuses.svn ++ leBytes 8 stamp.toNat
    ++ List.replicate 24 0 ++ nonce
    ++ (List.range 16).flatMap (fun i => if mask.testBit i then sget (List.replicate 32 0) s.boot.meas i else List.replicate 32 0)

/-- A write of `ATT_CMD` (R481, Table 11 of chapter 18). -/
def State.writeAttCmd (s : State) (w : Word) : State :=
  let a := field w 6 38 * 64
  let mask := field w 44 16
  let done := fun (s : State) (e : Nat) => s.modBoot (fun b => { b with attAddr := a, attMask := mask, attStatus := e })
  if s.blocked .west then done s 2
  else if !inHbmOrCs a 1024 then done s 1
  else match s.readAcc .west (a + 64) 32 with
    | .error _ => done s 2
    | .ok nonce =>
      let (st, s1) := s.stamp 0
      let body := s1.attReport mask st nonce
      let (sig, s2) := s1.idSign body
      let r := s2.writeAcc .west a (body ++ sig)
      done r.2 (if r.1.isSome then 2 else 0)

/-- ATTESTATION_REQUEST (R481). -/
def execAttestationRequest (w : Word) (s : State) : Out := .next (if s.up then s.writeAttCmd w else s)

/-- A write of `MEAS_EXT` (R480, Table 11 of chapter 18): registers 8 to 15 are extended with a 32-byte digest. -/
def State.writeMeasExt (s : State) (w : Word) : State :=
  let i := field w 0 4
  let a := field w 6 38 * 64
  let done := fun (s : State) (e : Bool) => s.modBoot (fun b => { b with measIndex := i, measAddr := a, measErr := e })
  if i < 8 ∨ s.blocked .west then done s true
  else match s.keeperRead a 32 with
    | none => done s true
    | some d => done (s.measExtend i d) false

/-- MEAS_EXTEND (R480). -/
def execMeasExtend (w : Word) (s : State) : Out := .next (if s.up then s.writeMeasExt w else s)

end Sys2Proof.Machine
end

