-- ==== Sys2Proof/Machine/Beacons.lean ====
section
/-! DEFINITION. The time base across the fabric: beacons, alignment, slew, hold and holdover (R45 to R50, R366). -/

namespace Sys2Proof.Machine

/-- The port that beacons go by: TIME_PARENT while it is UP or no other serves, else TIME_ALT (R366). -/
def State.beaconPort (s : State) : Nat := if s.time.onAlt ∧ !s.portUp s.time.parent then s.time.alt else s.time.parent

/-- Sends a beacon packet on a link; beacons are never routed (R366). -/
def State.sendBeacon (s : State) (p t1 t2 t3 : Nat) (rsp : Bool) : State :=
  s.leaveBy p { dest := (s.port p).peerId, cls := .control, hops := 0, body := .beacon t1 t2 t3 rsp } true

/-- BEACON_TIMER (R366): a period of BEACON_PER ends; the child sends BEACON_REQ with its `TB`. -/
def execBeaconTimer (s : State) : Out :=
  .next <|
    if !s.up ∨ !s.expectsBeacons then s
    else
      let p := s.beaconPort
      let s1 := s.modTime (fun t => { t with missed := t.missed + 1, onAlt := t.onAlt && p = t.alt, t1 := none })
      if s1.portUp p then (s1.modTime (fun t => { t with t1 := some t.tb })).sendBeacon p s1.time.tb 0 0 false else s1

/-- BEACON_REQ_RECEIVE (R366): the parent stamps t2 and t3 and replies on the same link. -/
def execBeaconReqReceive (port : Nat) (t1 : Word) (s : State) : Out :=
  onUnit (port < 32) "port" (if s.up ∧ s.portUp port then s.sendBeacon port t1.toNat s.time.tb s.time.tb true else s)

/-- Durations that the model measures by `TB` are not changed by a step of `TB` (R474, R484, R388). -/
def State.shiftTimes (s : State) (d : Nat) : State :=
  { s with boot := { s.boot with resetEndAt := s.boot.resetEndAt + d, rollStart := s.boot.rollStart + d },
           culmNodes := s.culmNodes.foldl (fun m p => sput {} m p.1 { p.2 with wdogAt := p.2.wdogAt + d }) [] }

/-- Aligns `TB` to the parent (R49): a step forward, or a hold. -/
def State.align (s : State) (off : Int) : State :=
  let d := off.toNat
  let s1 := if 0 ≤ off then s.shiftTimes d else s
  s1.modTime (fun t =>
    { t with tb := (t.tb + d) % 2 ^ 63, holding := decide (off < 0), counting := decide (0 ≤ off), aligned := true, realign := false,
             stepped := true, resync := [(0, 1), (1, 1), (2, 1)] })

/-- The R50 figure toward the parent: 10 ns within a rack, else 40 ns. -/
def State.lockFigure (s : State) (p : Nat) : Nat := if (s.port p).peerId / 64 = s.boot.rackId then 10 else 40

/-- The slew after a beacon: at most 200 ppm, in units of 0.01 ppm; how the offset drives it is open (R49, R366; log
entry 2). -/
def State.drawSlew (s : State) (off : Int) : Int × State :=
  let (b, s1) := s.draw 16
  (if b.toInt.natAbs ≤ 20000 then b.toInt else max (-20000) (min 20000 off), s1)

/-- BEACON_RSP_RECEIVE (R49, R366): the answer to the request last sent gives the offset; the first after a reset aligns
`TB`, the first after HOLDOVER does so beyond 10 µs, any other slews it. -/
def execBeaconRspReceive (t1 t2 t3 : Word) (s : State) : Out :=
  .next <|
    if !s.up ∨ !s.expectsBeacons ∨ s.time.t1 ≠ some t1.toNat then s
    else
      let off : Int := (((t2.toNat : Int) - t1.toNat) - ((s.time.tb : Int) - t3.toNat)) / 2
      let s1 := s.modTime (fun t => { t with t1 := none, missed := 0, offset := off, holdover := false })
      if !s1.time.aligned ∨ (s1.time.realign ∧ 10000 < off.natAbs) then (s1.align off).modTime (fun t => { t with locked := false, slew := 0 })
      else
        let (v, s2) := s1.drawSlew off
        (s2.modTime (fun t => { t with slew := v, realign := false, locked := decide (off.natAbs ≤ s.lockFigure s.beaconPort) })).fabricGo

/-- TB_HOLD_END (R49): the parent's time has reached the value held. -/
def execTbHoldEnd (s : State) : Out :=
  .next (if s.up ∧ s.time.holding then s.modTime (fun t => { t with holding := false, counting := true }) else s)

/-- TB_HOLDOVER (R50, R366): after four periods without a beacon, TIME_ALT serves in place of a TIME_PARENT that is not UP;
without it the module runs free. -/
def execTbHoldover (s : State) : Out :=
  .next <|
    let t := s.time
    if !s.up ∨ !s.expectsBeacons ∨ t.missed < 4 then s
    else if !s.portUp t.parent ∧ t.alt < 32 ∧ !t.onAlt then s.modTime (fun t => { t with onAlt := true, missed := 0 })
    else s.modTime (fun t => { t with holdover := true, realign := true, locked := false, slew := 0, t1 := none })

end Sys2Proof.Machine
end

