-- ==== Sys2Proof/Machine/Tile.lean ====
section
/-! DEFINITION. The tile engine: MMAs from issue to completion, gangs, the row port and TSYNC (R165 to R181, R194 to
R199). -/

namespace Sys2Proof.Machine

/-- TILE_SHAPE for a register with a reason (R169). -/
def State.tileFault (s : State) (t : Tid) (reg why : Nat) : State := s.fault t 0xE (reg * 16 + why) 0

/-! ## Waits on the engine -/

/-- MMAs the engine has accepted and not completed. -/
def Core.accepted (c : Core) : List AccMma := c.mmaQueue ++ c.mmaArray.toList
/-- Whether the engine accepts another MMA (R171). -/
def Core.mmaOpen (c : Core) : Bool := c.accepted.length < 4

/-- Whether an access to tile `n` waits (R172): an accepted MMA writes it, reads it where the access writes, or an MMA of
a killed thread still keeps it from becoming EMPTY (R173). -/
def Core.tileBusy (c : Core) (n : Nat) (write : Bool) : Bool :=
  c.accepted.any (fun m => m.op.td.toNat = n || m.empties.contains n || (write && (mmaAs m.op ++ mmaBs m.op).contains n))

/-- A wait on the engine: a long stall or a wait that holds the core, as the array time left, which the spec does not
fix here, decides (R136, R171). -/
def State.engineWait (s : State) (t : Tid) (r : WaitFor) (i : Instr) : State :=
  let (b, s1) := s.draw 1
  if b = 1 then s1.stall t r i else s1

/-! ## Acceptance, start and completion (R171 to R173) -/

/-- An MMA enters the queue with its thread's `FPM`. -/
def State.enqueue (s : State) (t : Tid) (m : MmaOp) (gang : List Nat) : State :=
  let c := s.ctx t
  s.modCore t.unit (fun x => { x with mmaQueue := x.mmaQueue ++ [⟨m, t.ctx, c.fpm, gang, false, [], c.step⟩] })

/-- The checks at issue that stop an MMA, with their exception; `bless` leaves B's tags unchecked (R169, R178). -/
def State.mmaStops (s : State) (t : Tid) (m : MmaOp) (bless : Bool) : Option (State → State) :=
  match mmaFmt m.fmt.toNat with
  | none => some (fun s => s.illegal t)
  | some f => ((s.core t.unit).mmaFault t.ctx m f bless).map (fun p => fun s => s.tileFault t p.1 p.2)

/-- MMA (R168, R169, R171, R172): with TINV the thread waits until D is written. -/
def execMma (t : Tid) (m : MmaOp) (s : State) : Out :=
  s.computeOnly t (fun s =>
    let c := s.core t.unit
    if (m.td.toNat :: (mmaAs m ++ mmaBs m)).any (fun n => c.accepted.any (fun x => x.empties.contains n)) then
      s.engineWait t .tiles (.mma t m)
    else match s.mmaStops t m false with
      | some stop => stop s
      | none =>
        if !c.mmaOpen then s.engineWait t .mmaRoom (.mma t m)
        else
          let s1 := s.enqueue t m []
          if fpmTinv (s.ctx t).fpm then s1.stall t .mmaDone (.mma t m) else s1.advance t 4)

/-- A waiting thread's MMA is accepted: it retires, or with TINV goes on waiting for D. -/
def State.acceptWaiting (s : State) (t : Tid) (m : MmaOp) (i : Instr) (gang : List Nat) : State :=
  let s1 := s.enqueue t m gang
  if fpmTinv (s.ctx t).fpm then s1.modCtx t (fun c => { c with wait := some ⟨.mmaDone, i⟩ }) else s1.endWait t 0 0

/-- The threads of a core that wait for acceptance of an MMA. -/
def Core.roomWaiters (c : Core) : List (Nat × MmaOp × Instr) :=
  (List.range 8).filterMap (fun k =>
    match (sget {} c.ctx k).st, (sget {} c.ctx k).wait with
    | .waiting, some ⟨.mmaRoom, .mma t m⟩ => some (k, m, .mma t m)
    | _, _ => none)

/-- The MMA.G a member waits in, if it does. -/
def State.gangWaits (s : State) (t : Tid) : Option MmaOp :=
  match (s.ctx t).st, (s.ctx t).wait with
  | .waiting, some ⟨.gangMma, .mmaG _ m⟩ => some m
  | _, _ => none

/-- Once every member has issued MMA.G: MISMATCH, a member's failed check, acceptance in all queues, or a wait for room
(R177, R178). -/
def State.gangGo (s : State) (core : Nat) : State :=
  let ms := s.gangMembers core
  let ops := ms.filterMap s.gangWaits
  let cores := ms.map Tid.unit
  if ms.isEmpty ∨ ops.length ≠ ms.length then s
  else
    let key := fun (m : MmaOp) => (m.td, m.ta, m.tb, m.shape, m.fmt)
    let op := ops.headD { td := 0, ta := 0, tb := 0, reuseA := false, reuseB := false, shape := 0, fmt := 0 }
    if ops.any (fun m => key m ≠ key op) then forAll ms s (fun s t => s.raiseWaiting t (faultAt s t 0xF 2 0))
    else
      let why := (ms.zip ops).zipIdx.map (fun p => (p.1.1,
        (mmaFmt p.1.2.fmt.toNat).bind (fun f => (s.core p.1.1.unit).mmaFault p.1.1.ctx p.1.2 f (ms.length = 2 && p.2 = 1))))
      if why.any (fun p => p.2.isSome) then
        forAll why s (fun s p => match p.2 with
          | some (r, w) => s.raiseWaiting p.1 (faultAt s p.1 0xE (r * 16 + w) 0)
          | none => s.raiseWaiting p.1 (faultAt s p.1 0xF 6 0))
      else if cores.all (fun c => (s.core c).mmaOpen) then
        forAll (ms.zip ops) s (fun s p => s.acceptWaiting p.1 p.2 (.mmaG p.1 p.2) cores)
      else s

/-- MMA_G (R177, R178): the thread waits for its gang's other members. -/
def execMmaG (t : Tid) (m : MmaOp) (s : State) : Out :=
  s.computeOnly t (fun s =>
    if (mmaFmt m.fmt.toNat).isNone then s.illegal t
    else match (s.core t.unit).gang with
      | some (_, k) => if k = t.ctx then (s.stall t .gangMma (.mmaG t m)).gangGo t.unit else s.fault t 0xF 1 0
      | none => s.fault t 0xF 1 0)

/-- MMA_ACCEPT (R171): with room in the queue one waiting MMA is accepted; which of several the spec does not say (log
entry 1). -/
def execMmaAccept (core : Nat) (s : State) : Out :=
  onUnit (core < 1024) "core" <|
    if !s.up || !s.coreOpen core || !(s.core core).mmaOpen then s
    else
      let ws := (s.core core).roomWaiters
      let (r, s1) := s.draw 3
      match (if ws.isEmpty then none else ws[r.toNat % ws.length]?) with
      | some (k, m, i) => s1.acceptWaiting ⟨core, k⟩ m i []
      | none => s.gangGo core

/-- Whether the head of a core's queue may start on its array with the gang of `l`. -/
def Core.startable (c : Core) (l : List Nat) : Bool :=
  c.mmaArray.isNone && match c.mmaQueue with | m :: _ => m.gang = l | [] => false

/-- The head of the queue goes to the array. -/
def Core.startMma (c : Core) : Core :=
  match c.mmaQueue with
  | m :: q => { c with mmaArray := some m, mmaQueue := q }
  | [] => c

/-- MMA_START (R171, R177): the oldest accepted MMA starts on a free array; an MMA.G on every member's at once. -/
def execMmaStart (core : Nat) (s : State) : Out :=
  onUnit (core < 1024) "core" <|
    if !s.up || !s.coreOpen core then s
    else match (s.core core).mmaQueue with
      | [] => s
      | m :: _ =>
        let cores := if m.gang.isEmpty then [core] else m.gang
        if cores.all (fun c => (s.core c).startable m.gang) then forAll cores s (fun s c => s.modCore c Core.startMma) else s

/-- The operand pairs of an MMA's passes, in order: own registers, or the gang's fragments (R177, R181, R195). -/
def State.mmaPairs (s : State) (core : Nat) (m : AccMma) : List (Tile × Tile) :=
  let ps := mmaPasses m.op.fmt.toNat
  let ta := m.op.ta.toNat
  let tb := m.op.tb.toNat
  let quad := core / 4 * 4
  let r := core % 4
  let from' := fun (ca cb : Nat) => ps.map (fun p => ((s.core ca).tile (ta + p.1), (s.core cb).tile (tb + p.2)))
  match m.gang with
  | [] => from' core core
  | [lo, _] => from' core lo
  | _ => (List.range 2).flatMap (fun k => from' (quad + 2 * (r / 2) + k) (quad + 2 * k + r % 2))

/-- Array core cycles of an MMA (R171, R177). -/
def arrayCycles (m : AccMma) (f : MmaFmt) : Nat :=
  match m.gang.length with
  | 0 => mmaCycles m.op f
  | 2 => mmaCycles m.op f + 8
  | _ => 2 * mmaCycles m.op f + 8

/-- What an MMA's report writes into `MXS` (R189, R197, R199). -/
def mxsReport (old : Word) (td : Nat) (o : PassOut) : Word :=
  let base := old ||| word (b2n (o.flushes != 0) * 2 + b2n o.ovf * 16)
  match o.invalidAt with
  | some (r, c) => if bit old 0 then base else word (base.toNat % 256 + 1 + r * 256 + c * 2 ^ 16 + td * 2 ^ 24)
  | none => base

/-- The passes of an MMA, its candidates drawn in order. -/
def State.mmaRun (s : State) (core : Nat) (m : AccMma) (f : MmaFmt) : PassOut × State :=
  let (M, N, K) := mmaMnk m.op f
  let d := (s.core core).tile m.op.td.toNat
  let pairs := s.mmaPairs core m
  let d0 := (List.range (M * N)).map (fun i => d.elem (i / N) (i % N))
  let cand := fun n => (Config.freeBits (32 * M * N) (s.freeCtr + n)).toNat
  (mmaPassesRun (f.acc = 2) (fpmFtz m.fpm) M N K cand pairs 0 { d := d0, checked := false },
   { s with freeCtr := s.freeCtr + pairs.length })

/-- Ends the waits of a core's threads that the end of an MMA may satisfy: a tile access tries again; a wait for every
MMA of the thread ends with the last one, an MMA under TINV retiring with FP_TRAP due if it was invalid (R172, R173). -/
def State.wakeTiles (s : State) (core : Nat) (done : Nat) (invalid : Bool) : State :=
  forAll (List.range 8) s (fun s k =>
    let t : Tid := ⟨core, k⟩
    match (s.ctx t).st, (s.ctx t).wait with
    | .waiting, some ⟨.tiles, _⟩ => s.makeReady t
    | .waiting, some ⟨.mmaDone, i⟩ =>
      if !((s.core core).mmasOf k).isEmpty then s
      else match i with
        | .mma _ _ | .mmaG _ _ => (if invalid && k = done then s.trapDue t 0x10 0x81 else s).endWait t 0 0
        | _ => s.makeReady t
    | _, _ => s)

/-- One core's part of a completion with its result: D is written, then the thread's report, unless it was killed
(R171, R173, R180, R197, R199, R425). -/
def State.finishMma (s : State) (core : Nat) (m : AccMma) (f : MmaFmt) (o : PassOut) (sentinel : Bool) : State :=
  let td := m.op.td.toNat
  let t : Tid := ⟨core, m.ctx⟩
  let s1 := s.modCore core (fun c =>
    let x := c.tile td
    { c.setTile td { x with data := bytesTo x.data 0 (o.d.flatMap (leBytes 4)) } with mmaArray := none })
  if m.dead then (s1.modCore core (fun c => c.emptyTiles m.empties)).wakeTiles core 8 false
  else
    let s2 := s1.modCtx t (fun c =>
      { c with mxs := mxsReport c.mxs td o, fps := if o.invalidAt.isSome then c.fps ||| 1 else c.fps })
    let s3 := ((s2.otcAdd t 5 (arrayCycles m f)).countFlush t o.flushes 0).count (tillerNode (core / 16)) 4 (qualOr (core % 16)) (arrayCycles m f)
    let s4 := if sentinel && o.checked then
        (s3.modCore core (fun c => { c with teSent := satAdd 32 c.teSent 1 })).reportFault (core / 16) (.sentinel core) m.step
      else s3
    s4.wakeTiles core m.ctx (o.invalidAt.isSome && fpmTinv m.fpm)

/-- MMA_COMPLETE (R171, R177, R180): the MMA on the array ends, an MMA.G in every member at once; `sentinel` says that
the named core's checksums differ. -/
def execMmaComplete (core : Nat) (sentinel : Bool) (s : State) : Out :=
  onUnit (core < 1024) "core" <|
    if !s.up || !s.clockOn (tillerHalf (core / 16)) then s
    else match (s.core core).mmaArray with
      | none => s
      | some m0 =>
        let cores := if m0.gang.isEmpty then [core] else m0.gang
        let jobs := cores.filterMap (fun c => match (s.core c).mmaArray with
          | some m => (mmaFmt m.op.fmt.toNat).map (fun f => (c, m, f))
          | none => none)
        let r := jobs.foldl (fun (a : List (Nat × AccMma × MmaFmt × PassOut) × State) j =>
          let o := a.2.mmaRun j.1 j.2.1 j.2.2
          (a.1 ++ [(j.1, j.2.1, j.2.2, o.1)], o.2)) ([], s)
        forAll r.1 r.2 (fun s j => s.finishMma j.1 j.2.1 j.2.2.1 j.2.2.2 (sentinel && j.1 = core))

/-! ## Gangs (R176, R178) -/

/-- GANG (R176, R178). -/
def execGang (t : Tid) (ra : Reg) (s : State) : Out :=
  s.computeOnly t (fun s =>
    let w := (s.reg t ra).toNat
    if !gangMasks.contains w ∨ !w.testBit (t.unit % 4) then s.fault t 0xF 4 0
    else if (s.core t.unit).gang.isSome then s.fault t 0xF 5 0
    else (((s.modCtx t (fun c => { c with dissolved := false })).stall t (.gang w) (.gang t ra)).formGang (t.unit / 4) w))

/-- UNGANG (R178). -/
def execUngang (t : Tid) (s : State) : Out := s.computeOnly t (fun s => (s.leaveGang t).advance t 4)

/-- TSYNC (R170): waits until every tile instruction of the thread is complete. -/
def execTsync (t : Tid) (s : State) : Out :=
  s.computeOnly t (fun s =>
    if ((s.core t.unit).mmasOf t.ctx).isEmpty then s.advance t 4 else s.engineWait t .mmaDone (.tsync t))

/-! ## The row port (R170, R174, R175) -/

/-- A tile instruction on a tile the thread owns, whose `check` passes and which no accepted MMA holds back (R165,
R169, R172). -/
def State.onTile (s : State) (t : Tid) (i : Instr) (n : Nat) (write : Bool) (check : Tile → Option Nat) (body : State → Tile → State) : State :=
  let c := s.core t.unit
  if !c.owns t.ctx n then s.tileFault t n rNotOwner
  else if c.accepted.any (fun m => m.empties.contains n) then s.engineWait t .tiles i
  else match check (c.tile n) with
    | some why => s.tileFault t n why
    | none => if c.tileBusy n write then s.engineWait t .tiles i else body s (c.tile n)

/-- The reason that an instruction reading a tile's tag fails with. -/
def Tile.live (x : Tile) : Option Nat := if x.isEmpty then some rEmpty else if x.part then some rPartial else none

/-- Changes tile `n` of the thread's core. -/
def State.setTile (s : State) (t : Tid) (n : Nat) (x : Tile) : State := s.modCore t.unit (fun c => c.setTile n x)

/-- Tile data with the tag of a layout. -/
def Tile.tagged (x : Tile) (l : Nat × Nat × Nat) : Tile :=
  { data := x.data, scale := x.scale, rows := l.1, cols := l.2.1, efmt := l.2.2 }

/-- TZERO (R170). -/
def execTzero (t : Tid) (tt : TReg) (rb : Reg) (s : State) : Out :=
  s.computeOnly t (fun s =>
    let l := layoutOf (s.reg t rb)
    s.onTile t (.tzero t tt rb) tt.toNat true (fun _ => if l.isNone then some rLayout else none) (fun s x =>
      let y := x.tagged (l.getD (0, 0, 0))
      (s.setTile t tt.toNat { y with data := [], scale := if efmtMx y.efmt then [] else y.scale, hasScale := efmtMx y.efmt }).advance t 4))

/-- TCAST (R170). -/
def execTcast (t : Tid) (tt : TReg) (rb : Reg) (s : State) : Out :=
  s.computeOnly t (fun s =>
    let l := layoutOf (s.reg t rb)
    s.onTile t (.tcast t tt rb) tt.toNat true (fun x => x.live.or (if l.isNone then some rLayout else none)) (fun s x =>
      let y := x.tagged (l.getD (0, 0, 0))
      (s.setTile t tt.toNat { y with hasScale := x.hasScale && efmtMx x.efmt && efmtMx y.efmt }).advance t 4))

/-- The reason a row index fails. -/
def Tile.rowFault (x : Tile) (r : Word) : Option Nat := x.live.or (if x.rows ≤ r.toNat then some rDimension else none)

/-- TRDV (R170). -/
def execTrdv (t : Tid) (tt : TReg) (ra : Reg) (v : VReg) (s : State) : Out :=
  s.computeOnly t (fun s =>
    let r := s.reg t ra
    s.onTile t (.trdv t tt ra v) tt.toNat false (fun x => x.rowFault r) (fun s x =>
      (s.setVreg t v (bv 1024 (leNat (bytesFrom x.data (r.toNat * x.rowBytes) x.rowBytes)))).advance t 4))

/-- TWRV (R170). -/
def execTwrv (t : Tid) (tt : TReg) (ra : Reg) (v : VReg) (s : State) : Out :=
  s.computeOnly t (fun s =>
    let r := s.reg t ra
    s.onTile t (.twrv t tt ra v) tt.toNat true (fun x => x.rowFault r) (fun s x =>
      (s.setTile t tt.toNat { x with data := bytesTo x.data (r.toNat * x.rowBytes) (leBytes x.rowBytes (s.vreg t v).toNat) }).advance t 4))

/-- Progress at row `r` of tile `n` (R174). -/
def rowProg (n r : Nat) : Nat := if r = 0 then 0 else r + n * 512

/-- Whether progress lets TLD (`lay` given) or TST resume at a row below `rows` (R175). -/
def progOk (prog n rows : Nat) (x : Tile) (lay : Option (Nat × Nat × Nat)) : Bool :=
  prog = 0 || (prog / 512 = n && decide (prog % 512 < rows) && prog % 512 != 0 &&
    match lay with
    | some l => x.part && x.rows = l.1 && x.cols = l.2.1 && x.efmt = l.2.2 && x.nextRow = prog % 512
    | none => true)

/-- An exception of a row: `XADDR` holds the failing row's offset (R174). -/
def Exc.atRow (e : Exc) (off : Word) : Exc := if [8, 9, 0xB, 0xC].contains e.code then { e with addr := off } else e

/-- Records that rows below `r` of a TLD are written (R174). -/
def State.tldStop (s : State) (t : Tid) (n r : Nat) (lay : Nat × Nat × Nat) : State :=
  if r = 0 then s.modCtx t (fun c => { c with prog := 0 })
  else
    (s.modCore t.unit (fun c => c.setTile n { (c.tile n).tagged lay with part := true, nextRow := r })).modCtx t
      (fun c => { c with prog := rowProg n r })

/-- Data a row's target holds: an answer that has returned for a remote row. -/
def State.rowData (s : State) (t : Tid) (tg : Target) (n : Nat) : Except (Nat × State) (List Byte × State) :=
  match tg with
  | .reserved _ => .error (dReserved, s)
  | .remote _ _ _ =>
    match s.remoteLoads t with
    | r :: _ => match r.resp with
      | some (0, _) => .ok (r.back, s.dropLoads t)
      | some (d, _) => .error (d, s.dropLoads t)
      | none => .error (dRemote, s.dropLoads t)
    | [] => .error (dRemote, s)
  | .at' a _ => s.threadRead t a n

/-- Loads rows from `r` on (R174): a row from elsewhere waits unless `arrived`; the last row sets the tag. -/
def State.tldRows (s : State) (t : Tid) (i : Instr) (n seg : Nat) (base : Word) (stride : Nat) (lay : Nat × Nat × Nat) :
    (fuel : Nat) → (r : Nat) → (arrived : Bool) → State
  | 0, _, _ => (s.modCore t.unit (fun c => c.setTile n ((c.tile n).tagged lay))).advance t 4
  | fuel + 1, r, arrived =>
    let nb := lay.2.1 * efmtBits lay.2.2 / 8
    let off := base + word (r * stride)
    let s0 := s.tldStop t n r lay
    match s0.access t seg off nb 8 false with
    | .exc e => s0.raise t (e.atRow off)
    | .halt k => s0.haltNow t 4 k
    | .go tg s1 =>
      if isFar t tg && !arrived then (s1.sendLoads t nb [tg]).stall t .data i
      else match s1.rowData t tg nb with
        | .error (d, s2) => s2.fault t 0xC d off
        | .ok (l, s2) =>
          let s3 := s2.modCore t.unit (fun c =>
            let x := c.tile n
            c.setTile n { x with data := bytesTo x.data (r * nb) l })
          s3.tldRows t i n seg base stride lay fuel (r + 1) false

/-- ALIGN's offset for a base and a stride of which one is not a multiple of 8 (R170). -/
def misaligned (base : Word) (stride : Nat) : Option Word :=
  if base.toNat % 8 ≠ 0 then some base else if stride % 8 ≠ 0 then some (base + word stride) else none

/-- The body of TLD; `arrived` when the row it waited for has returned. -/
def State.tldGo (s : State) (t : Tid) (tt : TReg) (seg : BitVec 2) (ra rb : Reg) (arrived : Bool) : State :=
  let i : Instr := .tld t tt seg ra rb
  let n := tt.toNat
  let w := s.reg t rb
  let stride := field w 32 32
  let prog := (s.ctx t).prog
  match layoutOf (word (w.toNat % 2 ^ 32)) with
  | none => s.onTile t i n true (fun _ => some rLayout) (fun s _ => s)
  | some lay =>
    s.onTile t i n true (fun x => if progOk prog n lay.1 x (some lay) then none else some rProgress) (fun s _ =>
      match misaligned (s.reg t ra) stride with
      | some a => s.fault t 8 0 a
      | none => s.tldRows t i n seg.toNat (s.reg t ra) stride lay (lay.1 - prog % 512) (prog % 512) arrived)

/-- TLD (R170, R174, R175). -/
def execTld (t : Tid) (tt : TReg) (seg : BitVec 2) (ra rb : Reg) (s : State) : Out :=
  s.computeOnly t (fun s => s.tldGo t tt seg ra rb false)

/-- Stores rows from `r` on (R174): a row to the core's own stores at once, any other posted; a wait for room or a
credit resumes at its row. -/
def State.tstRows (s : State) (t : Tid) (i : Instr) (n seg : Nat) (base : Word) (stride : Nat) (x : Tile) : (fuel : Nat) → (r : Nat) → State
  | 0, _ => s.advance t 4
  | fuel + 1, r =>
    let nb := x.rowBytes
    let off := base + word (r * stride)
    let d := bytesFrom x.data (r * nb) nb
    let s0 := s.modCtx t (fun c => { c with prog := rowProg n r })
    let next := fun (s : State) => (s.foldStore t seg off d).tstRows t i n seg base stride x fuel (r + 1)
    match s0.access t seg off nb 8 true with
    | .exc e => s0.raise t (e.atRow off)
    | .halt k => s0.haltNow t 4 k
    | .go tg s1 =>
      let own := match tg with | .at' a _ => isOwn t a | _ => false
      if own then
        match tg with
        | .at' a _ =>
          let w := (s1.performTo t (s1.destNode a)).writeAs t a d
          match w.1 with
          | some e => (if e = dUncorrectable then w.2.noteUe a else w.2).fault t 0xC e off
          | none => next w.2
        | _ => s1
      else if s1.suppressed t tg then next s1
      else if 16 ≤ s1.postedCount t then s1.stall t .postedRoom i
      else match s1.postOne t i nb tg (.store d) none with
        | .sent s2 => next s2
        | .stop s2 => s2

/-- TST (R170, R174, R175). -/
def execTst (t : Tid) (tt : TReg) (seg : BitVec 2) (ra rb : Reg) (s : State) : Out :=
  s.computeOnly t (fun s =>
    let i : Instr := .tst t tt seg ra rb
    let n := tt.toNat
    let stride := field (s.reg t rb) 32 32
    let prog := (s.ctx t).prog
    s.onTile t i n false (fun x => x.live.or (if progOk prog n x.rows x none then none else some rProgress)) (fun s x =>
      match misaligned (s.reg t ra) stride with
      | some a => s.fault t 8 0 a
      | none => s.tstRows t i n seg.toNat (s.reg t ra) stride x (x.rows - prog % 512) (prog % 512)))

/-- The scale area is loaded (R170). -/
def State.tldxNow (s : State) (t : Tid) (n : Nat) (tg : Target) : State :=
  let x := (s.core t.unit).tile n
  match s.rowData t tg x.scaleBytes with
  | .error (d, s1) => s1.fault t 0xC d (match tg with | .at' a _ => word a | .reserved a => a | .remote m _ o => word (m * 2 ^ 44 + o))
  | .ok (l, s1) => (s1.modCore t.unit (fun c => c.setTile n { x with scale := bytesTo x.scale 0 l, hasScale := true })).advance t 4

/-- The body of TLDX; `arrived` when its data has returned. -/
def State.tldxGo (s : State) (t : Tid) (tt : TReg) (seg : BitVec 2) (ra : Reg) (arrived : Bool) : State :=
  let i : Instr := .tldx t tt seg ra
  s.onTile t i tt.toNat true (fun x => x.live.or (if efmtMx x.efmt then none else some rFormat)) (fun s x =>
    s.withAccess t seg.toNat (s.reg t ra) x.scaleBytes 1 false (fun s tg =>
      if isFar t tg && !arrived then (s.sendLoads t x.scaleBytes [tg]).stall t .data i else s.tldxNow t tt.toNat tg))

/-- TLDX (R170). -/
def execTldx (t : Tid) (tt : TReg) (seg : BitVec 2) (ra : Reg) (s : State) : Out :=
  s.computeOnly t (fun s => s.tldxGo t tt seg ra false)

/-- TSTX (R170). -/
def execTstx (t : Tid) (tt : TReg) (seg : BitVec 2) (ra : Reg) (s : State) : Out :=
  s.computeOnly t (fun s =>
    let i : Instr := .tstx t tt seg ra
    s.onTile t i tt.toNat false (fun x => x.live.or (if x.hasScale then none else some rNoScale)) (fun s x =>
      let d := bytesFrom x.scale 0 x.scaleBytes
      s.withAccess t seg.toNat (s.reg t ra) x.scaleBytes 1 true (fun s tg =>
        s.storeGo t i d tg (fun s => (s.foldStore t seg.toNat (s.reg t ra) d).advance t 4))))

end Sys2Proof.Machine
end

