-- ==== Sys2Proof/Machine/Spr.lean ====
section
/-! DEFINITION. Special registers: MFS, MTS and access to another context's registers (R101, R117, R134, R371, R425 and
the tables those rules name). -/

namespace Sys2Proof.Machine

/-- How an access to a special register ends: a value, done, an exception, or a wait for the thread's MMAs (R101,
R191). -/
inductive SprRes
  | val (v : Word) (s : State)
  | illegal
  | privilege
  | mmas

/-- The value, where the level lets it be read. -/
def atLevel (lvl max : Nat) (r : SprRes) : SprRes := if lvl ≤ max then r else .privilege

/-- STATE codes of `THR_STATE` (Table 1 of chapter 5): context 0 never reads FREE. -/
def CtxState.code (k : Nat) (x : CtxState) : Nat :=
  match x with
  | .free => if k = 0 then 6 else 0
  | .ready => 1 | .running => 2 | .waiting => 3 | .faulted => 4 | .fenced => 5 | .halted => 6

/-- `THR_STATE` of a core. -/
def Core.thrState (c : Core) : Word := word ((List.range 8).foldl (fun n k => n + (sget {} c.ctx k).st.code k * 16 ^ k) 0)

/-- `CORE_ID` of a thread; zero on a Culm core (Table 13 of chapter 3, R371). -/
def State.coreId (s : State) (t : Tid) : Word :=
  if 1024 ≤ t.unit then 0
  else word (t.unit + t.ctx * 2 ^ 16 + s.physOf (t.unit / 16) (t.unit % 16) * 2 ^ 24 + b2n (tidHalf t = .east) * 2 ^ 32)

/-- `CULM_ID` of a Culm core (Table 1 of chapter 14). -/
def culmId (t : Tid) : Word := word ((t.unit - 1024) % 16 + b2n (tidHalf t = .east) * 16)

/-- `TTAGn` (Table 10 of chapter 6). -/
def Tile.tag (x : Tile) : Word :=
  word (x.rows + x.cols * 2 ^ 12 + x.efmt * 2 ^ 24 + b2n x.part * 2 ^ 28 + b2n x.hasScale * 2 ^ 29 + x.nextRow * 2 ^ 32)

/-- `TE_STAT` of a thread; its array time left is a free value (Table 16 of chapter 6; log entry 1). -/
def State.teStat (s : State) (t : Tid) : Word × State :=
  let c := s.core t.unit
  let (busy, s1) := s.draw 16
  let g := match c.gang with | some (m, k) => if k = t.ctx then m else 0 | none => 0
  let low := ((List.range 4).find? (fun i => g.testBit i)).getD 0
  let r := if g = 0 then 0 else if g = 15 then t.unit % 4 else b2n (t.unit % 4 != low)
  (word ((c.mmasOf t.ctx).length + c.accepted.length * 8 + (if c.accepted.isEmpty then 0 else busy.toNat) * 256 + g * 2 ^ 24
    + r * 2 ^ 28 + b2n (s.ctx t).dissolved * 2 ^ 30), s1)

/-- `CRSk` (Table 9 of chapter 8). -/
def CreditSlot.read (x : CreditSlot) : Word :=
  word (x.inbox + x.tiller * 2 ^ 6 + b2n x.valid * 2 ^ 12 + b2n x.pending * 2 ^ 13 + x.held * 2 ^ 16 + x.n * 2 ^ 32 + x.gen * 2 ^ 43)

/-- `TWDOG` (Table 9 of chapter 5). -/
def Core.twdog (c : Core) : Word := word (c.twdogExp + b2n c.twdogFired * 256 + c.twdogCount * 2 ^ 32)

/-- Own-thread counter `k`: counts of core cycles are free values (Table 1 of chapter 16; log entry 1). -/
def State.otcRead (s : State) (t : Tid) (k : Nat) : Word × State :=
  if k = 0 ∨ k = 2 ∨ k = 4 then
    let (v, s1) := s.draw 64
    (v, s1.modCtx t (fun c => { c with otc := sput 0 c.otc k v }))
  else (sget 0 (s.ctx t).otc k, s)

/-- Save register `k` of a set (Table 6 of chapter 4). -/
def SaveSet.read (x : SaveSet) (ctx k : Nat) : Word :=
  match k with
  | 0 => x.pc
  | 1 => x.xst ctx
  | 2 => x.sp
  | 3 => x.xcause
  | 4 => x.addr
  | 5 => word x.prog
  | 6 => word x.depth
  | _ => word x.slim

/-- A save set after a write of register `k` (Table 6 of chapter 4). -/
def SaveSet.write (x : SaveSet) (k : Nat) (w : Word) : SaveSet :=
  match k with
  | 0 => { x with pc := word (w.toNat / 2 * 2) }
  | 1 => x.withXst w
  | 2 => { x with sp := w }
  | 3 => x.withXcause w
  | 4 => { x with addr := w }
  | 5 => { x with prog := field w 0 32 }
  | 6 => { x with depth := field w 0 32 }
  | _ => { x with slim := field w 0 44 }

/-! ## Reading -/

/-- Registers that both kinds of core have (Tables 12 and 13 of chapter 3, Table 6 of chapter 4, Table 1 of
chapter 16). -/
def State.sprCommon (s : State) (t : Tid) (lvl x : Nat) : SprRes :=
  let c := s.ctx t
  if x = 0 then .val c.fpm s
  else if x = 1 then .val c.fps s
  else if x = 2 then .val c.mxs s
  else if 0x10 ≤ x ∧ x < 0x18 then
    let g := segGet c.segs ((x - 0x10) / 2)
    .val (if x % 2 = 0 then g.base else g.bound) s
  else if x = 0x20 then .val (word (s.time.tb % 2 ^ 63)) s
  else if x = 0x30 then .val (s.coreId t) s
  else if x = 0x40 then atLevel lvl 1 (.val (s.gdtb t) s)
  else if x = 0x41 then atLevel lvl 1 (.val (s.xdtb t) s)
  else if 0x80 ≤ x ∧ x < 0x98 then
    let n := (x - 0x80) / 8
    atLevel lvl n (.val (if n = 2 then 0 else (c.saveSet n).read t.ctx (x % 8)) s)
  else if 0x180 ≤ x ∧ x < 0x188 then
    let r := s.otcRead t (x - 0x180)
    .val r.1 r.2
  else if x = 0x18F then
    let (v, s1) := s.draw 64
    .val v s1
  else .illegal

/-- Registers of compute cores alone. -/
def State.sprCompute (s : State) (t : Tid) (lvl x : Nat) : SprRes :=
  let c := s.ctx t
  let k := s.core t.unit
  if x = 0x48 then atLevel lvl 1 (.val k.twdog s)
  else if x = 0x100 then .val k.thrState s
  else if x = 0x101 then .val (k.slotTblNext.getD k.slotTbl) s
  else if x = 0x104 then atLevel lvl 1 (.val k.ctxSel s)
  else if x = 0x106 then atLevel lvl 1 (.val (word (k.ctxCtl.toNat + b2n k.ctxErr * 256)) s)
  else if 0x108 ≤ x ∧ x < 0x110 then .val (sget 0 c.stage (x - 0x108)) s
  else if 0x110 ≤ x ∧ x < 0x118 then .val (sget 0 c.rx (x - 0x110)) s
  else if 0x118 ≤ x ∧ x < 0x120 then
    let g := segGet k.tseg ((x - 0x118) / 2)
    .val (if x % 2 = 0 then g.base else g.bound) s
  else if x = 0x120 then .val k.evPend s
  else if x = 0x121 then .val (word k.evOver) s
  else if x = 0x140 then .val k.town s
  else if x = 0x141 then
    let r := s.teStat t
    .val r.1 r.2
  else if x = 0x142 then atLevel lvl 1 (.val (word k.teSent) s)
  else if 0x150 ≤ x ∧ x < 0x160 then
    .val (if lvl = 2 ∧ !k.owns t.ctx (x - 0x150) then 0 else (k.tile (x - 0x150)).tag) s
  else if 0x1C0 ≤ x ∧ x < 0x1C4 then .val (c.slot (x - 0x1C0)).read s
  else if 0x1D0 ≤ x ∧ x < 0x1D8 then .val (s.chan (.core t.unit (x - 0x1D0))).read s
  else if 0x1D8 ≤ x ∧ x < 0x1E0 then .val (word (s.chan (.core t.unit (x - 0x1D8))).addr) s
  else if x = 0x1E0 then .val c.dintPend s
  else if x = 0x1E1 then .val (word c.dintOver) s
  else s.sprCommon t lvl x

/-- Registers of Culm cores (R371, Table 1 of chapter 14). -/
def State.sprCulm (s : State) (t : Tid) (lvl x : Nat) : SprRes :=
  let k := s.culmCore (t.unit - 1024)
  if x = 0x100 then atLevel lvl 1 (.val (word (b2n k.pgEn + k.asid * 2 ^ 16)) s)
  else if x = 0x101 then atLevel lvl 1 (.val (word k.root) s)
  else if x = 0x108 then .val k.xint s
  else if x = 0x10A then
    let (v, s1) := s.draw 64
    atLevel lvl 1 (.val v s1)
  else if x = 0x10C then atLevel lvl 1 (.val (word k.tmr) s)
  else if x = 0x110 then .val (culmId t) s
  else s.sprCommon t lvl x

/-- A read of thread `t`'s special register `x` by code at a level (R101). -/
def State.sprRead (s : State) (t : Tid) (lvl x : Nat) : SprRes :=
  if t.unit < 1024 then s.sprCompute t lvl x else s.sprCulm t lvl x

/-! ## Writing -/

/-- `GDTB` as a write stores it (Table 6 of chapter 4). -/
def gdtbStore (w : Word) : Word := word (b2n (bit w 0) + field w 6 46 * 64)
/-- `XDTB` as a write stores it (Table 6 of chapter 4). -/
def xdtbStore (w : Word) : Word := word (b2n (bit w 0) + field w 6 38 * 64)

/-- A write of register `x` of the segment pairs that start at number `lo`. -/
def segWrite (g : Segs) (i : Nat) (w : Word) : Segs :=
  let n := i / 2
  let p := segGet g n
  segSet g n (if i % 2 = 0 then { p with base := segBase n w } else { p with bound := segBound w })

/-- A write done. -/
def done (s : State) : SprRes := .val 0 s

/-- Writes of registers that both kinds of core have; `OTC_CLR` aside, counters are read-only. -/
def State.sprSetCommon (s : State) (t : Tid) (lvl x : Nat) (w : Word) : SprRes :=
  if x = 0 then done (s.modCtx t (fun c => { c with fpm := fpmStore w }))
  else if x = 1 then done (s.modCtx t (fun c => { c with fps := fpsStore w }))
  else if x = 2 then done (s.modCtx t (fun c => { c with mxs := mxsStore c.mxs w }))
  else if 0x10 ≤ x ∧ x < 0x18 then
    atLevel lvl 1 (done (s.modCtx t (fun c =>
      { c with segs := segWrite c.segs (x - 0x10) w, fetchBuf := if x < 0x12 then [] else c.fetchBuf })))
  else if x = 0x40 then
    atLevel lvl 0 (done (if t.unit < 1024 then s.modCore t.unit (fun c => { c with gdtb := gdtbStore w })
      else s.modCulm (t.unit - 1024) (fun c => { c with gdtb := gdtbStore w })))
  else if x = 0x41 then
    atLevel lvl 0 (done (if t.unit < 1024 then s.modCore t.unit (fun c => { c with xdtb := xdtbStore w })
      else s.modCulm (t.unit - 1024) (fun c => { c with xdtb := xdtbStore w })))
  else if 0x80 ≤ x ∧ x < 0x98 then
    let n := (x - 0x80) / 8
    atLevel lvl (if x % 8 = 7 then 0 else n)
      (done (if n = 2 then s else s.modCtx t (fun c => c.setSave n ((c.saveSet n).write (x % 8) w))))
  else if x = 0x18F then
    if 256 ≤ w.toNat then .illegal
    else done (s.modCtx t (fun c => { c with otc := c.otc.filter (fun p => !bit w p.1) }))
  else .illegal

/-- Writes of registers of compute cores alone. -/
def State.sprSetCompute (s : State) (t : Tid) (lvl x : Nat) (w : Word) : SprRes :=
  let onCore := fun (f : Core → Core) => done (s.modCore t.unit f)
  let onCtx := fun (f : Ctx → Ctx) => done (s.modCtx t f)
  if x = 0x48 then
    atLevel lvl 1 (onCore (fun c => { c with twdogExp := field w 0 6, twdogFired := c.twdogFired && !bit w 8 }))
  else if x = 0x101 then atLevel lvl 1 (onCore (fun c => { c with slotTblNext := some w }))
  else if x = 0x104 then atLevel lvl 1 (onCore (fun c => { c with ctxSel := word (field w 0 3 + field w 4 12 * 16) }))
  else if 0x108 ≤ x ∧ x < 0x110 then onCtx (fun c => { c with stage := sput 0 c.stage (x - 0x108) w })
  else if 0x110 ≤ x ∧ x < 0x118 then onCtx (fun c => { c with rx := sput 0 c.rx (x - 0x110) w })
  else if 0x118 ≤ x ∧ x < 0x120 then atLevel lvl 1 (onCore (fun c => { c with tseg := segWrite c.tseg (x - 0x118) w }))
  else if x = 0x120 then atLevel lvl 1 (onCore (fun c => { c with evPend := c.evPend &&& ~~~w }))
  else if x = 0x121 then atLevel lvl 1 (onCore (fun c => { c with evOver := if w = 0 then 0 else c.evOver }))
  else if x = 0x140 then atLevel lvl 1 (onCore (fun c => { c with town := w }))
  else if 0x1D0 ≤ x ∧ x < 0x1D8 then done (s.writeDch (.core t.unit (x - 0x1D0)) (lvl ≤ 1) w)
  else if x = 0x1E0 then atLevel lvl 1 (onCtx (fun c => { c with dintPend := c.dintPend &&& ~~~w }))
  else if x = 0x1E1 then atLevel lvl 1 (onCtx (fun c => { c with dintOver := if w = 0 then 0 else c.dintOver }))
  else s.sprSetCommon t lvl x w

/-- Writes of registers of Culm cores. -/
def State.sprSetCulm (s : State) (t : Tid) (lvl x : Nat) (w : Word) : SprRes :=
  let onCore := fun (f : CulmCore → CulmCore) => atLevel lvl 1 (done (s.modCulm (t.unit - 1024) f))
  if x = 0x100 then onCore (fun c => { c with pgEn := bit w 0, asid := field w 16 16 })
  else if x = 0x101 then onCore (fun c => { c with root := field w 12 32 * 4096 })
  else if x = 0x108 then onCore (fun c => { c with xint := c.xint &&& ~~~w })
  else if x = 0x10A then atLevel lvl 1 (done (s.writeIpi w))
  else if x = 0x10C then atLevel lvl 1 (done (s.writeTmr t w))
  else s.sprSetCommon t lvl x w

/-- A write of thread `t`'s special register `x` by code at a level (R101). -/
def State.sprWrite (s : State) (t : Tid) (lvl x : Nat) (w : Word) : SprRes :=
  if t.unit < 1024 then s.sprSetCompute t lvl x w else s.sprSetCulm t lvl x w

/-! ## Another context's registers (R133, R134) -/

/-- The context that `CTX_SEL` names, if `CTX_DATA` reaches it: FAULTED, FENCED or HALTED, and not context 0. -/
def State.ctxObject (s : State) (t : Tid) : Option Tid :=
  let u : Tid := ⟨t.unit, field (s.core t.unit).ctxSel 0 3⟩
  match (s.ctx u).st with
  | .faulted | .fenced | .halted => if u.ctx = 0 then none else some u
  | _ => none

/-- A read of `CTX_DATA`: a refused one reads zero and sets ERR. The registers through which contexts are inspected are
no registers of a context. -/
def State.ctxDataRead (s : State) (t : Tid) : Word × State :=
  let reg := field (s.core t.unit).ctxSel 4 12
  let r := match s.ctxObject t with
    | none => none
    | some u =>
      if reg < 32 then some (s.reg u (bv 5 reg), s)
      else if reg < 0x800 ∨ reg = 0x904 ∨ reg = 0x906 then none
      else match s.sprRead u (s.ctx t).level (reg - 0x800) with
        | .val v s1 => some (v, s1)
        | _ => none
  match r with
  | some (v, s1) => (v, s1.modCore t.unit (fun c => { c with ctxErr := false }))
  | none => (0, s.modCore t.unit (fun c => { c with ctxErr := true }))

/-- A write of `CTX_DATA`: a refused one is discarded and sets ERR. -/
def State.ctxDataWrite (s : State) (t : Tid) (w : Word) : State :=
  let reg := field (s.core t.unit).ctxSel 4 12
  let r := match s.ctxObject t with
    | none => none
    | some u =>
      if reg < 32 then some (s.setReg u (bv 5 reg) w)
      else if reg < 0x800 ∨ reg = 0x904 then none
      else match s.sprWrite u (s.ctx t).level (reg - 0x800) w with
        | .val _ s1 => some s1
        | _ => none
  match r with
  | some s1 => s1.modCore t.unit (fun c => { c with ctxErr := false })
  | none => s.modCore t.unit (fun c => { c with ctxErr := true })

/-- A write of `CTX_CTL`: the operation of its OP; NONE and the reserved codes only store the fields (R133, R135). -/
def State.writeCtxCtl (s : State) (t : Tid) (w : Word) : State :=
  match field w 4 3 with
  | 1 => s.ctxKill t w
  | 2 => s.ctxReturn t w
  | 3 => s.ctxEnter t w
  | 4 => s.ctxContinue t w
  | op => if (s.ctx t).level = 2 then s.privilege t
    else (s.modCore t.unit (fun c => { c with ctxCtl := word (field w 0 3 + op * 16) })).advance t 4

/-! ## MFS and MTS (R101) -/

/-- The end of an access to a special register. -/
def State.sprEnd (s : State) (t : Tid) (i : Instr) (r : SprRes) (fin : Word → State → State) : State :=
  match r with
  | .val v s1 => fin v s1
  | .illegal => s.illegal t
  | .privilege => s.privilege t
  | .mmas => s.engineWait t .mmaDone i

/-- `FPS` and `MXS` wait for every accepted MMA of the thread (R172, R191). -/
def State.mmasFirst (s : State) (t : Tid) (x : Nat) (r : SprRes) : SprRes :=
  if t.unit < 1024 ∧ (x = 1 ∨ x = 2) ∧ !((s.core t.unit).mmasOf t.ctx).isEmpty then .mmas else r

/-- The end of a read of `CTX_DATA` by `rd`. -/
def State.ctxDataLoad (s : State) (t : Tid) (rd : Reg) : State :=
  if (s.ctx t).level = 2 then s.privilege t
  else
    let r := s.ctxDataRead t
    (r.2.setReg t rd r.1).advance t 4

/-- The end of a write of `CTX_DATA`. -/
def State.ctxDataStore (s : State) (t : Tid) (w : Word) : State :=
  if (s.ctx t).level = 2 then s.privilege t else (s.ctxDataWrite t w).advance t 4

/-- MFS (R101). -/
def execMfs (t : Tid) (rd : Reg) (x : BitVec 11) (s : State) : Out :=
  s.issue t 4 (fun s =>
    if t.unit < 1024 ∧ x = 0x105 then s.ctxDataLoad t rd
    else s.sprEnd t (.mfs t rd x) (s.mmasFirst t x.toNat (s.sprRead t (s.ctx t).level x.toNat))
      (fun v s => (s.setReg t rd v).advance t 4))

/-- MTS (R101). -/
def execMts (t : Tid) (x : BitVec 11) (ra : Reg) (s : State) : Out :=
  s.issue t 4 (fun s =>
    let w := s.reg t ra
    if t.unit < 1024 ∧ x = 0x105 then s.ctxDataStore t w
    else if t.unit < 1024 ∧ x = 0x106 then s.writeCtxCtl t w
    else s.sprEnd t (.mts t x ra) (s.mmasFirst t x.toNat (s.sprWrite t (s.ctx t).level x.toNat w))
      (fun _ s => s.advance t 4))

/-- CTX_DATA_ACCESS (R134): MFS or MTS of `CTX_DATA`. -/
def execCtxDataAccess (t : Tid) (a : CtxAccess) (s : State) : Out :=
  s.computeOnly t (fun s =>
    match a with
    | .read rd => s.ctxDataLoad t rd
    | .write ra => s.ctxDataStore t (s.reg t ra))

end Sys2Proof.Machine
end

