-- ==== Sys2Proof/Machine/Control.lean ====
section
/-! DEFINITION. The control space: which register lies at an offset of a node's block, what a read of it gives, what a
write does, and the commands that write registers (R489, R490 and the tables of the register maps). -/

namespace Sys2Proof.Machine

/-! ## The map (Table 1 of chapter 19) -/

/-- A control register, or a word of a table or buffer of the control space. -/
inductive CtlReg
  | lmIdent | lmGeom (w : Nat)
  | halfState | halfReq
  | thlCmd | thlSrc | thlStatus | regionState | regionMode | thlDrainLim | thlLastId | regionBlocks (i : Nat)
  | xintTgt (src : Nat)
  | cnState | cnReq | cnWdog (i : Nat)
  | relStat | relCmd | hlHead | hlLost | healthLog (w : Nat)
  | smp (i k : Nat)
  | pwrStat | pwrCap | alertSrc | alertEn
  | bootStat | bootCmd | rstCmd | chainStat | fuseStat | fuseSerial | fuseReq | attCmd | measExt | meas (i w : Nat)
  | flashBuf (o : Nat)
  | tbCtl | tbOffset
  | meshSlot | meshArb | meshStat | c0DestLo | c0DestHi | routeOvr (i : Nat)
  | rachisStat
  | cntSel (j : Nat) | cntVal (j : Nat) | cntCmd | cntGrant
  | chep (e : Nat) | crg (i : Nat) | aowStat | window (i w : Nat) | tspare | sramRas
  | dch (k : Nat) | dchDesc (k : Nat) | evc (i : Nat) | sqReg (k w : Nat) | sqBuf (p w : Nat)
  | ths | thsPurged | thsFlags | thsWctl | thsWstat | thsFault | thq (q : Nat)
  | twStat | dbg (t : Tid) (w : Nat)
  | hbm (w : Nat)
  | stp (port w : Nat) | sessCmd | fabStat | sessEntry (sess w : Nat)
  | cnCtl | cnRas
  | eth (p w : Nat)
  | pciCtl | pciStat | pciWin | pciMem (o : Nat)
deriving DecidableEq, Repr

/-- The word of a block of `n` 8-byte words at `lo` that offset `o` names. -/
def wordAt (lo n o : Nat) : Option Nat := if lo ≤ o ∧ o < lo + 8 * n then some ((o - lo) / 8) else none

/-- Registers that every node has. -/
def everyReg (node o : Nat) : Option CtlReg :=
  match wordAt 0xF0000 5 o with
  | some w => [CtlReg.meshSlot, .meshArb, .meshStat, .c0DestLo, .c0DestHi][w]?
  | none =>
    match wordAt 0xF0100 16 o, wordAt 0xA00000 16 o, wordAt 0xA00100 2 o with
    | some i, _, _ => some (.routeOvr i)
    | _, some w, _ => some (if w % 2 = 0 then .cntSel (w / 2) else .cntVal (w / 2))
    | _, _, some w => some (if w = 0 then .cntCmd else .cntGrant)
    | _, _, _ => if o / 8 * 8 = 0xE0000 ∧ (node % 10 = 4 ∨ node % 10 = 5) then some .rachisStat else none

/-- The registers of the Keeper node. -/
def keeperReg (o : Nat) : Option CtlReg :=
  let w8 := wordAt (o / 65536 * 65536) 8192 o |>.getD 0
  match o / 65536 with
  | 0 => if w8 = 0 then some .lmIdent else if w8 ≤ 16 then some (.lmGeom (w8 - 1)) else none
  | 1 => [CtlReg.halfState, .halfReq][w8]?
  | 3 => if 32 ≤ w8 ∧ w8 < 48 then some (.regionBlocks (w8 - 32))
    else [CtlReg.thlCmd, .thlSrc, .thlStatus, .regionState, .regionMode, .thlDrainLim, .thlLastId][w8]?
  | 4 => if w8 < 64 then some (.xintTgt w8) else none
  | 5 => [CtlReg.cnState, .cnReq, .cnWdog 0, .cnWdog 1, .cnWdog 2, .cnWdog 3][w8]?
  | 6 => [CtlReg.relStat, .relCmd, .hlHead, .hlLost][w8]?
  | 7 => if w8 < 32 ∧ w8 % 8 < 5 then some (.smp (w8 / 8) (w8 % 8)) else none
  | 8 => [CtlReg.pwrStat, .pwrCap, .alertSrc, .alertEn][w8]?
  | 9 => if 32 ≤ w8 ∧ w8 < 96 then some (.meas ((w8 - 32) / 4) (w8 % 4))
    else [CtlReg.bootStat, .bootCmd, .rstCmd, .chainStat, .fuseStat, .fuseSerial, .fuseReq, .attCmd, .measExt][w8]?
  | 0xB => if w8 < 512 then some (.flashBuf (8 * w8)) else none
  | 0x10 => some (.healthLog w8)
  | 0x11 => some (.healthLog (w8 + 8192))
  | _ => none

/-- The registers of a tiller node. -/
def tillerReg (T o : Nat) : Option CtlReg :=
  let w8 := o % 65536 / 8
  match o / 65536 with
  | 0x20 => if w8 < 256 then some (.chep w8) else none
  | 0x21 => if w8 < 64 then some (.crg w8) else none
  | 0x22 => if w8 = 0 then some .aowStat else none
  | 0x23 => if w8 < 128 then some (.window (w8 / 2) (w8 % 2)) else none
  | 0x24 => [CtlReg.tspare, .sramRas][w8]?
  | 0x30 => if w8 < 64 then some (if w8 % 2 = 0 then .dch (w8 / 2) else .dchDesc (w8 / 2)) else none
  | 0x40 => if w8 < 256 then some (.evc w8) else none
  | 0x41 => if w8 < 32 then some (.sqReg (w8 / 4) (w8 % 4)) else none
  | 0x42 => if w8 < 128 then some (.sqBuf (w8 / 2) (w8 % 2)) else none
  | 0x50 => [CtlReg.ths, .thsPurged, .thsFlags, .thsWctl, .thsWstat, .thsFault][w8]?
  | 0x51 => if w8 < 512 then some (.thq w8) else none
  | 0xA1 => if w8 = 0 then some .twStat else none
  | 0xC0 => if o % 0x1000 < 0x800 ∧ o % 0x100 < 0x80 then some (.dbg ⟨T * 16 + o % 65536 / 0x1000, o % 0x1000 / 0x100⟩ (o % 0x100 / 8)) else none
  | _ => none

/-- The registers of a Culm node. -/
def culmReg (i o : Nat) : Option CtlReg :=
  if o / 8 * 8 = 0x900000 then some .cnCtl
  else if o / 8 * 8 = 0x900008 then some .cnRas
  else if 0xC00000 ≤ o ∧ o < 0xC04000 ∧ o % 0x1000 < 0x80 then some (.dbg ⟨1024 + 4 * i + (o - 0xC00000) / 0x1000, 0⟩ (o % 0x1000 / 8))
  else none

/-- The registers of port node `h`. -/
def portReg (h o : Nat) : Option CtlReg :=
  match wordAt 0x700000 16 o, wordAt 0x700100 2 o, wordAt 0x710000 8192 o with
  | some w, _, _ => if w % 8 < 4 then some (.stp (2 * h + w / 8) (w % 8)) else none
  | _, some w, _ => some (if w = 0 then .sessCmd else .fabStat)
  | _, _, some w => some (.sessEntry (1024 * h + w / 8) (w % 8))
  | _, _, _ => none

/-- The registers of the PCIe node; configuration space and window are one space of offsets. -/
def pcieReg (o : Nat) : Option CtlReg :=
  match wordAt 0x80000 3 o with
  | some w => [CtlReg.pciCtl, .pciStat, .pciWin][w]?
  | none => if (0x100000 ≤ o ∧ o < 0x900000) ∨ (0xB00000 ≤ o ∧ o < 0xF00000) then some (.pciMem (o / 8 * 8)) else none

/-- The register at an offset of a node's control block; none where Table 1 of chapter 19 and the register maps assign the
offset to nothing (R490). -/
def ctlReg (node o : Nat) : Option CtlReg :=
  match everyReg node o with
  | some r => some r
  | none =>
    if node = 0 then keeperReg o
    else if node = ethNode then
      (match wordAt 0x800000 7 o, wordAt 0x800100 7 o with
       | some w, _ => some (.eth 0 w)
       | _, some w => some (.eth 1 w)
       | _, _ => none)
    else if node = pcieNode then pcieReg o
    else if node = 99 then (match wordAt 0x20000 2 o with | some w => some (if w = 0 then .tbCtl else .tbOffset) | none => none)
    else match nodeTiller node with
      | some T => tillerReg T o
      | none =>
        match (List.range 12).find? (fun i => stackNode i = node), (List.range 4).find? (fun i => culmNodeNode i = node),
          (List.range 16).find? (fun h => portNodeNode (2 * h) = node) with
        | some _, _, _ => (wordAt 0x600000 5 o).map .hbm
        | _, some i, _ => culmReg i o
        | _, _, some h => portReg h o
        | _, _, _ => none

/-! ## Codes -/

/-- `HALF_STATE` codes (Table 14 of chapter 1). -/
def HalfState.code (x : HalfState) : Nat := match x with | .running => 0 | .slowed => 1 | .parking => 2 | .parked => 3 | .unparking => 4
/-- `REGION_STATE` codes (Table 14 of chapter 2). -/
def RegState.code (x : RegState) : Nat :=
  match x with | .undefined => 0 | .serving => 1 | .draining => 2 | .quiescent => 3 | .loading => 4 | .checking => 5
/-- `SQ_STAT.STATE` codes (Table 4 of chapter 10). -/
def SqState.code (x : SqState) : Nat := match x with | .idle => 0 | .running => 1 | .stopped => 2 | .aborting => 3 | .aborted => 4 | .done => 5
/-- `THS_WSTAT.STATE` codes (Table 12 of chapter 11). -/
def WaveState.code (x : WaveState) : Nat :=
  match x with | .idle => 0 | .running => 1 | .stopped => 2 | .aborting => 3 | .aborted => 4 | .done => 5 | .replaying => 6
/-- `STP_STAT.STATE` codes (Table 12 of chapter 13). -/
def PortState.code (x : PortState) : Nat :=
  match x with | .disabled => 0 | .training => 1 | .up => 2 | .down => 3 | .refused => 4 | .miswired => 5 | .handover => 6

/-- The 32 bytes of a health-log entry (Table 7 of chapter 15). -/
def HealthEntry.bytes (e : HealthEntry) : List Byte :=
  leBytes 8 e.stamp.toNat ++ leBytes 1 e.source ++ leBytes 1 e.cause ++ leBytes 1 e.action ++ leBytes 1 e.flags ++ leBytes 2 e.node
    ++ leBytes 2 e.unit ++ leBytes 4 e.stepId ++ leBytes 4 e.count ++ leBytes 8 e.detail

/-- The 64 bytes of a session entry (Table 8 of chapter 13). -/
def Session.bytes (e : Session) : List Byte :=
  leBytes 1 e.st ++ leBytes 1 e.rights ++ leBytes 2 e.template ++ leBytes 2 e.module ++ leBytes 2 e.tagShare ++ leBytes 8 e.base
    ++ leBytes 8 e.length ++ leBytes 4 e.credit ++ leBytes 2 e.held ++ leBytes 2 e.outstanding ++ leBytes 1 e.lastErr
    ++ List.replicate 3 0 ++ leBytes 4 e.errors ++ leBytes 4 e.late ++ List.replicate 4 0 ++ leBytes 8 e.opened.toNat
    ++ leBytes 8 e.errStamp.toNat

/-- Word `w` of a list of bytes. -/
def wordIn (l : List Byte) (w : Nat) : Word := word (fld l (8 * w) 8)

/-- A register value whose `n` write-only bits from `lo` read as a free value (log entry 1). -/
def State.withWo (s : State) (lo n v : Nat) : Word × State :=
  let (x, s1) := s.draw n
  (word (v + x.toNat * 2 ^ lo), s1)

/-! ## Reading -/

/-- `HALF_STATE` (Table 14 of chapter 1, R44). -/
def State.halfStateWord (s : State) : Word :=
  let core := fun (x : HalfRec) => if x.st = .parked then x.coreT else x.coreF
  let mesh := fun (x : HalfRec) => if x.st = .parked then x.meshT else x.meshF
  word (s.west.st.code + s.east.st.code * 16 + core s.west * 2 ^ 8 + mesh s.west * 2 ^ 16 + core s.east * 2 ^ 24 + mesh s.east * 2 ^ 32
    + b2n s.parkEn * 2 ^ 40 + s.lastRefusal * 2 ^ 48)

/-- `REL_STAT` (Table 10 of chapter 15). -/
def State.relStat (s : State) : Word :=
  word (s.rel.st + b2n s.promise * 4 + b2n s.loader.rel.isNone * 8 + b2n s.spareCore * 16 + b2n s.spareSram * 32 + b2n s.spareHbm * 64
    + b2n s.noReplica * 128 + b2n s.mirrorOff * 256 + b2n s.rel.mirrorDown * 512 + b2n s.rateBit * 1024 + s.rel.cause * 2 ^ 16)

/-- Registers of a sampler (Table 4 of chapter 16). -/
def State.smpRead (s : State) (i k : Nat) : Word :=
  let x := s.sampler i
  match k with
  | 0 => word (b2n x.en + x.n * 2 ^ 8 + x.period * 2 ^ 16)
  | 1 => word x.list
  | 2 => word (x.ringBase + x.ringLog * 2 ^ 44)
  | 3 => word x.head
  | _ => word ((if x.st = 1 ∧ s.samplerPaused x then 2 else x.st) + x.err * 2 ^ 8 + x.skipped * 2 ^ 16)

/-- `CRG` (Table 7 of chapter 8). -/
def Inbox.read (b : Inbox) : Word :=
  word (b2n b.valid + b.store * 2 + b.core * 8 + b2n b.auto * 128 + b.base * 2 ^ 8 + b.length * 2 ^ 24 + b.avail * 2 ^ 40 + b.gen * 2 ^ 59
    + b2n b.overrun * 2 ^ 63)

/-- Whether the next record of a schedule context is not eligible, or its issue waits (Table 4 of chapter 10, R274). -/
def State.sqWaiting (s : State) (T k : Nat) : Bool :=
  let q := s.sq T k
  q.st = .running && !q.ended && match s.nextRec T k with
    | .error _ => false
    | .ok r => !s.recReached T r q.iter || q.steps.any (s.issueWaits T k)

/-- Registers of a schedule context (Table 4 of chapter 10). -/
def State.sqRegRead (s : State) (T k w : Nat) : Word :=
  let q := s.sq T k
  match w with
  | 0 => word (q.op + q.maxflight * 2 ^ 8)
  | 1 => word q.base
  | 2 => word (q.st.code + b2n (s.sqWaiting T k) * 8 + q.steps.length * 16 + q.err * 2 ^ 8 + q.next * 2 ^ 16 + q.iter % 2 ^ 16 * 2 ^ 32
      + q.replays * 2 ^ 48)
  | _ => word (q.faultStep + q.faultCause * 2 ^ 32 + q.faultCore * 2 ^ 36 + b2n q.faultSpare * 2 ^ 40)

/-- Whether a tiller is the controller of its region's array. -/
def State.isCtrl (s : State) (T : Nat) : Bool :=
  match s.regionOf T with
  | some r => (s.region r).array ≠ [] && arrCtrl (s.arr r) = T
  | none => false

/-- `THS.STATE` (Table 11 of chapter 11): ACTIVE while the array's wave controller is neither IDLE, ABORTED nor DONE. -/
def State.thsState (s : State) (T : Nat) : Nat :=
  let x := s.th T
  if !x.on then 0
  else if x.purging then 3
  else match s.regionOf T with
    | some r => match (s.th (arrCtrl (s.arr r))).st with | .idle | .aborted | .done => 1 | _ => 2
    | none => 1

/-- `THS_WSTAT` (Table 12 of chapter 11). -/
def Thallus.wstat (x : Thallus) : Word :=
  word (x.st.code + x.err * 2 ^ 8 + x.wave * 2 ^ 16 + x.replays * 2 ^ 48 + x.inflight.length * 2 ^ 56)

/-- `THS_FAULT` (Table 12 of chapter 11). -/
def Thallus.fault (x : Thallus) : Word := word (x.faultWave + x.faultCause * 2 ^ 32 + x.faultUnit * 2 ^ 36 + b2n x.faultSpare * 2 ^ 52)

/-- `TSPARE` (Table 10 of chapter 15). -/
def Tiller.tspare (x : Tiller) : Word :=
  word (b2n x.spareServes.isSome + x.spareServes.getD 0 * 2 + b2n x.hold * 32 + b2n x.takeover.isSome * 64 + x.coreFaults * 2 ^ 8)

/-- `SRAM_RAS` but for CLR (Table 10 of chapter 15). -/
def State.sramRas (s : State) (T : Nat) : Nat :=
  let rs := (s.repairs.filter (fun r => storeTiller r.1 = T)).map Prod.snd
  let rows := (rs.map (fun r => r.rows.length)).sum
  let banks := (rs.filter (fun r => r.bankUsed)).length
  (s.tiller T).sramCe + (s.tiller T).sramUe * 2 ^ 24 + min rows 255 * 2 ^ 40 + min banks 15 * 2 ^ 48

/-- Whether a thread holds CHOWN of an endpoint. -/
def State.ownsEp (s : State) (t : Tid) : Bool := s.tillers.any (fun p => p.2.eps.any (fun e => e.2.owner = some t))

/-- Debug registers of a context (Table 9 of chapter 16). -/
def State.dbgRead (s : State) (t : Tid) (w : Nat) : Word × State :=
  let c := s.ctx t
  let d := c.dbg
  match w with
  | 0 => s.withWo 0 3 (b2n d.brkHalt * 8 + b2n (c.st = .halted && d.byDebugger) * 16 + b2n d.pending * 32 + d.cause * 2 ^ 8 + d.which * 2 ^ 12
      + b2n (s.ownsEp t) * 2 ^ 14 + b2n d.part * 2 ^ 15)
  | 1 => (d.pc, s)
  | 2 => (word d.prog, s)
  | 3 => (word d.level, s)
  | _ => (if w < 8 then sget 0 d.bp (w - 4) else if w % 2 = 0 then sget 0 d.wpa ((w - 8) / 2) else sget 0 d.wpc ((w - 8) / 2), s)

/-- Registers of an HBM controller (Table 5 of chapter 12). -/
def State.hbmRead (s : State) (i w : Nat) : Word × State :=
  let x := s.stack i
  match w with
  | 0 => (word (x.st + min x.lanes 255 * 2 ^ 8 + b2n x.repairing * 2 ^ 16), s)
  | 1 => s.withWo 63 1 (x.temp + x.max * 2 ^ 8 + b2n x.double * 2 ^ 16 + b2n x.throttle * 2 ^ 17)
  | 2 => s.withWo 63 1 (x.ce + x.ue * 2 ^ 24 + x.rows * 2 ^ 40 + x.spareMin * 2 ^ 52)
  | 3 => (word (x.periodNext + x.progress % 2 ^ 24 * 2 ^ 8 + x.passes * 2 ^ 32), s)
  | _ => (word x.pcfail, s)

/-- Registers of a Stolon port (Table 12 of chapter 13). -/
def State.stpRead (s : State) (p w : Nat) : Word × State :=
  let x := s.port p
  match w with
  | 0 => s.withWo 1 1 (b2n x.en + b2n (s.bonded p) * 4 + x.c0Allot * 2 ^ 8)
  | 1 => (word (x.st.code + x.lanes * 16 + x.refusal * 2 ^ 8 + x.proto * 2 ^ 12 + x.peerId * 2 ^ 16 + x.peerPort * 2 ^ 30), s)
  | 2 => s.withWo 63 1 (x.replays + x.laneDrops * 2 ^ 32 + x.downs * 2 ^ 40)
  | _ => (x.peerIdent, s)

/-- Registers of a service port (Table 12 of chapter 14). -/
def State.ethRead (s : State) (p w : Nat) : Word × State :=
  let x := s.ethPort p
  match w with
  | 0 => (word (b2n x.en + b2n x.promisc * 2), s)
  | 1 => (word (x.link + x.rxDrop * 2 ^ 16 + x.fcsErr * 2 ^ 32), s)
  | 2 => (word (x.txSize + x.txBase), s)
  | 3 => (word (x.rxSize + x.rxBase), s)
  | 4 => (word (x.txNext % 2 ^ 12 + x.rxNext % 2 ^ 12 * 2 ^ 16), s)
  | 5 => s.withWo 0 1 0
  | _ => (word x.mac, s)

/-- A word of the PCIe configuration space or window: what the far side answers is a free value (log entry 1). -/
def State.pciRead (s : State) : Word × State := s.draw 64

/-- The value of a register of a node (every register map of the spec). -/
def State.regRead (s : State) (node : Nat) (r : CtlReg) : Word × State :=
  let T := (nodeTiller node).getD 0
  let n := s.node node
  let l := s.loader
  match r with
  | .lmIdent => (Config.lmIdent, s)
  | .lmGeom w => (Config.lmGeom w, s)
  | .halfState => (s.halfStateWord, s)
  | .halfReq => (word (s.halfReq.toNat + b2n s.halfBusy * 2 ^ 63), s)
  | .thlCmd => (word (l.op + b2n l.purgeBit * 8 + l.mask * 2 ^ 16 + b2n l.busy * 2 ^ 63), s)
  | .thlSrc => (word l.src, s)
  | .thlStatus => (word (l.code + l.sectIdx % 2 ^ 16 * 2 ^ 8 + l.offset % 2 ^ 32 * 2 ^ 24 + min l.skipped 255 * 2 ^ 56), s)
  | .regionState => (word ((List.range 16).foldl (fun a i => a + (s.region i).st.code * 16 ^ i) 0), s)
  | .regionMode => (word ((List.range 16).foldl (fun a i => a + (s.region i).mode % 4 * 4 ^ i) 0), s)
  | .thlDrainLim => (word l.drainLim, s)
  | .thlLastId => (l.lastId, s)
  | .regionBlocks i => (word (s.region i).blocks.toNat, s)
  | .xintTgt i => (word (sget 0 s.xintTgt i), s)
  | .cnState => (word ((List.range 4).foldl (fun a i => a + ((s.culmNode i).st + (s.culmNode i).cause * 16) * 256 ^ i) 0), s)
  | .cnReq => (word s.cnReq, s)
  | .cnWdog i => s.withWo 31 1 (s.culmNode i).period
  | .relStat => (s.relStat, s)
  | .relCmd => (word (s.rel.cmdOp + b2n s.relBusy * 2 ^ 63), s)
  | .hlHead => (word s.rel.head, s)
  | .hlLost => (word s.rel.lost, s)
  | .healthLog w => (wordIn (sget {} s.rel.log (w / 4)).bytes (w % 4), s)
  | .smp i k => (s.smpRead i k, s)
  | .pwrStat => (s.pwrStat, s)
  | .pwrCap => (word (s.power.holridCap + s.power.carrierCap * 2 ^ 16 + s.pcap * 2 ^ 32), s)
  | .alertSrc => (word s.power.alertSrc, s)
  | .alertEn => (word s.power.alertEn, s)
  | .bootStat => (s.bootStat, s)
  | .bootCmd => s.withWo 0 1 0
  | .rstCmd => (word (s.boot.rstOp + s.boot.rstMask * 2 ^ 16 + s.boot.rstCore * 2 ^ 32 + s.boot.rstPort * 2 ^ 42 + b2n s.boot.rstBusy * 2 ^ 63), s)
  | .chainStat => (word (s.boot.chain + s.boot.chainBad * 2 ^ 16), s)
  | .fuseStat => (s.fuseStat, s)
  | .fuseSerial => (s.fuses.serial, s)
  | .fuseReq => (word s.boot.fuseReq, s)
  | .attCmd => (word (s.boot.attAddr + s.boot.attMask * 2 ^ 44 + s.boot.attStatus * 2 ^ 60), s)
  | .measExt => (word (s.boot.measIndex + s.boot.measAddr + b2n s.boot.measErr * 2 ^ 62), s)
  | .meas i w => (wordIn (sget (List.replicate 32 0) s.boot.meas i) w, s)
  | .flashBuf o => (word (leNat ((List.range 8).map (fun i => sget 0 s.boot.flashBuf (o + i)))), s)
  | .tbCtl =>
    let t := s.time
    (word (b2n t.master + b2n t.locked * 2 + b2n t.stepped * 4 + b2n t.holdover * 8 + t.beaconPer * 2 ^ 8
      + (BitVec.ofInt 16 t.slew).toNat * 2 ^ 32), s)
  | .tbOffset => (word (BitVec.ofInt 32 s.time.offset).toNat, s)
  | .meshSlot => (n.slot, s)
  | .meshArb => (n.arb, s)
  | .meshStat => (word (n.held + n.deny * 2 ^ 32 + b2n n.slotfix * 2 ^ 48), s)
  | .c0DestLo => (n.destLo, s)
  | .c0DestHi => (n.destHi, s)
  | .routeOvr i => (sget 0 n.ovr i, s)
  | .rachisStat => (word (n.parkedAns + n.c0drop * 2 ^ 32), s)
  | .cntSel j => (sget 0 n.cntSel j, s)
  | .cntVal j =>
    let s1 := s.syncCnt node j
    (sget 0 (s1.node node).cntVal j, s1)
  | .cntCmd => s.withWo 32 1 (n.cntSeq + n.ctxMask * 2 ^ 40)
  | .cntGrant => (word (n.grantFirst + n.grantLast * 2 ^ 10 + b2n n.grantEn * 2 ^ 20), s)
  | .chep e => ((s.ep T e).read, s)
  | .crg i => ((s.inbox T i).read, s)
  | .aowStat => s.withWo 63 1 ((s.tiller T).aowInv + (s.tiller T).aowOvf * 2 ^ 32)
  | .window i w => (let x := sget {} (s.tiller T).windows i; if w = 0 then x.w0 else x.w1Next, s)
  | .tspare => ((s.tiller T).tspare, s)
  | .sramRas => s.withWo 63 1 (s.sramRas T)
  | .dch k => ((s.chan (.tiller T k)).read, s)
  | .dchDesc k => s.withWo 0 1 (s.chan (.tiller T k)).addr
  | .evc i => (word (s.evc T i), s)
  | .sqReg k w => (s.sqRegRead T k w, s)
  | .sqBuf p w => (let x := s.pair T p; if w = 0 then word (b2n x.valid + b2n x.live * 2 + x.base) else word x.size, s)
  | .ths =>
    -- IMBAL counts core cycles
    let (im, s1) := s.draw 32
    (word (s.thsState T + (s.th T).epoch * 16 + (s.th T).stale * 2 ^ 16 + im.toNat * 2 ^ 32), s1)
  | .thsPurged => (word (s.th T).purged, s)
  | .thsFlags => (word (s.th T).flags, s)
  | .thsWctl => (if s.isCtrl T then word (s.th T).wctl else 0, s)
  | .thsWstat => (if s.isCtrl T then (s.th T).wstat else 0, s)
  | .thsFault => (if s.isCtrl T then (s.th T).fault else 0, s)
  | .thq q =>
    let x := s.queue T q
    -- FULL counts core cycles
    let (f, s1) := s.draw 32
    (word (x.tokens.length + b2n x.valid * 2 ^ 9 + f.toNat * 2 ^ 32), s1)
  | .twStat => (word ((s.tiller T).twRecords + (s.tiller T).twErrors * 2 ^ 32), s)
  | .dbg t w => s.dbgRead t w
  | .hbm w => s.hbmRead (((List.range 12).find? (fun i => stackNode i = node)).getD 0) w
  | .stp p w => s.stpRead p w
  | .sessCmd =>
    let x := s.portNode (((List.range 16).find? (fun h => portNodeNode (2 * h) = node)).getD 0)
    (word (x.cmdOp + x.cmdSess * 2 ^ 4 + x.cmdModule * 2 ^ 18 + x.cmdTemplate * 2 ^ 32 + x.result * 2 ^ 48 + b2n x.busy * 2 ^ 63), s)
  | .fabStat =>
    let x := s.portNode (((List.range 16).find? (fun h => portNodeNode (2 * h) = node)).getD 0)
    s.withWo 63 1 (x.hopDrop + x.c0Deny * 2 ^ 16 + x.lost * 2 ^ 32 + x.mcPartial * 2 ^ 48)
  | .sessEntry i w => (wordIn (s.session i).bytes w, s)
  | .cnCtl =>
    let i := ((List.range 4).find? (fun i => culmNodeNode i = node)).getD 0
    -- OP is write-only; the fewest spare rows left depend on arrays whose spares the spec does not count
    let (sp, s1) := s.draw 8
    s1.withWo 2 2 ((s.culmNode i).mode + sp.toNat * 2 ^ 16)
  | .cnRas =>
    let x := s.culmNode (((List.range 4).find? (fun i => culmNodeNode i = node)).getD 0)
    s.withWo 63 1 (x.ce + x.cleanInv * 2 ^ 24 + min x.rows 255 * 2 ^ 40)
  | .eth p w => s.ethRead p w
  | .pciCtl => (word (b2n s.pcie.en + s.pcie.maxSpeed * 2), s)
  | .pciStat => (word (s.pcie.link + s.pcie.speed * 4 + s.pcie.width * 32 + s.pcie.aer * 2 ^ 16), s)
  | .pciWin => (word s.pcie.win, s)
  | .pciMem _ => s.pciRead

/-! ## Writing -/

/-- Registers of a sampler. -/
def State.smpWrite (s : State) (i k : Nat) (w : Word) : State :=
  match k with
  | 0 => s.writeSmpCtl i w
  | 1 => s.modSampler i (fun x => { x with list := field w 3 41 * 8 })
  | 2 => s.modSampler i (fun x => { x with ringBase := field w 6 38 * 64, ringLog := field w 44 5 })
  | _ => s

/-- Registers of a schedule context. -/
def State.sqRegWrite (s : State) (T k r : Nat) (w : Word) : State :=
  match r with
  | 0 => s.writeSqCtl T k w
  | 1 => s.modSq T k (fun q => { q with base := field w 6 38 * 64 })
  | _ => s

/-- Debug registers of a context (Table 9 of chapter 16). -/
def State.dbgWrite (s : State) (t : Tid) (r : Nat) (w : Word) : State :=
  match r with
  | 0 => s.writeDbgCtl t w
  | 1 => s.writeDbgPc t w
  | 2 => s.writeDbgProg t w
  | 3 => s
  | _ =>
    s.modCtx t (fun c =>
      { c with dbg :=
          if r < 8 then { c.dbg with bp := sput 0 c.dbg.bp (r - 4) (word (field w 0 48)) }
          else if r % 2 = 0 then { c.dbg with wpa := sput 0 c.dbg.wpa ((r - 8) / 2) w }
          else { c.dbg with wpc := sput 0 c.dbg.wpc ((r - 8) / 2) (word (field w 0 13)) } })

/-- Registers of an HBM controller. -/
def State.hbmWrite (s : State) (i r : Nat) (w : Word) : State :=
  match r with
  | 1 => if bit w 63 then s.modStack i (fun x => { x with max := x.temp }) else s
  | 2 => if bit w 63 then s.modStack i (fun x => { x with ce := 0, ue := 0 }) else s
  | 3 => s.modStack i (fun x => { x with periodNext := field w 0 8 })
  | _ => s

/-- Registers of a Stolon port. -/
def State.stpWrite (s : State) (p r : Nat) (w : Word) : State :=
  match r with
  | 0 =>
    let s1 := (s.modPort p (fun x => { x with c0Allot := field w 8 8 })).setPortEn p (bit w 0)
    if bit w 1 then s1.retrainPort p else s1
  | 2 => if bit w 63 then s.modPort p (fun x => { x with replays := 0, laneDrops := 0, downs := 0 }) else s
  | _ => s

/-- Registers of a service port: SIZE is written only while EN = 0. -/
def State.ethWrite (s : State) (p r : Nat) (w : Word) : State :=
  match r with
  | 0 => s.modEth p (fun x => { x with en := bit w 0, promisc := bit w 1, scanning := x.scanning && bit w 0 })
  | 2 => s.modEth p (fun x => { x with txSize := if x.en then x.txSize else field w 0 4, txBase := field w 6 38 * 64 })
  | 3 => s.modEth p (fun x => { x with rxSize := if x.en then x.rxSize else field w 0 4, rxBase := field w 6 38 * 64 })
  | 5 => s.writeEthDb p w
  | 6 => s.modEth p (fun x => { x with mac := field w 0 48 })
  | _ => s

/-- Bytes of a word written to a sparse array of bytes. -/
def bytesPut (m : Sparse Byte) (o : Nat) (w : Word) : Sparse Byte := (leBytes 8 w.toNat).zipIdx.foldl (fun m p => sput 0 m (o + p.2) p.1) m

/-- The registers that level 0 alone writes (chapter 1, Table 7 of chapter 14). -/
def CtlReg.machineOnly (r : CtlReg) : Bool :=
  match r with
  | .meshSlot | .meshArb | .meshStat | .c0DestLo | .c0DestHi | .routeOvr _ | .tbCtl | .tbOffset | .cnCtl => true
  | _ => false

/-- A write of a register of a node: its writable fields take the word's, and it acts as its own rule says; read-only
registers ignore it. -/
def State.regWrite (s : State) (node : Nat) (r : CtlReg) (w : Word) : State :=
  let T := (nodeTiller node).getD 0
  let onNode := fun (f : Node → Node) => s.modNode node f
  match r with
  | .halfReq => s.writeHalfReq w
  | .thlCmd => s.writeThlCmd w
  | .thlSrc => s.modLoader (fun l => { l with src := field w 6 38 * 64 })
  | .thlDrainLim => s.modLoader (fun l => { l with drainLim := field w 0 24 })
  | .xintTgt i => { s with xintTgt := sput 0 s.xintTgt i (field w 0 5) }
  | .cnReq => s.writeCnReq w
  | .cnWdog i => s.writeCnWdog i w
  | .relCmd => s.writeRelCmd w
  | .smp i k => s.smpWrite i k w
  | .pwrCap => s.modPower (fun p => { p with holridCap := field w 0 12 })
  | .alertSrc => s.modPower (fun p => { p with alertSrc := p.alertSrc &&& (0x3FF ^^^ field w 0 10) })
  | .alertEn => s.modPower (fun p => { p with alertEn := field w 0 10 })
  | .bootCmd => s.writeBootCmd w
  | .rstCmd => s.writeRstCmd w
  | .fuseReq => s.writeFuseReq w
  | .attCmd => s.writeAttCmd w
  | .measExt => s.writeMeasExt w
  | .flashBuf o => s.modBoot (fun b => { b with flashBuf := bytesPut b.flashBuf o w })
  | .tbCtl => s.modTime (fun t => { t with beaconPer := field w 8 8, stepped := t.stepped && !bit w 2 })
  | .meshSlot => onNode (fun n => { n with slot := (slotFixed w).1, slotfix := n.slotfix || (slotFixed w).2 })
  | .meshArb => onNode (fun n =>
      let m := { n with arb := arbBits w }
      { m with tokens0 := min m.tokens0 m.burst, tokens1 := min m.tokens1 m.burst })
  | .meshStat => onNode (fun n => { n with slotfix := n.slotfix && !bit w 48 })
  | .c0DestLo => onNode (fun n => { n with destLo := w })
  | .c0DestHi => onNode (fun n => { n with destHi := destHiBits w })
  | .routeOvr i => onNode (fun n => { n with ovr := sput 0 n.ovr i (ovrBits w) })
  | .cntSel j => s.writeCntSel node j w
  | .cntVal j => s.writeCntVal node j w
  | .cntCmd => s.writeCntCmd node w
  | .cntGrant => onNode (fun n => { n with grantFirst := field w 0 10, grantLast := field w 10 10, grantEn := bit w 20 })
  | .chep e => s.writeChep T e w
  | .crg i => s.writeCrg T i w
  | .aowStat => if bit w 63 then s.modTiller T (fun x => { x with aowInv := 0, aowOvf := 0 }) else s
  | .window i k =>
    if k = 0 then s.writeWindow0 T i w
    else s.modTiller T (fun x => { x with windows := sput {} x.windows i (let e := sget {} x.windows i; { e with w1Next := windowWord1 w }) })
  | .sramRas => if bit w 63 then s.modTiller T (fun x => { x with sramCe := 0, sramUe := 0 }) else s
  | .dch k => s.writeDch (.tiller T k) true w
  | .dchDesc k => s.writeDchDesc (.tiller T k) w
  | .evc i => s.setEvc T i (field w 0 32)
  | .sqReg k i => s.sqRegWrite T k i w
  | .sqBuf p k => if k = 0 then s.writeSqBuf T p w else s
  | .ths => s.modTh T (fun x => { x with stale := 0, imbal := 0 })
  | .thsPurged => s.modTh T (fun x => { x with purged := 0 })
  | .thsFlags => s.modTh T (fun x => { x with flags := x.flags &&& (0x7FF ^^^ field w 0 11) })
  | .thsWctl => s.writeWctl T w
  | .thq q => s.modQueue T q (fun x => { x with full := 0 })
  | .dbg t i => s.dbgWrite t i w
  | .hbm i => s.hbmWrite (((List.range 12).find? (fun i => stackNode i = node)).getD 0) i w
  | .stp p i => s.stpWrite p i w
  | .sessCmd => s.writeSessCmd (((List.range 16).find? (fun h => portNodeNode (2 * h) = node)).getD 0) w
  | .fabStat =>
    if bit w 63 then s.modPortNode (((List.range 16).find? (fun h => portNodeNode (2 * h) = node)).getD 0)
      (fun x => { x with hopDrop := 0, c0Deny := 0, lost := 0, mcPartial := 0 })
    else s
  | .cnCtl => s.writeCnCtl (((List.range 4).find? (fun i => culmNodeNode i = node)).getD 0) w
  | .cnRas =>
    if bit w 63 then s.modCulmNode (((List.range 4).find? (fun i => culmNodeNode i = node)).getD 0) (fun x => { x with ce := 0, cleanInv := 0 }) else s
  | .eth p i => s.ethWrite p i w
  | .pciCtl => { s with pcie := { s.pcie with en := bit w 0, maxSpeed := field w 1 3 } }
  | .pciWin => { s with pcie := { s.pcie with win := field w 22 42 * 2 ^ 22 } }
  | .pciMem o => { s with pcieMem := bytesPut s.pcieMem o w }
  | .lmIdent | .lmGeom _ | .halfState | .thlStatus | .regionState | .regionMode | .thlLastId | .regionBlocks _ | .cnState | .relStat
  | .hlHead | .hlLost | .healthLog _ | .pwrStat | .bootStat | .chainStat | .fuseStat | .fuseSerial | .meas _ _ | .tbOffset | .rachisStat
  | .tspare | .thsWstat | .thsFault | .twStat | .sessEntry _ _ | .pciStat => s

/-! ## Access (R490) -/

/-- Levels as numbers. -/
def lvlNum (l : Lvl) : Nat := match l with | .machine => 0 | .supervisor => 1 | .task => 2

/-- The number that names a register at `node`, where an access of `n` bytes at an offset names one: RESERVED_RANGE for an
unassigned offset, DENIED for an access that is not an aligned word or comes from level 2 (R427, R490, R491, R493). -/
def State.ctlCheck (s : State) (node o n : Nat) (scalar : Bool) (lvl : Nat) (who : Option Nat) (write : Bool) : Except Nat CtlReg :=
  if n ≠ 8 ∨ o % 8 ≠ 0 ∨ !scalar then .error dDenied
  else match ctlReg node o with
  | none => .error dReserved
  | some r =>
    if lvl ≤ 1 then (if write && r.machineOnly && lvl = 1 then .error dDenied else .ok r)
    else match r with
      | .lmIdent | .lmGeom _ => .ok r
      | .cntVal _ =>
        let x := s.node node
        let granted : Bool := match who with | some c => decide (x.grantFirst ≤ c) && decide (c ≤ x.grantLast) | none => false
        if !write && x.grantEn && granted then .ok r else .error dDenied
      | _ => .error dDenied

/-- The response a control-space access meets on its way, as for any address; a Culm core reaches the Keeper node over the
Keeper bus (R42, R490). -/
def State.ctlRoute (s : State) (t : Tid) (a : Nat) : Option Nat :=
  match locOf a with
  | .ctl 0 _ => if 1024 ≤ t.unit then none else s.routeErr (tidHalf t) a
  | _ => s.routeErr (tidHalf t) a

/-- A thread's load of `n` bytes from the control space at level `lvl`. -/
def State.ctlLoad (s : State) (t : Tid) (lvl a n : Nat) (scalar : Bool) : Except Nat (List Byte × State) :=
  match s.ctlRoute t a with
  | some e => .error e
  | none =>
    match locOf a with
    | .ctl node o =>
      match s.ctlCheck node o n scalar lvl (if t.unit < 1024 then some t.unit else none) false with
      | .error e => .error e
      | .ok r =>
        let x := s.regRead node r
        .ok (leBytes 8 x.1.toNat, x.2)
    | _ => .error dReserved

/-- A thread's store to the control space at level `lvl`: the DETAIL of the response, none for OK. -/
def State.ctlStore (s : State) (t : Tid) (lvl a : Nat) (d : List Byte) (scalar : Bool) : Option Nat × State :=
  match s.ctlRoute t a with
  | some e => (some e, s)
  | none =>
    match locOf a with
    | .ctl node o =>
      match s.ctlCheck node o d.length scalar lvl none true with
      | .error e => (some e, s)
      | .ok r => (none, s.regWrite node r (word (leNat d)))
    | _ => (some dReserved, s)

/-! ## Commands -/

/-- Whether a register write that no thread is named for reaches a node: over the Keeper bus, or on the mesh of a half that
takes traffic (R41, R78, R490). -/
def State.ctlReach (s : State) (node : Nat) : Bool := s.up && (node = 0 || s.reachable node)

/-- REGISTER_WRITE (R21): an aligned word written to a control register at a level. -/
def execRegisterWrite (lvl : Lvl) (addr : Nat) (w : Word) (s : State) : Out :=
  .next <|
    match locOf addr with
    | .ctl node o =>
      if !s.ctlReach node then s
      else match s.ctlCheck node o 8 true (lvlNum lvl) none true with
        | .ok r => s.regWrite node r w
        | .error _ => s
    | _ => s

/-! ## The test access port (R439, R440, R479) -/

/-- Whether the debug policy lets the TAP reach a local address. -/
def State.tapAllows (s : State) (a : Nat) : Bool :=
  match s.boot.debug with
  | 0 => true
  | 1 => s.boot.stage = 8 && s.boot.stop = 1 && match locOf a with | .ctl 0 o => o / 65536 = 0xB | _ => false
  | _ => false

/-- An 8-byte access of the TAP at level 0: the data or the DETAIL of an error response (R440). With the East half's mesh
closed it reaches its own node alone. -/
def State.tapGo (s : State) (a : Nat) (write : Bool) (w : Word) : Except Nat Word × State :=
  let h : Half := .east
  if s.blocked h ∧ s.destNode a ≠ some 99 ∧ s.destNode a ≠ none then (.error dParked, s)
  else match locOf a with
  | .ctl node o =>
    match s.routeErr h a with
    | some e => (.error e, s)
    | none =>
      match s.ctlCheck node o 8 true 0 none write with
      | .error e => (.error e, s)
      | .ok r => if write then (.ok 0, s.regWrite node r w) else let x := s.regRead node r; (.ok x.1, x.2)
  | .reserved => (.error dReserved, s)
  | _ =>
    if write then
      match s.creditedWrite h none a 8 none (fun s => s.writeAcc h a (leBytes 8 w.toNat)) with
      | (some e, s1) => (.error e, if e = dUncorrectable then s1.noteUe a else s1)
      | (none, s1) => (.ok 0, s1)
    else match s.readAcc h a 8 with
      | .error e => (.error e, if e = dUncorrectable then s.noteUe a else s)
      | .ok l => (.ok (word (leNat l)), s)

/-- TAP_ACCESS (R439, R440, R479): an Update-DR of ACCESS with GO = 1; the next Capture-DR shows its outcome. -/
def execTapAccess (dr : BitVec 112) (s : State) : Out :=
  .next <|
    let a := dr.toNat % 2 ^ 44
    let write := dr.getLsbD 44
    if !s.up || !dr.getLsbD 45 then s
    else
      let s0 : State := { s with tap := { s.tap with ir := 0x10 } }
      if !s.tapAllows a then { s0 with tap := { s0.tap with status := 3, detail := 0 } }
      else
        let r := s0.tapGo a write (word (dr.toNat / 2 ^ 48))
        match r.1 with
        | .error e => { r.2 with tap := { r.2.tap with status := 2, detail := e } }
        | .ok v => { r.2 with tap := { r.2.tap with status := 0, detail := 0, data := if write then r.2.tap.data else v } }

/-- TAP_RESET (R440): Test-Logic-Reset selects IDCODE. -/
def execTapReset (s : State) : Out := .next (if s.pwrGood then { s with tap := { s.tap with ir := 0x01 } } else s)

end Sys2Proof.Machine
end

