-- ==== Sys2Proof/Machine/Returns.lean ====
section
/-! DEFINITION. What comes back to a thread: the data of its loads, the acknowledgements of its posted stores, and the lines
that its core's cache missed (R86, R110, R159, R381). -/

namespace Sys2Proof.Machine

/-- Whether a thread's core takes responses: its clock runs and it is neither held by a takeover nor stopped (R83, R388,
R403). -/
def State.takesData (s : State) (t : Tid) : Bool :=
  s.up && s.clockOn (tidHalf t) &&
  if t.unit < 1024 then s.coreOpen t.unit
  else (s.culmNode ((t.unit - 1024) / 4)).st = 1 && !(s.culmCore (t.unit - 1024)).stopped

/-! ## Posted stores (R51, R86, R110, R159) -/

/-- Performs a posted store at its destination: a control register's at the store's level, memory's at its bank. The
control space takes no accumulate-on-write (R21, R220). -/
def State.performAny (s : State) (r : Req) : State :=
  if r.resp.isSome ∨ r.session.isSome ∨ !isCtl r.addr.toNat then s.performReq r
  else match r.kind with
    | .store d =>
      let x := s.ctlStore r.src r.level r.addr.toNat d r.scalar
      x.2.respond r.id (x.1.getD 0) r.addr
    | .aow _ _ => s.respond r.id (((s.ctlRoute r.src r.addr.toNat).getD dDenied)) r.addr
    | .load _ => s

/-- Performs a posted store after the earlier ones of its source to its destination (R51). -/
def State.performAll (s : State) (r : Req) : State := forAll (s.reqsUpTo r) s (fun s q => s.performAny q)

/-- A refusal of a credited write clears the slot that names its inbox (R229). -/
def State.creditRefused (s : State) (r : Req) : State :=
  match r.credit, r.resp with
  | some (h, _), some (d, _) =>
    if d = dDenied then
      match (s.ctx r.src).slotOf (h / 64) (h % 64) with
      | some k => s.modSlot r.src k CreditSlot.freed
      | none => s
    else s
  | _, _ => s

/-- Lets a thread that waits for room or for its accesses to complete try its instruction again. -/
def State.storeWake (s : State) (t : Tid) : State :=
  match (s.ctx t).wait with
  | some ⟨.postedRoom, _⟩ => (s.makeReady t).settleDebug t
  | some ⟨.drain, _⟩ => (s.makeReady t).settleDebug t
  | _ => s

/-- A posted store is complete when each of its writes is: the first write in order with an error response gives the
thread's DEFERRED_STORE (R86, R159). -/
def State.groupDone (s : State) (r : Req) : State :=
  let g := s.reqs.filter (fun q => q.group = r.group)
  if g.any (fun q => !q.acked) then s
  else
    let s1 : State := { s with reqs := s.reqs.filter (fun q => q.group ≠ r.group) }
    if r.dead then s1
    else
      let bad := g.findSome? (fun q => match q.resp with | some (d, a) => if d = 0 then none else some (a, d) | none => none)
      let s2 := match bad with
        | some e => s1.modCtx r.src (fun c => { c with deferred := some (c.deferred.getD e) })
        | none => s1
      s2.storeWake r.src

/-- POSTED_STORE_ACK (R86, R110): a posted store completes, or its error response is due at the thread's next boundary.
A remote write's response comes over its session first. -/
def execPostedStoreAck (req : Nat) (s : State) : Out :=
  .next <|
    match s.reqs.find? (fun r => r.id = req) with
    | none => s
    | some r =>
      if !s.up ∨ !s.clockOn (tidHalf r.src) ∨ r.isLoad ∨ r.acked then s
      else
        let s1 := s.performAll r
        match s1.reqs.find? (fun q => q.id = req) with
        | none => s1
        | some q =>
          if q.resp.isNone then s1
          else
            let s2 : State := { s1 with reqs := s1.reqs.map (fun (x : Req) => if x.id = req then { x with acked := true } else x) }
            (if q.dead then s2 else s2.creditRefused q).groupDone { q with acked := true }

/-! ## Loads (R86, R110, R136) -/

/-- Performs a thread's earlier stores to the node of a control register (R51). -/
def State.performCtl (s : State) (t : Tid) (a : Nat) : State :=
  forAll (s.reqs.filter (fun r => r.src = t && s.destNode r.addr.toNat = s.destNode a)) s (fun s r => s.performAny r)

/-- The bytes that a scalar load of `n` bytes brings: from a remote module, a control register or memory; else the DETAIL of
the error response and the address. -/
def State.scalarData (s : State) (t : Tid) (n : Nat) (tg : Target) : Except (Nat × Word × State) (List Byte × State) :=
  match tg with
  | .reserved a => .error (dReserved, a, s)
  | .remote _ _ _ =>
    match s.remoteLoads t with
    | [] => .error (dRemote, 0, s)
    | r :: _ => match r.resp with
      | some (0, _) => .ok (r.back, s.dropLoads t)
      | some (d, a) => .error (d, a, s.dropLoads t)
      | none => .error (dRemote, r.addr, s.dropLoads t)
  | .at' a _ =>
    if isCtl a then
      let s1 := s.performCtl t a
      match s1.ctlLoad t (s.ctx t).level a n true with
      | .ok r => .ok r
      | .error d => .error (d, word a, s1)
    else match s.threadRead t a n with
      | .ok r => .ok r
      | .error (d, s1) => .error (d, word a, s1)

/-- A scalar load ends: `fin` takes the data, or ACCESS_ERROR leaves the registers unchanged (R86, R110). -/
def State.scalarEnd (s : State) (t : Tid) (seg : Nat) (off : Word) (n : Nat) (fin : State → List Byte → State) : State :=
  let go := fun (s : State) (tg : Target) =>
    match s.scalarData t n tg with
    | .ok (l, s1) => fin s1 l
    | .error (d, a, s1) => s1.fault t 0xC d a
  match s.remoteLoads t with
  | r :: _ => go s (.remote (r.addr.toNat / 2 ^ 44) 0 (r.addr.toNat % 2 ^ 44))
  | [] => s.withAccess t seg off n n false go

/-- Ends the access of an instruction that waits for data. -/
def State.dataEnd (s : State) (t : Tid) (i : Instr) : State :=
  match i with
  | .load _ m => s.scalarEnd t m.seg.toNat (s.reg t m.base + m.disp) (sizeBytes m.size) (fun s l => s.loadWith t m l)
  | .ret _ _ => s.scalarEnd t 0 (s.sp t) 8 (fun s l => s.retWith t l)
  | .pop _ rd => s.scalarEnd t 0 (s.sp t) 8 (fun s l => s.popWith t rd l)
  | .vld _ m => s.vloadDone t m .unit
  | .vlds _ m => s.vloadDone t m .stride
  | .vgath _ m => s.vloadDone t m .index
  | .tld _ tt seg ra rb => s.tldGo t tt seg ra rb true
  | .tldx _ tt seg ra => s.tldxGo t tt seg ra true
  | .dmstart _ ra rb => s.dmStartNow t ra rb false
  | .dmarm _ ra rb => s.dmStartNow t ra rb true
  | _ => s

/-- A thread whose access has ended is READY unless it waits again or has been stopped. -/
def State.resume (s : State) (t : Tid) : State :=
  let s1 := s.modCtx t (fun c => { c with dbg := { c.dbg with skip := false } })
  match (s1.ctx t).st, (s1.ctx t).wait with
  | .waiting, none => (s1.makeReady t).settleDebug t
  | _, _ => s1

/-- LOAD_DATA_RETURN (R86, R110): the data a thread waits for has come, or an error response raises ACCESS_ERROR. A remote
load needs its response first; the access passed its watchpoints when it issued. -/
def execLoadDataReturn (t : Tid) (s : State) : Out :=
  onUnit (tidOk t) "thread" <|
    match (s.ctx t).st, (s.ctx t).wait with
    | .waiting, some ⟨.data, i⟩ =>
      if !s.takesData t || (s.remoteLoads t).any (fun r => r.resp.isNone) then s
      else
        let s0 := if t.unit < 1024 then s.dogRestart t.unit else s
        let s1 := s0.modCtx t (fun c => { c with wait := none, dbg := { c.dbg with skip := true } })
        (s1.dataEnd t i).resume t
    | _, _ => s

/-! ## Culm cache misses (R380, R381) -/

/-- The address of the access of a Culm core that misses `line`: its place in the line is its place in its page (R86). -/
def State.missAddr (s : State) (t : Tid) (line : Nat) (i : Instr) : Word :=
  let g := fun (n : Nat) => (segGet (s.ctx t).segs n).base
  let v : Word := match i with
    | .load _ m => g m.seg.toNat + s.reg t m.base + m.disp
    | .store _ m => g m.seg.toNat + s.reg t m.base + m.disp
    | .push _ _ => g 0 + s.sp t - 8
    | .call _ _ => g 0 + s.sp t - 8
    | _ => g 0 + s.sp t
  word (line * 64 + v.toNat % 64)

/-- CACHE_MISS_FILL (R380, R381): the whole line that a Culm core waits for arrives in its L2, whose victim is offered to
L3; an error response raises ACCESS_ERROR in the thread that waits. -/
def execCacheMissFill (k : Nat) (line : Nat) (victim l3Victim : Option Nat) (s : State) : Out :=
  let t : Tid := ⟨1024 + k, 0⟩
  onUnit (k < 16 && isCacheable (line * 64)) "cacheable line" <|
    match (s.ctx t).wait with
    | some ⟨.cacheLine l, i⟩ =>
      if l ≠ line ∨ !s.takesData t then s
      else
        let miss := !(s.line line).present
        let s0 := if miss then s.count (culmNodeNode (k / 4)) 0x80 (fun _ => true) 1 else s
        match s0.bringLine k line with
        | .error e =>
          let s1 := if e = dUncorrectable then s0.noteUe (line * 64) else s0
          s1.raiseWaiting t (faultAt s1 t 0xC e (s1.missAddr t line i))
        | .ok s1 =>
          let s2 := match victim with | some v => if v = line then s1 else s1.l2Evict k v l3Victim | none => s1
          (s2.fillL2 k line).lineHere k line
    | _ => s

end Sys2Proof.Machine
end

