-- ==== Sys2Proof/Machine/Dispatch.lean ====
section
/-! DEFINITION. The meaning of every command, one arm each. -/

namespace Sys2Proof.Machine

def exec (i : Instr) (s : State) : Host.Outcome State Fault Refusal :=
  match i with
  | .powerEnRise vin => Sys2Proof.Machine.execPowerEnRise vin s
  | .powerEnFall lowUs => Sys2Proof.Machine.execPowerEnFall lowUs s
  | .presentLChange mated => Sys2Proof.Machine.execPresentLChange mated s
  | .undervoltageOff => Sys2Proof.Machine.execUndervoltageOff s
  | .overvoltageOff => Sys2Proof.Machine.execOvervoltageOff s
  | .overcurrentOff => Sys2Proof.Machine.execOvercurrentOff s
  | .railOutOfRegulation => Sys2Proof.Machine.execRailOutOfRegulation s
  | .thermalTrip => Sys2Proof.Machine.execThermalTrip s
  | .modResetLLow lowUs => Sys2Proof.Machine.execModResetLLow lowUs s
  | .refclkLost => Sys2Proof.Machine.execRefclkLost s
  | .governorSample vin iin => Sys2Proof.Machine.execGovernorSample vin iin s
  | .governorLower => Sys2Proof.Machine.execGovernorLower s
  | .governorRaise => Sys2Proof.Machine.execGovernorRaise s
  | .fastThrottle => Sys2Proof.Machine.execFastThrottle s
  | .fastThrottleEnd => Sys2Proof.Machine.execFastThrottleEnd s
  | .dieSensorRead tdie tinlet => Sys2Proof.Machine.execDieSensorRead tdie tinlet s
  | .i3cRead addr index => Sys2Proof.Machine.execI3cRead addr index s
  | .i3cCarrierCapWrite w => Sys2Proof.Machine.execI3cCarrierCapWrite w s
  | .i3cAlertClear w => Sys2Proof.Machine.execI3cAlertClear w s
  | .i3cWithdraw w => Sys2Proof.Machine.execI3cWithdraw w s
  | .i3cDynamicAddress addr => Sys2Proof.Machine.execI3cDynamicAddress addr s
  | .resetEnd rackId slotId => Sys2Proof.Machine.execResetEnd rackId slotId s
  | .bootImageVerify => Sys2Proof.Machine.execBootImageVerify s
  | .bootMemoryDone r => Sys2Proof.Machine.execBootMemoryDone r s
  | .bootThatchDone => Sys2Proof.Machine.execBootThatchDone s
  | .bootHolridCopyDone => Sys2Proof.Machine.execBootHolridCopyDone s
  | .holridReady => Sys2Proof.Machine.execHolridReady s
  | .holridReadyTimeout => Sys2Proof.Machine.execHolridReadyTimeout s
  | .keeperWatchdogExpire => Sys2Proof.Machine.execKeeperWatchdogExpire s
  | .bypassOpen => Sys2Proof.Machine.execBypassOpen s
  | .bypassClosePlanned => Sys2Proof.Machine.execBypassClosePlanned s
  | .claimSend => Sys2Proof.Machine.execClaimSend s
  | .chainFrameReceive bytes => Sys2Proof.Machine.execChainFrameReceive bytes s
  | .claimReceive id serial => Sys2Proof.Machine.execClaimReceive id serial s
  | .objectReceive target => Sys2Proof.Machine.execObjectReceive target s
  | .claimWindowEnd => Sys2Proof.Machine.execClaimWindowEnd s
  | .rollCallRetry => Sys2Proof.Machine.execRollCallRetry s
  | .fuseRequest w => Sys2Proof.Machine.execFuseRequest w s
  | .attestationRequest w => Sys2Proof.Machine.execAttestationRequest w s
  | .measExtend w => Sys2Proof.Machine.execMeasExtend w s
  | .flashWindowCommand c => Sys2Proof.Machine.execFlashWindowCommand c s
  | .rstModule => Sys2Proof.Machine.execRstModule s
  | .rstRegion mask => Sys2Proof.Machine.execRstRegion mask s
  | .rstCore core => Sys2Proof.Machine.execRstCore core s
  | .rstLink port => Sys2Proof.Machine.execRstLink port s
  | .tapAccess dr => Sys2Proof.Machine.execTapAccess dr s
  | .tapReset => Sys2Proof.Machine.execTapReset s
  | .halfPark h => Sys2Proof.Machine.execHalfPark h s
  | .halfUnpark h => Sys2Proof.Machine.execHalfUnpark h s
  | .halfSetclk h coreF meshF => Sys2Proof.Machine.execHalfSetclk h coreF meshF s
  | .clockRaiseSupplyReady h => Sys2Proof.Machine.execClockRaiseSupplyReady h s
  | .parkDrainDone h => Sys2Proof.Machine.execParkDrainDone h s
  | .parkDrainTimeout h => Sys2Proof.Machine.execParkDrainTimeout h s
  | .unparkPllLocked h => Sys2Proof.Machine.execUnparkPllLocked h s
  | .unparkDone h => Sys2Proof.Machine.execUnparkDone h s
  | .rachisParkedAnswer h row cls req => Sys2Proof.Machine.execRachisParkedAnswer h row cls req s
  | .meshSlotWrite node w => Sys2Proof.Machine.execMeshSlotWrite node w s
  | .meshFrameStart h => Sys2Proof.Machine.execMeshFrameStart h s
  | .c0TokenAdd node => Sys2Proof.Machine.execC0TokenAdd node s
  | .meshFlitReceive node out plane cls err => Sys2Proof.Machine.execMeshFlitReceive node out plane cls err s
  | .beaconTimer => Sys2Proof.Machine.execBeaconTimer s
  | .beaconReqReceive port t1 => Sys2Proof.Machine.execBeaconReqReceive port t1 s
  | .beaconRspReceive t1 t2 t3 => Sys2Proof.Machine.execBeaconRspReceive t1 t2 t3 s
  | .tbHoldEnd => Sys2Proof.Machine.execTbHoldEnd s
  | .tbHoldover => Sys2Proof.Machine.execTbHoldover s
  | .thlDrain mask => Sys2Proof.Machine.execThlDrain mask s
  | .thlResume mask => Sys2Proof.Machine.execThlResume mask s
  | .thlLoad mask purge => Sys2Proof.Machine.execThlLoad mask purge s
  | .thlPurge mask => Sys2Proof.Machine.execThlPurge mask s
  | .regionQuiescent r => Sys2Proof.Machine.execRegionQuiescent r s
  | .regionDrainTimeout r => Sys2Proof.Machine.execRegionDrainTimeout r s
  | .regionWriteDone r => Sys2Proof.Machine.execRegionWriteDone r s
  | .regionCheckDone r res => Sys2Proof.Machine.execRegionCheckDone r res s
  | .shortAlu t op => Sys2Proof.Machine.execShortAlu t op s
  | .longAlu t op => Sys2Proof.Machine.execLongAlu t op s
  | .muldiv t op rd ra rb => Sys2Proof.Machine.execMuldiv t op rd ra rb s
  | .ins16 t rd k imm => Sys2Proof.Machine.execIns16 t rd k imm s
  | .load t m => Sys2Proof.Machine.execLoad t m s
  | .store t m => Sys2Proof.Machine.execStore t m s
  | .branch t b => Sys2Proof.Machine.execBranch t b s
  | .call t c => Sys2Proof.Machine.execCall t c s
  | .jr t len rs => Sys2Proof.Machine.execJr t len rs s
  | .ret t len => Sys2Proof.Machine.execRet t len s
  | .push t rs => Sys2Proof.Machine.execPush t rs s
  | .pop t rd => Sys2Proof.Machine.execPop t rd s
  | .addsp t imm => Sys2Proof.Machine.execAddsp t imm s
  | .nop t => Sys2Proof.Machine.execNop t s
  | .illegal t w => Sys2Proof.Machine.execIllegal t w s
  | .fenceL t => Sys2Proof.Machine.execFenceL t s
  | .fenceT t => Sys2Proof.Machine.execFenceT t s
  | .fenceG t => Sys2Proof.Machine.execFenceG t s
  | .syncI t => Sys2Proof.Machine.execSyncI t s
  | .mfs t rd x => Sys2Proof.Machine.execMfs t rd x s
  | .mts t x ra => Sys2Proof.Machine.execMts t x ra s
  | .retx t => Sys2Proof.Machine.execRetx t s
  | .brk t len => Sys2Proof.Machine.execBrk t len s
  | .gate t n => Sys2Proof.Machine.execGate t n s
  | .interruptTake t => Sys2Proof.Machine.execInterruptTake t s
  | .loadDataReturn t => Sys2Proof.Machine.execLoadDataReturn t s
  | .postedStoreAck req => Sys2Proof.Machine.execPostedStoreAck req s
  | .slotStart core => Sys2Proof.Machine.execSlotStart core s
  | .fork t rd ra rb => Sys2Proof.Machine.execFork t rd ra rb s
  | .join t rd ra => Sys2Proof.Machine.execJoin t rd ra s
  | .exit t ra => Sys2Proof.Machine.execExit t ra s
  | .ctxKill t w => Sys2Proof.Machine.execCtxKill t w s
  | .ctxReturn t w => Sys2Proof.Machine.execCtxReturn t w s
  | .ctxEnter t w => Sys2Proof.Machine.execCtxEnter t w s
  | .ctxContinue t w => Sys2Proof.Machine.execCtxContinue t w s
  | .ctxDataAccess t a => Sys2Proof.Machine.execCtxDataAccess t a s
  | .waitev t rd ra => Sys2Proof.Machine.execWaitev t rd ra s
  | .evpost t ra => Sys2Proof.Machine.execEvpost t ra s
  | .evinc t ra rb => Sys2Proof.Machine.execEvinc t ra rb s
  | .waitc t ra rb => Sys2Proof.Machine.execWaitc t ra rb s
  | .twdogExpire core => Sys2Proof.Machine.execTwdogExpire core s
  | .chput t ra idx => Sys2Proof.Machine.execChput t ra idx s
  | .chsend t ra rb => Sys2Proof.Machine.execChsend t ra rb s
  | .chrecv t rd ra => Sys2Proof.Machine.execChrecv t rd ra s
  | .chsendNb t rd ra rb => Sys2Proof.Machine.execChsendNb t rd ra rb s
  | .chrecvNb t rd ra => Sys2Proof.Machine.execChrecvNb t rd ra s
  | .chown t ra => Sys2Proof.Machine.execChown t ra s
  | .chrel t ra => Sys2Proof.Machine.execChrel t ra s
  | .channelCreditRequest t => Sys2Proof.Machine.execChannelCreditRequest t s
  | .channelCreditGrant t => Sys2Proof.Machine.execChannelCreditGrant t s
  | .channelMessageArrive tiller ep => Sys2Proof.Machine.execChannelMessageArrive tiller ep s
  | .chepWrite lvl tiller ep w => Sys2Proof.Machine.execChepWrite lvl tiller ep w s
  | .vecArith t op f => Sys2Proof.Machine.execVecArith t op f s
  | .vecCompare t op f => Sys2Proof.Machine.execVecCompare t op f s
  | .vsel t f => Sys2Proof.Machine.execVsel t f s
  | .vcvt t f src => Sys2Proof.Machine.execVcvt t f src s
  | .vld t m => Sys2Proof.Machine.execVld t m s
  | .vst t m => Sys2Proof.Machine.execVst t m s
  | .vlds t m => Sys2Proof.Machine.execVlds t m s
  | .vsts t m => Sys2Proof.Machine.execVsts t m s
  | .vgath t m => Sys2Proof.Machine.execVgath t m s
  | .vscat t m => Sys2Proof.Machine.execVscat t m s
  | .vecReduce t op f => Sys2Proof.Machine.execVecReduce t op f s
  | .vecSpecial t op f => Sys2Proof.Machine.execVecSpecial t op f s
  | .vmvg t f => Sys2Proof.Machine.execVmvg t f s
  | .vins t f => Sys2Proof.Machine.execVins t f s
  | .vqmx t mx vd va vb => Sys2Proof.Machine.execVqmx t mx vd va vb s
  | .vdqmx t mx vd va blk => Sys2Proof.Machine.execVdqmx t mx vd va blk s
  | .vsplit t piece vd va vb => Sys2Proof.Machine.execVsplit t piece vd va vb s
  | .vcvt8 t e5m2 vd va vb => Sys2Proof.Machine.execVcvt8 t e5m2 vd va vb s
  | .vcvtf8 t e5m2 vd va upper => Sys2Proof.Machine.execVcvtf8 t e5m2 vd va upper s
  | .mma t m => Sys2Proof.Machine.execMma t m s
  | .mmaAccept core => Sys2Proof.Machine.execMmaAccept core s
  | .mmaStart core => Sys2Proof.Machine.execMmaStart core s
  | .mmaComplete core sentinel => Sys2Proof.Machine.execMmaComplete core sentinel s
  | .mmaG t m => Sys2Proof.Machine.execMmaG t m s
  | .tld t tt seg ra rb => Sys2Proof.Machine.execTld t tt seg ra rb s
  | .tldx t tt seg ra => Sys2Proof.Machine.execTldx t tt seg ra s
  | .tst t tt seg ra rb => Sys2Proof.Machine.execTst t tt seg ra rb s
  | .tstx t tt seg ra => Sys2Proof.Machine.execTstx t tt seg ra s
  | .tzero t tt rb => Sys2Proof.Machine.execTzero t tt rb s
  | .tcast t tt rb => Sys2Proof.Machine.execTcast t tt rb s
  | .trdv t tt ra v => Sys2Proof.Machine.execTrdv t tt ra v s
  | .twrv t tt ra v => Sys2Proof.Machine.execTwrv t tt ra v s
  | .gang t ra => Sys2Proof.Machine.execGang t ra s
  | .ungang t => Sys2Proof.Machine.execUngang t s
  | .tsync t => Sys2Proof.Machine.execTsync t s
  | .aow t op rs ra seg disp => Sys2Proof.Machine.execAow t op rs ra seg disp s
  | .aowBankPerform req => Sys2Proof.Machine.execAowBankPerform req s
  | .crq t rd ra n => Sys2Proof.Machine.execCrq t rd ra n s
  | .crret t ra n => Sys2Proof.Machine.execCrret t ra n s
  | .crrel t ra => Sys2Proof.Machine.execCrrel t ra s
  | .crstat t rd ra => Sys2Proof.Machine.execCrstat t rd ra s
  | .inboxCreditRequest t slot => Sys2Proof.Machine.execInboxCreditRequest t slot s
  | .inboxCreditGrant t slot => Sys2Proof.Machine.execInboxCreditGrant t slot s
  | .creditedWriteArrive req => Sys2Proof.Machine.execCreditedWriteArrive req s
  | .crgAvailWrite tiller inbox w => Sys2Proof.Machine.execCrgAvailWrite tiller inbox w s
  | .sramRead addr => Sys2Proof.Machine.execSramRead addr s
  | .sramScrub st => Sys2Proof.Machine.execSramScrub st s
  | .sramBankFail st bank => Sys2Proof.Machine.execSramBankFail st bank s
  | .dmstart t ra rb => Sys2Proof.Machine.execDmstart t ra rb s
  | .dmstat t rd rb => Sys2Proof.Machine.execDmstat t rd rb s
  | .dmen t ra rb => Sys2Proof.Machine.execDmen t ra rb s
  | .dmarm t ra rb => Sys2Proof.Machine.execDmarm t ra rb s
  | .dchDescStart tiller ch w => Sys2Proof.Machine.execDchDescStart tiller ch w s
  | .dchEnWrite c w => Sys2Proof.Machine.execDchEnWrite c w s
  | .dmaBurstIssue e => Sys2Proof.Machine.execDmaBurstIssue e s
  | .dmaReadReturn c => Sys2Proof.Machine.execDmaReadReturn c s
  | .dmaWriteAck c => Sys2Proof.Machine.execDmaWriteAck c s
  | .dmaDrainEnd c => Sys2Proof.Machine.execDmaDrainEnd c s
  | .dmaCreditGrant c => Sys2Proof.Machine.execDmaCreditGrant c s
  | .stepIssue tiller sx => Sys2Proof.Machine.execStepIssue tiller sx s
  | .stepCommit tiller sx => Sys2Proof.Machine.execStepCommit tiller sx s
  | .commitFlipArrive tiller pair => Sys2Proof.Machine.execCommitFlipArrive tiller pair s
  | .evcIncrement tiller ctr => Sys2Proof.Machine.execEvcIncrement tiller ctr s
  | .evcWrite tiller ctr w => Sys2Proof.Machine.execEvcWrite tiller ctr w s
  | .sqStart tiller sx w => Sys2Proof.Machine.execSqStart tiller sx w s
  | .sqStop tiller sx => Sys2Proof.Machine.execSqStop tiller sx s
  | .sqResume tiller sx => Sys2Proof.Machine.execSqResume tiller sx s
  | .sqAbort tiller sx => Sys2Proof.Machine.execSqAbort tiller sx s
  | .sqAborted tiller sx => Sys2Proof.Machine.execSqAborted tiller sx s
  | .sqBufLiveWrite tiller pair w => Sys2Proof.Machine.execSqBufLiveWrite tiller pair w s
  | .stepFault tiller sx f => Sys2Proof.Machine.execStepFault tiller sx f s
  | .stepReplayIssue tiller sx => Sys2Proof.Machine.execStepReplayIssue tiller sx s
  | .dupSelftest tiller sx failed => Sys2Proof.Machine.execDupSelftest tiller sx failed s
  | .takeoverCopyDone tiller fault => Sys2Proof.Machine.execTakeoverCopyDone tiller fault s
  | .coreFaultUnstepped core => Sys2Proof.Machine.execCoreFaultUnstepped core s
  | .waveStart region => Sys2Proof.Machine.execWaveStart region s
  | .waveCommit region => Sys2Proof.Machine.execWaveCommit region s
  | .unitFire unit => Sys2Proof.Machine.execUnitFire unit s
  | .tokenArrive tiller queue => Sys2Proof.Machine.execTokenArrive tiller queue s
  | .tokenCreditReturn tiller queue => Sys2Proof.Machine.execTokenCreditReturn tiller queue s
  | .thsStart region => Sys2Proof.Machine.execThsStart region s
  | .thsStop region => Sys2Proof.Machine.execThsStop region s
  | .thsResume region => Sys2Proof.Machine.execThsResume region s
  | .thsAbort region => Sys2Proof.Machine.execThsAbort region s
  | .arrayPurgeEpochAck region => Sys2Proof.Machine.execArrayPurgeEpochAck region s
  | .waveFault region f => Sys2Proof.Machine.execWaveFault region f s
  | .waveTimeout region => Sys2Proof.Machine.execWaveTimeout region s
  | .hbmRead addr len => Sys2Proof.Machine.execHbmRead addr len s
  | .hbmWrite req => Sys2Proof.Machine.execHbmWrite req s
  | .hbmPatrolScrub stack => Sys2Proof.Machine.execHbmPatrolScrub stack s
  | .hbmRowRepair stack bank row => Sys2Proof.Machine.execHbmRowRepair stack bank row s
  | .hbmLaneRepair pc removable => Sys2Proof.Machine.execHbmLaneRepair pc removable s
  | .hbmTempRead stack temp => Sys2Proof.Machine.execHbmTempRead stack temp s
  | .hbmRefresh stack => Sys2Proof.Machine.execHbmRefresh stack s
  | .stpEnable port => Sys2Proof.Machine.execStpEnable port s
  | .stpDisable port => Sys2Proof.Machine.execStpDisable port s
  | .stpRetrain port => Sys2Proof.Machine.execStpRetrain port s
  | .identReceive port id => Sys2Proof.Machine.execIdentReceive port id s
  | .identTimeout port => Sys2Proof.Machine.execIdentTimeout port s
  | .refusedRetrain port => Sys2Proof.Machine.execRefusedRetrain port s
  | .dataFlitReceive port f => Sys2Proof.Machine.execDataFlitReceive port f s
  | .nakReceive port seq => Sys2Proof.Machine.execNakReceive port seq s
  | .ackReceive port seq => Sys2Proof.Machine.execAckReceive port seq s
  | .ackTimer port => Sys2Proof.Machine.execAckTimer port s
  | .ackStallTimeout port => Sys2Proof.Machine.execAckStallTimeout port s
  | .laneDrop port lane => Sys2Proof.Machine.execLaneDrop port lane s
  | .linkStateReceive port lastSeq => Sys2Proof.Machine.execLinkStateReceive port lastSeq s
  | .linkStateTimeout port => Sys2Proof.Machine.execLinkStateTimeout port s
  | .routeHoldExpire dest => Sys2Proof.Machine.execRouteHoldExpire dest s
  | .sessionRequest r => Sys2Proof.Machine.execSessionRequest r s
  | .tagTimeout tag => Sys2Proof.Machine.execTagTimeout tag s
  | .sessOpen node w => Sys2Proof.Machine.execSessOpen node w s
  | .sessClose node w => Sys2Proof.Machine.execSessClose node w s
  | .sessCloseTimeout sess => Sys2Proof.Machine.execSessCloseTimeout sess s
  | .creditBusyRetry sess => Sys2Proof.Machine.execCreditBusyRetry sess s
  | .rdReceive port p => Sys2Proof.Machine.execRdReceive port p s
  | .wrReceive port p => Sys2Proof.Machine.execWrReceive port p s
  | .aowPacketReceive port op p => Sys2Proof.Machine.execAowPacketReceive port op p s
  | .evincPacketReceive port origin tiller ctr amount => Sys2Proof.Machine.execEvincPacketReceive port origin tiller ctr amount s
  | .mcastWrReceive port group p => Sys2Proof.Machine.execMcastWrReceive port group p s
  | .creditReqReceive port origin tag handle n => Sys2Proof.Machine.execCreditReqReceive port origin tag handle n s
  | .creditRetReceive handle count gen => Sys2Proof.Machine.execCreditRetReceive handle count gen s
  | .rdRspReceive tag status data => Sys2Proof.Machine.execRdRspReceive tag status data s
  | .wrAckReceive tag status => Sys2Proof.Machine.execWrAckReceive tag status s
  | .creditGrantReceive sess status count gen => Sys2Proof.Machine.execCreditGrantReceive sess status count gen s
  | .mcAckReceive port tag partialFail => Sys2Proof.Machine.execMcAckReceive port tag partialFail s
  | .withdrawFlitReceive port => Sys2Proof.Machine.execWithdrawFlitReceive port s
  | .c0PortRelease port => Sys2Proof.Machine.execC0PortRelease port s
  | .remoteWindowWrite tiller idx w => Sys2Proof.Machine.execRemoteWindowWrite tiller idx w s
  | .cflush t ra n => Sys2Proof.Machine.execCflush t ra n s
  | .cflushi t ra n => Sys2Proof.Machine.execCflushi t ra n s
  | .tlbi t ra all => Sys2Proof.Machine.execTlbi t ra all s
  | .tlbia t ra every all => Sys2Proof.Machine.execTlbia t ra every all s
  | .wfi t => Sys2Proof.Machine.execWfi t s
  | .cacheMissFill k line victim l3Victim => Sys2Proof.Machine.execCacheMissFill k line victim l3Victim s
  | .prefetchFill k line => Sys2Proof.Machine.execPrefetchFill k line s
  | .coherenceProbe k line exclusive => Sys2Proof.Machine.execCoherenceProbe k line exclusive s
  | .culmCacheError k e line => Sys2Proof.Machine.execCulmCacheError k e line s
  | .culmNodeFail node cause => Sys2Proof.Machine.execCulmNodeFail node cause s
  | .cnStop node => Sys2Proof.Machine.execCnStop node s
  | .cnStart node => Sys2Proof.Machine.execCnStart node s
  | .cnGoE node => Sys2Proof.Machine.execCnGoE node s
  | .cnTest node => Sys2Proof.Machine.execCnTest node s
  | .cnSweepEnd node => Sys2Proof.Machine.execCnSweepEnd node s
  | .cnWdogKick node => Sys2Proof.Machine.execCnWdogKick node s
  | .cnWdogExpire node => Sys2Proof.Machine.execCnWdogExpire node s
  | .culmRestart node rowsMapped ok => Sys2Proof.Machine.execCulmRestart node rowsMapped ok s
  | .ipiSend t w => Sys2Proof.Machine.execIpiSend t w s
  | .tmrCmpWrite t w => Sys2Proof.Machine.execTmrCmpWrite t w s
  | .timerMatch k => Sys2Proof.Machine.execTimerMatch k s
  | .ethDbTx p w => Sys2Proof.Machine.execEthDbTx p w s
  | .ethTxFrameSent p => Sys2Proof.Machine.execEthTxFrameSent p s
  | .ethFrameReceive p frame fcsOk => Sys2Proof.Machine.execEthFrameReceive p frame fcsOk s
  | .ethLinkChange p link => Sys2Proof.Machine.execEthLinkChange p link s
  | .pcieInboundWrite addr data relaxed => Sys2Proof.Machine.execPcieInboundWrite addr data relaxed s
  | .pcieInboundRead addr len => Sys2Proof.Machine.execPcieInboundRead addr len s
  | .pcieMsi data => Sys2Proof.Machine.execPcieMsi data s
  | .pcieLinkChange link speed width err => Sys2Proof.Machine.execPcieLinkChange link speed width err s
  | .mirrorWriteArrived tiller pair ok => Sys2Proof.Machine.execMirrorWriteArrived tiller pair ok s
  | .mirrorBackgroundCopy tiller pair => Sys2Proof.Machine.execMirrorBackgroundCopy tiller pair s
  | .relWithdraw cause => Sys2Proof.Machine.execRelWithdraw cause s
  | .withdrawDrainEnd => Sys2Proof.Machine.execWithdrawDrainEnd s
  | .withdrawCopyEnd => Sys2Proof.Machine.execWithdrawCopyEnd s
  | .withdrawComplete => Sys2Proof.Machine.execWithdrawComplete s
  | .healthReport r => Sys2Proof.Machine.execHealthReport r s
  | .otcClr t ra => Sys2Proof.Machine.execOtcClr t ra s
  | .cntReset node => Sys2Proof.Machine.execCntReset node s
  | .smpEnable idx w => Sys2Proof.Machine.execSmpEnable idx w s
  | .smpDisable idx w => Sys2Proof.Machine.execSmpDisable idx w s
  | .sampleDue idx => Sys2Proof.Machine.execSampleDue idx s
  | .sampleWritten idx => Sys2Proof.Machine.execSampleWritten idx s
  | .watchRecordArrived tiller sx => Sys2Proof.Machine.execWatchRecordArrived tiller sx s
  | .dbgHalt t => Sys2Proof.Machine.execDbgHalt t s
  | .dbgResume t => Sys2Proof.Machine.execDbgResume t s
  | .dbgStep t => Sys2Proof.Machine.execDbgStep t s
  | .dbgPcWrite t w => Sys2Proof.Machine.execDbgPcWrite t w s
  | .registerWrite lvl addr w => Sys2Proof.Machine.execRegisterWrite lvl addr w s
  | .railsInRegulation => Sys2Proof.Machine.execRailsInRegulation s
  | .disabledChannelTagReclaim c => Sys2Proof.Machine.execDisabledChannelTagReclaim c s
  | .pcieIntxMessage => Sys2Proof.Machine.execPcieIntxMessage s
  | .relRateExpire tiller => Sys2Proof.Machine.execRelRateExpire tiller s
  | .pcCommandPathFailure pc => Sys2Proof.Machine.execPcCommandPathFailure pc s

end Sys2Proof.Machine
end

