-- ==== Sys2Proof/Machine/Step.lean ====
section
/-! DEFINITION. One step: the command at the front of the queue, or a nanosecond of the time base. -/

namespace Sys2Proof.Machine

/-- With no command waiting, a step is 1 ns of the time base: `TB` counts unless it holds, faster or slower by SLEW, whose
parts of a nanosecond add up (R45, R49; log entry 4). -/
def State.tick (s : State) : State :=
  if s.time.counting then
    s.modTime (fun x =>
      { x with tb := (x.tb + (1 + (x.frac + x.slew) / 100000000).toNat) % 2 ^ 63, frac := (x.frac + x.slew) % 100000000 })
  else s

/-- The command at the front of the queue, with the queue's rest; an empty queue ticks. -/
def step (s : State) : Host.Outcome State Fault Refusal :=
  match s.pending with
  | [] => .next s.tick
  | c :: rest => exec c { s with pending := rest }

/-- A command that a table word spells, put at the front of the queue; no word spells one. -/
def State.withFetchWord (s : State) (nbits w : Nat) : State :=
  match decodeTableWord nbits w with
  | some c => { s with pending := c :: s.pending }
  | none => s

end Sys2Proof.Machine
end

