-- ==== Sys2Proof/WellFormed.lean ====
section
/-! DEFINITION. Well-formed commands: every unit a command names is one that the module has (R9 to R15). The values of
registers, addresses and data are as wide as their types; an instruction's reserved encodings are ILLEGAL's operands, not
ill-formed commands. -/

namespace Sys2Proof

/-- A thread: eight contexts of 1,024 compute cores, one of each of 16 Culm cores (R12, R123, R124). -/
def thread (t : Tid) : Bool := (t.unit < 1024 && t.ctx < 8) || (1024 ≤ t.unit && t.unit < 1040 && t.ctx = 0)

/-- A DMA channel (R233). -/
def channel (c : ChanRef) : Bool := match c with | .core n k => n < 1024 && k < 8 | .tiller t k => t < 64 && k < 32

/-- A DMA engine (R233). -/
def engine (e : EngRef) : Bool := match e with | .core n => n < 1024 | .tiller t => t < 64

/-- An on-die store (Table 1 of chapter 8). -/
def storeNamed (st : StoreRef) : Bool := match st with | .eb c | .clm c => c < 1024 | .tm t | .cs t => t < 64

/-- Banks of an on-die store (Tables 2 and 3 of chapter 8). -/
def banks (st : StoreRef) : Nat := match st with | .eb _ => 16 | .clm _ => 32 | .tm _ => 64 | .cs _ => 16

/-- Whether a router has a link in a direction: the mesh is 10 by 10 (R9, R24). -/
def hasLink (node : Nat) (d : Dir) : Bool :=
  match d with | .north => 10 ≤ node | .east => node % 10 ≠ 9 | .south => node < 90 | .west => node % 10 ≠ 0

/-- Whether a step fault's core lies in the tiller whose sequencer takes it (R280). -/
def faultHere (tiller : Nat) (f : StepFault) : Bool :=
  match f with
  | .sentinel c => c / 16 = tiller
  | .coreFault c => c / 16 = tiller
  | _ => true

/-- A unit handle of a kind that exists in a tiller that exists (R290). -/
def unitHandle (u : BitVec 16) : Bool :=
  u.toNat % 8 ≤ 4 && (if u.toNat % 8 ≤ 2 then u.toNat / 64 / 16 else u.toNat / 64) < 64

/-- A transaction tag (R350). -/
def tagOk (t : Tag) : Bool := t.node < 16 && t.num < 8192

/-- A line of HBM or of the common store, which the Culm caches hold (R379). -/
def cacheable (line : Nat) : Bool :=
  line * 64 < 0xC000000000 || (0x10000000000 ≤ line * 64 && line * 64 < 0x10010000000)

/-- Whether a command names only units that exist. -/
def Instr.wellFormed (i : Instr) : Bool :=
  match i with
  | .powerEnRise _ => true
  | .powerEnFall _ => true
  | .presentLChange _ => true
  | .undervoltageOff => true
  | .overvoltageOff => true
  | .overcurrentOff => true
  | .railOutOfRegulation => true
  | .thermalTrip => true
  | .modResetLLow _ => true
  | .refclkLost => true
  | .governorSample _ _ => true
  | .governorLower => true
  | .governorRaise => true
  | .fastThrottle => true
  | .fastThrottleEnd => true
  | .dieSensorRead _ _ => true
  | .i3cRead _ _ => true
  | .i3cCarrierCapWrite _ => true
  | .i3cAlertClear _ => true
  | .i3cWithdraw _ => true
  | .i3cDynamicAddress _ => true
  | .resetEnd _ _ => true
  | .bootImageVerify => true
  | .bootMemoryDone _ => true
  | .bootThatchDone => true
  | .bootHolridCopyDone => true
  | .holridReady => true
  | .holridReadyTimeout => true
  | .keeperWatchdogExpire => true
  | .bypassOpen => true
  | .bypassClosePlanned => true
  | .claimSend => true
  | .chainFrameReceive _ => true
  | .claimReceive _ _ => true
  | .objectReceive _ => true
  | .claimWindowEnd => true
  | .rollCallRetry => true
  | .fuseRequest _ => true
  | .attestationRequest _ => true
  | .measExtend _ => true
  | .flashWindowCommand _ => true
  | .rstModule => true
  | .rstRegion _ => true
  | .rstCore core => core < 1024
  | .rstLink port => port < 32
  | .tapAccess _ => true
  | .tapReset => true
  | .halfPark _ => true
  | .halfUnpark _ => true
  | .halfSetclk _ _ _ => true
  | .clockRaiseSupplyReady _ => true
  | .parkDrainDone _ => true
  | .parkDrainTimeout _ => true
  | .unparkPllLocked _ => true
  | .unparkDone _ => true
  | .rachisParkedAnswer _ row _ _ => row < 10
  | .meshSlotWrite node _ => node < 100
  | .meshFrameStart _ => true
  | .c0TokenAdd node => node < 100
  | .meshFlitReceive node out plane _ _ => node < 100 && plane < 2 && hasLink node out
  | .beaconTimer => true
  | .beaconReqReceive port _ => port < 32
  | .beaconRspReceive _ _ _ => true
  | .tbHoldEnd => true
  | .tbHoldover => true
  | .thlDrain _ => true
  | .thlResume _ => true
  | .thlLoad _ _ => true
  | .thlPurge _ => true
  | .regionQuiescent r => r < 16
  | .regionDrainTimeout r => r < 16
  | .regionWriteDone r => r < 16
  | .regionCheckDone r _ => r < 16
  | .shortAlu t _ => thread t
  | .longAlu t _ => thread t
  | .muldiv t _ _ _ _ => thread t
  | .ins16 t _ _ _ => thread t
  | .load t _ => thread t
  | .store t _ => thread t
  | .branch t _ => thread t
  | .call t _ => thread t
  | .jr t _ _ => thread t
  | .ret t _ => thread t
  | .push t _ => thread t
  | .pop t _ => thread t
  | .addsp t _ => thread t
  | .nop t => thread t
  | .illegal t _ => thread t
  | .fenceL t => thread t
  | .fenceT t => thread t
  | .fenceG t => thread t
  | .syncI t => thread t
  | .mfs t _ _ => thread t
  | .mts t _ _ => thread t
  | .retx t => thread t
  | .brk t _ => thread t
  | .gate t _ => thread t
  | .interruptTake t => thread t
  | .loadDataReturn t => thread t
  | .postedStoreAck _ => true
  | .slotStart core => core < 1024
  | .fork t _ _ _ => thread t
  | .join t _ _ => thread t
  | .exit t _ => thread t
  | .ctxKill t _ => thread t
  | .ctxReturn t _ => thread t
  | .ctxEnter t _ => thread t
  | .ctxContinue t _ => thread t
  | .ctxDataAccess t _ => thread t
  | .waitev t _ _ => thread t
  | .evpost t _ => thread t
  | .evinc t _ _ => thread t
  | .waitc t _ _ => thread t
  | .twdogExpire core => core < 1024
  | .chput t _ _ => thread t
  | .chsend t _ _ => thread t
  | .chrecv t _ _ => thread t
  | .chsendNb t _ _ _ => thread t
  | .chrecvNb t _ _ => thread t
  | .chown t _ => thread t
  | .chrel t _ => thread t
  | .channelCreditRequest t => thread t && t.unit < 1024
  | .channelCreditGrant t => thread t && t.unit < 1024
  | .channelMessageArrive tiller ep => tiller < 64 && ep < 256
  | .chepWrite _ tiller ep _ => tiller < 64 && ep < 256
  | .vecArith t _ _ => thread t
  | .vecCompare t _ _ => thread t
  | .vsel t _ => thread t
  | .vcvt t _ _ => thread t
  | .vld t _ => thread t
  | .vst t _ => thread t
  | .vlds t _ => thread t
  | .vsts t _ => thread t
  | .vgath t _ => thread t
  | .vscat t _ => thread t
  | .vecReduce t _ _ => thread t
  | .vecSpecial t _ _ => thread t
  | .vmvg t _ => thread t
  | .vins t _ => thread t
  | .vqmx t _ _ _ _ => thread t
  | .vdqmx t _ _ _ _ => thread t
  | .vsplit t _ _ _ _ => thread t
  | .vcvt8 t _ _ _ _ => thread t
  | .vcvtf8 t _ _ _ _ => thread t
  | .mma t _ => thread t
  | .mmaAccept core => core < 1024
  | .mmaStart core => core < 1024
  | .mmaComplete core _ => core < 1024
  | .mmaG t _ => thread t
  | .tld t _ _ _ _ => thread t
  | .tldx t _ _ _ => thread t
  | .tst t _ _ _ _ => thread t
  | .tstx t _ _ _ => thread t
  | .tzero t _ _ => thread t
  | .tcast t _ _ => thread t
  | .trdv t _ _ _ => thread t
  | .twrv t _ _ _ => thread t
  | .gang t _ => thread t
  | .ungang t => thread t
  | .tsync t => thread t
  | .aow t _ _ _ _ _ => thread t
  | .aowBankPerform _ => true
  | .crq t _ _ _ => thread t
  | .crret t _ _ => thread t
  | .crrel t _ => thread t
  | .crstat t _ _ => thread t
  | .inboxCreditRequest t _ => thread t
  | .inboxCreditGrant t _ => thread t
  | .creditedWriteArrive _ => true
  | .crgAvailWrite tiller inbox _ => tiller < 64 && inbox < 64
  | .sramRead _ => true
  | .sramScrub st => storeNamed st
  | .sramBankFail st bank => storeNamed st && bank < banks st
  | .dmstart t _ _ => thread t
  | .dmstat t _ _ => thread t
  | .dmen t _ _ => thread t
  | .dmarm t _ _ => thread t
  | .dchDescStart tiller ch _ => tiller < 64 && ch < 32
  | .dchEnWrite c _ => channel c
  | .dmaBurstIssue e => engine e
  | .dmaReadReturn c => channel c
  | .dmaWriteAck c => channel c
  | .dmaDrainEnd c => channel c
  | .dmaCreditGrant c => channel c
  | .stepIssue tiller sx => tiller < 64 && sx < 8
  | .stepCommit tiller sx => tiller < 64 && sx < 8
  | .commitFlipArrive tiller pair => tiller < 64 && pair < 64
  | .evcIncrement tiller ctr => tiller < 64 && ctr < 256
  | .evcWrite tiller ctr _ => tiller < 64 && ctr < 256
  | .sqStart tiller sx _ => tiller < 64 && sx < 8
  | .sqStop tiller sx => tiller < 64 && sx < 8
  | .sqResume tiller sx => tiller < 64 && sx < 8
  | .sqAbort tiller sx => tiller < 64 && sx < 8
  | .sqAborted tiller sx => tiller < 64 && sx < 8
  | .sqBufLiveWrite tiller pair _ => tiller < 64 && pair < 64
  | .stepFault tiller sx f => tiller < 64 && sx < 8 && faultHere tiller f
  | .stepReplayIssue tiller sx => tiller < 64 && sx < 8
  | .dupSelftest tiller sx failed => tiller < 64 && sx < 8 && failed.all (fun c => decide (c < 16))
  | .takeoverCopyDone tiller _ => tiller < 64
  | .coreFaultUnstepped core => core < 1024
  | .waveStart region => region < 16
  | .waveCommit region => region < 16
  | .unitFire unit => unitHandle unit
  | .tokenArrive tiller queue => tiller < 64 && queue < 512
  | .tokenCreditReturn tiller queue => tiller < 64 && queue < 512
  | .thsStart region => region < 16
  | .thsStop region => region < 16
  | .thsResume region => region < 16
  | .thsAbort region => region < 16
  | .arrayPurgeEpochAck region => region < 16
  | .waveFault region _ => region < 16
  | .waveTimeout region => region < 16
  | .hbmRead addr len => addr + len ≤ 0xC000000000
  | .hbmWrite _ => true
  | .hbmPatrolScrub stack => stack < 12
  | .hbmRowRepair stack _ _ => stack < 12
  | .hbmLaneRepair pc _ => pc < 384
  | .hbmTempRead stack _ => stack < 12
  | .hbmRefresh stack => stack < 12
  | .stpEnable port => port < 32
  | .stpDisable port => port < 32
  | .stpRetrain port => port < 32
  | .identReceive port _ => port < 32
  | .identTimeout port => port < 32
  | .refusedRetrain port => port < 32
  | .dataFlitReceive port _ => port < 32
  | .nakReceive port _ => port < 32
  | .ackReceive port _ => port < 32
  | .ackTimer port => port < 32
  | .ackStallTimeout port => port < 32
  | .laneDrop port _ => port < 32
  | .linkStateReceive port _ => port < 32
  | .linkStateTimeout port => port < 32
  | .routeHoldExpire _ => true
  | .sessionRequest r => r.sess < 16384
  | .tagTimeout tag => tagOk tag
  | .sessOpen node _ => node < 16
  | .sessClose node _ => node < 16
  | .sessCloseTimeout sess => sess < 16384
  | .creditBusyRetry sess => sess < 16384
  | .rdReceive port _ => port < 32
  | .wrReceive port _ => port < 32
  | .aowPacketReceive port _ _ => port < 32
  | .evincPacketReceive port _ _ _ _ => port < 32
  | .mcastWrReceive port _ _ => port < 32
  | .creditReqReceive port _ _ _ _ => port < 32
  | .creditRetReceive _ _ _ => true
  | .rdRspReceive tag _ _ => tagOk tag
  | .wrAckReceive tag _ => tagOk tag
  | .creditGrantReceive sess _ _ _ => sess < 16384
  | .mcAckReceive port tag _ => port < 32 && tagOk tag
  | .withdrawFlitReceive port => port < 32
  | .c0PortRelease port => port < 32
  | .remoteWindowWrite tiller i _ => tiller < 64 && i < 64
  | .cflush t _ _ => thread t
  | .cflushi t _ _ => thread t
  | .tlbi t _ _ => thread t
  | .tlbia t _ _ _ => thread t
  | .wfi t => thread t
  | .cacheMissFill k line _ _ => k < 16 && cacheable line
  | .prefetchFill k line => k < 16 && cacheable line
  | .coherenceProbe k _ _ => k < 16
  | .culmCacheError k _ _ => k < 16
  | .culmNodeFail node _ => node < 4
  | .cnStop node => node < 4
  | .cnStart node => node < 4
  | .cnGoE node => node < 4
  | .cnTest node => node < 4
  | .cnSweepEnd node => node < 4
  | .cnWdogKick node => node < 4
  | .cnWdogExpire node => node < 4
  | .culmRestart node _ _ => node < 4
  | .ipiSend t _ => thread t
  | .tmrCmpWrite t _ => thread t
  | .timerMatch k => k < 16
  | .ethDbTx p _ => p < 2
  | .ethTxFrameSent p => p < 2
  | .ethFrameReceive p _ _ => p < 2
  | .ethLinkChange p _ => p < 2
  | .pcieInboundWrite _ _ _ => true
  | .pcieInboundRead _ _ => true
  | .pcieMsi _ => true
  | .pcieLinkChange _ speed width _ => speed ≤ 5 && width ≤ 8
  | .mirrorWriteArrived tiller pair _ => tiller < 64 && pair < 64
  | .mirrorBackgroundCopy tiller pair => tiller < 64 && pair < 64
  | .relWithdraw _ => true
  | .withdrawDrainEnd => true
  | .withdrawCopyEnd => true
  | .withdrawComplete => true
  | .healthReport r => r.node < 100
  | .otcClr t _ => thread t
  | .cntReset node => node < 100
  | .smpEnable i _ => i < 4
  | .smpDisable i _ => i < 4
  | .sampleDue i => i < 4
  | .sampleWritten i => i < 4
  | .watchRecordArrived tiller sx => tiller < 64 && sx < 9
  | .dbgHalt t => thread t
  | .dbgResume t => thread t
  | .dbgStep t => thread t
  | .dbgPcWrite t _ => thread t
  | .registerWrite _ _ _ => true
  | .railsInRegulation => true
  | .disabledChannelTagReclaim c => channel c
  | .pcieIntxMessage => true
  | .relRateExpire tiller => tiller < 64
  | .pcCommandPathFailure pc => pc < 384

end Sys2Proof
end

