-- ==== Sys2Proof/Safety.lean ====
section
/-! DEFINITION. What counts as a safe run, and the words that the claims share. -/

namespace Sys2Proof.Machine

/-- A step is safe when it goes on: it ends in a next state, not in a fault or a refusal. -/
def Safe (o : Out) : Prop := ∃ u, o = .next u

/-- An answer is a next state that satisfies `P`. -/
def Ends (o : Out) (P : State → Prop) : Prop := ∃ u, o = .next u ∧ P u

/-- The canonical form of memory: cells strictly rising, none listed that holds what an unlisted cell reads as. -/
def Memory.wf (m : List Host.Cell) : Bool := swf memDefault m

/-- The module is off and nothing in its queue turns it on (R453). -/
def OffInv (s : State) : Prop := s.power.phase = .off ∧ s.pending.all (fun c => match c with | .powerEnRise _ => false | _ => true) = true

/-- A thread stands before an instruction of `len` bytes and nothing else is due at that boundary: it can issue, no debugger,
posted store or trap waits, the fetch buffer holds the instruction and no breakpoint matches (R83, R85, R111, R444). -/
def State.clear (s : State) (t : Tid) (len : Nat) : Bool :=
  let c := s.ctx t
  tidOk t && s.canIssue t && !c.dbg.pending && !c.dbg.skip && !c.dbg.stepping && !c.dbg.late && c.deferred.isNone && c.trapDue.isNone && !c.stepArmed
    && c.breakpoint.isNone && decide (c.fetchAt ≤ c.pc.toNat) && decide (c.pc.toNat + len ≤ c.fetchAt + c.fetchBuf.length)
    && decide (c.pc.toNat + len ≤ c.segs.s0.bound.toNat) && decide (2 ≤ len)

/-- A compute thread before a long instruction. -/
def State.clearCompute (s : State) (t : Tid) : Bool := s.clear t 4 && decide (t.unit < 1024)

/-- A Culm thread before a long instruction. -/
def State.clearCulm (s : State) (t : Tid) : Bool := s.clear t 4 && decide (1024 ≤ t.unit)

/-- The module runs, its West half answers, and the Keeper has nothing in hand: no loader command, withdrawal, reset or park request
waits or runs (R81, R416, R486). -/
def State.keeperClear (s : State) : Bool :=
  s.up && !s.blocked .west && !s.loader.busy && !s.loader.waiting && !s.loader.isReset && decide (s.rel.wdr = .none) && s.rel.wdrDue.isNone
    && !s.boot.rstBusy && !s.halfBusy

/-- The parts of a context that no instruction that merely retires with a result may change: all but its registers, PC, progress
and own-thread counters. -/
def Ctx.still (c : Ctx) : Ctx := { c with g := [], v := [], pc := 0, prog := 0, sent := 0, otc := [] }

/-- Outside the context of thread `t` nothing is changed: memory, every register and queue of the module, every other thread; the
event counters of a node may have counted. -/
def State.onlyThread (s u : State) (t : Tid) : Prop :=
  ({ u with cores := [], culm := [], nodes := [] } : State) = { s with cores := [], culm := [], nodes := [] } ∧
  (∀ n, ({ u.core n with ctx := [] } : Core) = { s.core n with ctx := [] }) ∧
  (∀ k, ({ u.culmCore k with ctx := {} } : CulmCore) = { s.culmCore k with ctx := {} }) ∧
  (∀ n, ({ u.node n with cntVal := [] } : Node) = { s.node n with cntVal := [] }) ∧
  (∀ t', tidOk t' = true → t' ≠ t → u.ctx t' = s.ctx t')

/-- Thread `t` has retired an instruction of `len` bytes: its PC has moved on, OTC_INSTR has counted, and of its context only registers
may differ otherwise; outside it nothing is changed (R83, R425). -/
def State.retires (s u : State) (t : Tid) (len : Nat) : Prop :=
  s.onlyThread u t ∧ (u.ctx t).still = (s.ctx t).still ∧ (u.ctx t).pc = (s.ctx t).pc + word len ∧
  (u.ctx t).prog = 0 ∧ sget 0 (u.ctx t).otc 1 = sget 0 (s.ctx t).otc 1 + 1 ∧ (∀ k, k ≠ 1 → sget 0 (u.ctx t).otc k = sget 0 (s.ctx t).otc k)

/-- Thread `t` has retired an instruction whose one result is `v` in general register `r`; a write to g0 is discarded (R87). -/
def State.setsReg (s u : State) (t : Tid) (len : Nat) (r : Reg) (v : Word) : Prop :=
  s.retires u t len ∧ (u.ctx t).v = (s.ctx t).v ∧ u.reg t r = (if r = 0 then 0 else v) ∧ ∀ q, q ≠ r → u.reg t q = s.reg t q

/-- Thread `t` has retired an instruction whose one result is `v` in vector register `r`. -/
def State.setsVreg (s u : State) (t : Tid) (r : VReg) (v : VecReg) : Prop :=
  s.retires u t 4 ∧ (u.ctx t).g = (s.ctx t).g ∧ u.vreg t r = v ∧ ∀ q, q ≠ r → u.vreg t q = s.vreg t q

/-- Thread `t` has retired a vector instruction whose destination is vector register `r`: beside it, the sticky flags and the flush
counters nothing of the thread is changed, and nothing outside it but the model's counter of free values and, where the thread runs a
step, that step's flush counts (R154, R188, R425). -/
def State.retiresVec (s u : State) (t : Tid) (r : VReg) : Prop :=
  s.onlyThread { u with freeCtr := s.freeCtr, tillers := s.tillers } t ∧ ((s.ctx t).step = none → u.tillers = s.tillers) ∧
  { (u.ctx t).still with fps := (s.ctx t).fps, mxs := (s.ctx t).mxs } = (s.ctx t).still ∧ (u.ctx t).pc = (s.ctx t).pc + 4 ∧
  (u.ctx t).g = (s.ctx t).g ∧ ∀ q, q ≠ r → u.vreg t q = s.vreg t q

/-- Thread `t` has retired an element-by-element instruction: element `i < n` of `w` bits of `r` is the first part of `g i` where it is
active and keeps its value elsewhere, the bits above the last element are zero, and `FPS` has taken the flags, the second parts, of the
active elements; an INV that IEEE 754-2019 leaves open, bit 6, may or may not set INV (R154, R188). -/
def State.setsLanes (s u : State) (t : Tid) (r : VReg) (w n : Nat) (masked : Bool) (g : Nat → Nat × Nat) : Prop :=
  s.retiresVec u t r ∧ (u.ctx t).mxs = (s.ctx t).mxs ∧
  (∀ i, i < n → vget (u.vreg t r) w i = if active masked (s.vreg t 0) i then (g i).1 % 2 ^ w else vget (s.vreg t r) w i) ∧
  (u.vreg t r).toNat < 2 ^ (w * n) ∧
  ∀ k, k < 6 → (((s.ctx t).fps.getLsbD k = true ∨ ∃ i, i < n ∧ active masked (s.vreg t 0) i = true ∧ (g i).2.testBit k = true) → (u.ctx t).fps.getLsbD k = true) ∧
    ((u.ctx t).fps.getLsbD k = true → (s.ctx t).fps.getLsbD k = true ∨ ∃ i, i < n ∧ active masked (s.vreg t 0) i = true ∧ ((g i).2.testBit k = true ∨ k = 0 ∧ (g i).2.testBit 6 = true))

/-- No access of thread `t` is in flight. -/
def State.noReqs (s : State) (t : Tid) : Bool := s.reqs.all (fun q => q.src ≠ t)

/-- An access from half `h` to `n` bytes at `a` meets no error: no word of it is reserved, parked, loading, a control register or
uncorrectable (R19, R41, R78, R213). -/
def State.good (s : State) (h : Half) (a n : Nat) : Bool := (wordsOf a n).all (fun x => (s.routeErr h x).isNone && !isCtl x && !s.unitBad x)

/-- The bytes `d` stand at `a`, and every address whose cell is none of theirs reads as before. -/
def State.stores (s u : State) (a : Nat) (d : List Byte) : Prop :=
  (∀ i, i < d.length → u.byteAt (a + i) = d.getD i 0) ∧ ∀ b, (∀ i, i < d.length → s.cellOf b ≠ s.cellOf (a + i)) → u.byteAt b = s.byteAt b

/-- Thread `t`, at level 0 or 1, has a usable descriptor `d` for a cause that enters its own level, whose save set is free: the entry
spills nothing and changes no segment (R106, R112). -/
def State.plainEntry (s : State) (t : Tid) (code : Nat) (d : XDesc) : Prop :=
  bit (s.xdtb t) 0 = true ∧ s.descriptor t code = some d ∧ d.mailbox = false ∧ (s.ctx t).level ≤ d.level ∧ (s.ctx t).level < 2 ∧
  ((s.ctx t).saveSet (s.ctx t).level).valid = false

/-- Thread `t` has entered the handler of `d` at its own level for `e`: the PC is the handler's, the level's save set holds the PC, level,
sp, cause, detail, address and progress, and no register, no segment and nothing outside the thread is changed (R112). -/
def State.entersPlain (s u : State) (t : Tid) (e : Exc) (d : XDesc) : Prop :=
  s.onlyThread u t ∧ (u.ctx t).st = .running ∧ (u.ctx t).pc = d.handler ∧ (u.ctx t).level = (s.ctx t).level ∧
  (u.ctx t).saveSet (s.ctx t).level =
    { (s.ctx t).saveSet (s.ctx t).level with
      pc := e.pc, valid := true, plv := (s.ctx t).level, gate := decide (e.code = 1), step := false, sp := s.sp t, code := e.code, kind := e.kind,
      detail := e.detail, orig := e.orig, also := e.also, addr := e.addr, prog := (s.ctx t).prog } ∧
  (u.ctx t).saveSet (1 - (s.ctx t).level) = (s.ctx t).saveSet (1 - (s.ctx t).level) ∧
  (∀ r, u.reg t r = s.reg t r) ∧ (u.ctx t).v = (s.ctx t).v ∧ (u.ctx t).segs = (s.ctx t).segs

/-- A Thallus unit of region `r` that may fire: valid, its tiller in THALLUS mode with a running clock, its core not being taken over,
and the lists of tillers and queues in canonical form (R295, R312). -/
def State.unitLive (s : State) (u r : Nat) : Bool :=
  decide (uTiller u < 64) && decide (uKind u ≤ 4) && decide (s.regionOf (uTiller u) = some r) && (s.unitOf u).valid && s.thOn (uTiller u)
    && (s.tiller (uTiller u)).takeover.isNone && swf {} s.tillers && s.tillers.all (fun t => swf {} t.2.th.queues)

/-- The tokens that a firing of unit `u` takes at its inputs, numbers as `ins` names them, are there, none NULL, and its outputs have `out`
credits; `ends` says whether the firing is the unit's last of its wave: with FIRES given, by its count, LAST standing on the last token of
each input exactly then; with FIRES 0, once every input has given LAST (R292, R295, R301). -/
def State.fireable (s : State) (u : Nat) (ins : List (Nat × Nat)) (out : Nat) (ends : Bool) : Prop :=
  s.creditsAt u 0 out = true ∧ ((s.unitOf u).rec'.fires ≠ 0 → ends = decide ((s.unitOf u).fired + 1 = (s.unitOf u).rec'.fires)) ∧
  ((s.unitOf u).rec'.fires = 0 → ((s.unitOf u).begun = true ∨ (s.unitOf u).seen = []) ∧
    (ends = true ↔ ∀ p ∈ ins, p.1 ∈ (s.unitOf u).seen ∨ ∃ k ∈ (s.tokensAt u p.1).take p.2, k.last = true)) ∧
  ∀ p ∈ ins, p.2 ≤ (s.tokensAt u p.1).length ∧ ∀ i k, i < p.2 → (s.tokensAt u p.1)[i]? = some k →
    k.null = false ∧ ((s.unitOf u).rec'.fires ≠ 0 → k.last = (ends && decide (i + 1 = p.2)))

/-- A token as unit `u` sends it. -/
def State.sends (s : State) (u : Nat) (d : List Byte) (last null : Bool) : Token := ⟨d, (s.th (uTiller u)).epoch, last, null⟩

/-- The tokens popped at an input port of unit `u`: gone from its queue, their credits on the way back with the epoch (R292, R307). -/
def State.popped (s v : State) (u p n : Nat) : Prop :=
  ∀ q, s.inQueue u p = some q → (v.queue (uTiller u) q).tokens = (s.queue (uTiller u) q).tokens.drop n ∧
    (v.queue (uTiller u) q).returning = (s.queue (uTiller u) q).returning ++ List.replicate n (s.th (uTiller u)).epoch

/-- Tokens sent on an output port of unit `u`: on their way to each of its queues, each at the cost of a credit (R292). -/
def State.sent (s v : State) (u p : Nat) (l : List Token) : Prop :=
  ∀ q ∈ s.outQueues u p, (v.queue q.1 q.2).credits = (s.queue q.1 q.2).credits - l.length ∧ (v.queue q.1 q.2).transit = (s.queue q.1 q.2).transit ++ l

/-- Unit `u` has fired: its firings count on, and after the last of a wave it stands before the next wave (R301). -/
def State.counted (s v : State) (u : Nat) (ends : Bool) : Prop :=
  (v.unitOf u).wave = (s.unitOf u).wave + (if ends then 1 else 0) ∧ (v.unitOf u).fired = (if ends then 0 else (s.unitOf u).fired + 1) ∧
  (v.unitOf u).rec' = (s.unitOf u).rec' ∧ ∀ u', u' ≠ u → v.unitOf u' = s.unitOf u'

/-- Unit `u` has fired with tokens of the inputs `ins` and the data `out` sent on output 0, LAST with the last of a wave. -/
def State.hasFired (s v : State) (u : Nat) (ins : List (Nat × Nat)) (out : List (List Byte)) (ends : Bool) : Prop :=
  s.counted v u ends ∧ (∀ p ∈ ins, s.popped v u p.1 p.2) ∧
  s.sent v u 0 (out.zipIdx.map (fun p => s.sends u p.1 (ends && decide (p.2 + 1 = out.length)) false))

/-- The bytes of the first `n` tokens at an input port. -/
def State.tokenData (s : State) (u p n : Nat) : List Byte := ((s.tokensAt u p).take n).flatMap Token.data

/-- The way to a destination is open: nothing holds it, its first choice that is UP is port `q`, and the replay buffer there has room
(R340, R345, R347). -/
def State.wayOpen (s : State) (dest q : Nat) : Bool :=
  (s.holds.findIdx? (fun h => s.covers h dest)).isNone && decide (s.routeOf dest = some q) && (s.port q).txWait.isEmpty
    && decide ((s.port q).kept.length < s.replayRoom q)

/-- One packet has left by port `q`: HOPS has counted the link, a copy is kept under the next SEQ, and no other port is changed (R340,
R345). -/
def State.leftBy (s u : State) (q : Nat) (k : Packet) : Prop :=
  u.port q = { s.port q with out := (s.port q).out ++ [{ k with hops := k.hops + 1 }], kept := (s.port q).kept ++ [⟨(s.port q).txSeq, k⟩],
                             txSeq := ((s.port q).txSeq + 1) % 4096 } ∧ ∀ q', q' ≠ q → u.port q' = s.port q'

/-- Port `p` has gone DOWN into HANDOVER: it has counted it, nothing waits at it, its replay buffer is kept and the destinations whose
choice it was are held (R347). -/
def State.handsOver (s u : State) (p : Nat) (retrain : Bool) : Prop :=
  (u.port p).st = .handover ∧ (u.port p).downs = satAdd 16 (s.port p).downs 1 ∧ (u.port p).retrain = retrain ∧ (u.port p).kept = (s.port p).kept ∧
  (u.port p).txWait = [] ∧ (u.port p).c0Wait = [] ∧ (∃ h ∈ u.holds, h.port = p ∧ h.restore = false ∧ h.before = s.upPorts) ∧
  u.cores = s.cores ∧ u.mem = s.mem

/-- The requests in flight after request `id` has got an answer with DETAIL `d`, zero for data. -/
def State.answered (s : State) (id d : Nat) (data : List Byte) : List Req :=
  s.reqs.map (fun (r : Req) => if r.id = id ∧ r.resp.isNone then { r with back := if d = 0 then data else r.back, resp := some (d, r.addr) } else r)

end Sys2Proof.Machine
end

