-- ==== Sys2Proof/Certificates/Slice0/Obligations.lean ====
section
/-! DEFINITION. What the model claims of the machine: the statements for the provers. -/

section

open Sys2Proof Sys2Proof.Machine

/-- For every state, every command c and every rest of the queue: a step of a state whose queue is c followed by rest is exec c
on the state with the queue rest. The queue is the model's own. (95_what_each_step_holds.md) -/
def Obligations.StepRunsFront : Prop :=
  ∀ (s : State) (c : Instr) (rest : List Instr), s.pending = c :: rest → Machine.step s = exec c { s with pending := rest }

/-- With an empty queue a step changes nothing while TB does not count; while it counts and nothing slews it, TB counts by one,
modulo 2^63, and nothing else changes. That an empty queue ticks is the model's choice, log entry 4; that TB counts nanoseconds
is R45 of chapter 1. (01_die_mesh_clocks_time.md) -/
def Obligations.EmptyQueueTicks : Prop :=
  ∀ s : State, s.pending = [] →
    (s.time.counting = false → Machine.step s = .next s) ∧
    (s.time.counting = true → s.time.slew = 0 → s.time.frac = 0 →
      Machine.step s = .next { s with time := { s.time with tb := (s.time.tb + 1) % 2 ^ 63 } })

/-- After cold reset, before POWER_EN rises: no rail is on, TB is 0 and does not count, memory lists nothing, which is its
canonical form, and every word of it reads zero, every mesh slot register holds its table's value, both halves are SLOWED at
clock code 0x06, the drain limit is 0x2710, every core's SLOT_TBL is 0x7654321076543210, its watchdog code 0x14, its TOWN
0x7766554433221100 and its tiles EMPTY, no thread runs, every general register reads zero, every event counter and queue is
empty, MAXFLIGHT is 1, C0_ALLOT 0x10, both power caps 0xB54, the carrier's alert enables 0x1FC, the I3C address 0x2A, every
port, session and region is off, REL_STAT is zero but NO_SECTION and MIRROR_OFF, and the boot stage is 0.
(01_die_mesh_clocks_time.md, 02_thatch.md, 05_threads_channels.md, 06_vector_and_tile_engine.md, 10_step_sequencer.md,
12_hbm.md, 13_stolon_fabric.md, 15_fault_masking.md, 17_module_power_pins.md, 18_bringup_trust_addressing.md,
08_local_stores.md) -/
def Obligations.ResetState : Prop :=
  State.reset.power.phase = .off ∧ State.reset.up = false ∧ State.reset.time.tb = 0 ∧ State.reset.time.counting = false ∧ State.reset.mem = [] ∧ Memory.wf State.reset.mem = true ∧
  (∀ n, (State.reset.node n).slot = 0x0000000100000001) ∧ State.reset.west.st = .slowed ∧ State.reset.east.st = .slowed ∧
  State.reset.west.coreF = 6 ∧ State.reset.east.meshF = 6 ∧ State.reset.loader.drainLim = 0x2710 ∧
  (∀ n, (State.reset.core n).slotTbl = 0x7654321076543210 ∧ (State.reset.core n).twdogExp = 0x14 ∧ (State.reset.core n).town = 0x7766554433221100 ∧
    (State.reset.core n).tiles = [] ∧ (State.reset.core n).running = none) ∧
  (∀ t r, State.reset.reg t r = 0) ∧ (∀ t r, State.reset.vreg t r = 0) ∧ (∀ n c, sget 0 (State.reset.tiller n).evc c = 0) ∧
  (∀ n k, (State.reset.sq n k).maxflight = 1) ∧ (∀ p, (State.reset.port p).c0Allot = 0x10 ∧ (State.reset.port p).en = false) ∧
  State.reset.power.holridCap = 0xB54 ∧ State.reset.power.carrierCap = 0xB54 ∧ State.reset.power.carrierEn = 0x1FC ∧ State.reset.power.i3cAddr = 0x2A ∧
  (∀ r, (State.reset.region r).st = .undefined) ∧ (∀ n, (State.reset.session n).st = 0) ∧ State.reset.loader.rel = none ∧ State.reset.mirrorOff = true ∧
  State.reset.boot.stage = 0 ∧ State.reset.pending = []

/-- For every command and every state: a well-formed command, one that names units the module has, answers a next state; and any
command either answers a next state or stops with the fault that names the unit the module does not have. No command is refused.
(95_what_each_step_holds.md, 19_control_space_identity.md) -/
def Obligations.EveryCommandAnswers : Prop :=
  ∀ (c : Instr) (s : State),
    (c.wellFormed = true → ∃ u, exec c s = .next u) ∧
    ((∃ u, exec c s = .next u) ∨ ∃ w, exec c s = .fault (.noSuchUnit w))

/-- In every state whose module is OFF or TRIPPED, every command but POWER_EN_RISE, POWER_EN_FALL and PRESENT_L_CHANGE leaves
the whole state as it was, or names a unit that does not exist: with POWER_EN low no part of the module runs, and TRIPPED holds
while POWER_EN stays high. POWER_EN_RISE while TRIPPED may change nothing but the level of the pin. (R453, R459) -/
def Obligations.OffIsStill : Prop :=
  ∀ (c : Instr) (s : State), (s.power.phase = .off ∨ s.power.phase = .tripped) →
    ((∀ v, c ≠ .powerEnRise v) → (∀ n, c ≠ .powerEnFall n) → (∀ m, c ≠ .presentLChange m) →
      exec c s = .next s ∨ ∃ w, exec c s = .fault (.noSuchUnit w)) ∧
    (s.power.phase = .tripped → ∀ v, Ends (exec (.powerEnRise v) s) (fun u => { u.power with powerEn := s.power.powerEn } = s.power ∧ ({ u with power := s.power } : State) = s))

/-- OffInv, the module being off with no POWER_EN_RISE waiting, holds of the state after cold reset. (R453) -/
def Obligations.OffHoldsAtReset : Prop :=
  OffInv State.reset

/-- For every state in which the module is off and no POWER_EN_RISE waits in its queue, whatever else waits there, a step that
answers a next state answers one in which both still hold: nothing but a rise of POWER_EN turns the module on. (R453, R452) -/
def Obligations.OffKeptByEveryStep : Prop :=
  ∀ s u : State, OffInv s → Machine.step s = .next u → OffInv u

/-- On a mated module that is off, whose POWER_EN was low long enough, a rise with VIN at or above 39.0 V (3900 units of 10 mV)
starts the rails and a rise below it waits for VIN, and nothing else changes; a rise that is not heeded yet (POWER_EN not low
for 100 ms since the turn-off) starts nothing. Rails in regulation take a starting module to RESET with TB counting. A low of 50
us or more turns the module off at once, losing every store, register and queue of the die but not flash and fuses; a shorter
low is ignored. Mating sets the presence alone; unmating turns the module off. With the rails on, an undervoltage, overvoltage
or overcurrent off is an electrical trip, and with PWR_GOOD high so is a rail that leaves regulation: the module becomes TRIPPED
with THERMTRIP_L released, PWR_GOOD low and POWER_EN as it was. A thermal trip does the same and drives THERMTRIP_L low. Each
loses every store, register and queue of the die and keeps flash and fuses. With the rails off none of them changes anything.
(R451, R452, R453, R459) -/
def Obligations.PowerSwitchingAndTrips : Prop :=
  (∀ s vin, s.power.present = true → s.power.phase = .off → s.power.restartOk = true → s.power.powerEn = false →
    (3900 ≤ vin → exec (.powerEnRise vin) s = .next { s with power := { s.power with powerEn := true, waitVin := false, phase := .starting } }) ∧
    (vin < 3900 → exec (.powerEnRise vin) s = .next { s with power := { s.power with powerEn := true, waitVin := true } })) ∧
  (∀ s vin, s.power.restartOk = false → Ends (exec (.powerEnRise vin) s) (fun u => u.power.phase = s.power.phase)) ∧
  (∀ s, s.power.phase = .starting → exec .railsInRegulation s
    = .next { s with power := { s.power with phase := .reset }, time := { s.time with counting := true } }) ∧
  (∀ s n, n < 50 → exec (.powerEnFall n) s = .next s) ∧
  (∀ s n, 50 ≤ n → Ends (exec (.powerEnFall n) s) (fun u => u.power.phase = .off ∧ u.power.powerEn = false ∧
    (100000 ≤ n → u.power.restartOk = true) ∧ u.mem = [] ∧ u.cores = [] ∧ u.tillers = [] ∧ u.regions = [] ∧ u.ports = [] ∧ u.sessions = [] ∧
    u.time.tb = 0 ∧ u.time.counting = false ∧ u.reqs = [] ∧ u.flashA = s.flashA ∧ u.flashB = s.flashB ∧ u.fuses = s.fuses ∧ u.pending = s.pending)) ∧
  (∀ s, s.power.present = true → exec (.presentLChange true) s = .next s) ∧
  (∀ s, s.power.present = false → exec (.presentLChange true) s = .next { s with power := { s.power with present := true, restartOk := true } }) ∧
  (∀ s, Ends (exec (.presentLChange false) s) (fun u => u.power.phase = .off ∧ u.power.present = false ∧ u.power.powerEn = false ∧ u.mem = [] ∧
    u.flashA = s.flashA ∧ u.flashB = s.flashB ∧ u.fuses = s.fuses)) ∧
  (∀ s, s.railsOn = true → ∀ c, c ∈ [Instr.undervoltageOff, .overvoltageOff, .overcurrentOff] ∨ (s.pwrGood = true ∧ c = .railOutOfRegulation) →
    Ends (exec c s) (fun u => u.power.phase = .tripped ∧ u.thermtripLow = false ∧ u.pwrGood = false ∧ u.power.powerEn = s.power.powerEn ∧
      u.mem = [] ∧ u.cores = [] ∧ u.tillers = [] ∧ u.regions = [] ∧ u.flashA = s.flashA ∧ u.flashB = s.flashB ∧ u.fuses = s.fuses)) ∧
  (∀ s, s.railsOn = true → Ends (exec .thermalTrip s) (fun u => u.power.phase = .tripped ∧ u.thermtripLow = true ∧ u.pwrGood = false ∧
      u.power.powerEn = s.power.powerEn ∧ u.mem = [] ∧ u.cores = [] ∧ u.flashA = s.flashA ∧ u.flashB = s.flashB ∧ u.fuses = s.fuses)) ∧
  (∀ s, s.railsOn = false → ∀ c ∈ [Instr.undervoltageOff, .overvoltageOff, .overcurrentOff, .railOutOfRegulation, .thermalTrip], exec c s = .next s)

/-- On a running module: while average power exceeds the cap or a die sensor holds the governor down, GOVERNOR_LOWER lowers the
core limit by one step of 100 MHz while it is above 1.2 GHz, else the mesh limit while it is above 0.6 GHz, and sets POWER_LIMIT
in both alert copies; while average power is more than 150 W below the cap and no sensor is hot, GOVERNOR_RAISE raises the mesh
limit while it is below 2.4 GHz, else the core limit while it is below 2.7 GHz. Neither cap raises the cap above 2,900 W, nor
above what the other sets, and a cap below 1,200 W counts as 1,200 W. On a running module a governor sample keeps VIN and the
input current, and sets VIN_LOW from 37.0 V to below 40.0 V and VIN_HIGH above 54.0 V to 57.0 V; a die sensor above 100 C sets
DIE_WARN and holds the governor down, 97 C or below releases it, and an inlet above 40 C sets COOLANT_WARN; an input current
above the limit starts the fast throttle and sets FAST_THROTTLE, and the throttle ends when the current is back, changing
nothing else. With PWR_GOOD high the loss of REFCLK sets LOCALCLK and REFCLK_LOST. An alert is set in both copies. None changes
memory or a core's registers. (R454, R455, R457, R458, R451, R456, R461) -/
def Obligations.GovernorAndSensors : Prop :=
  (∀ s : State, s.up = true → (s.pcap < s.power.pavg ∨ s.power.dieHot = true) → Ends (exec .governorLower s) (fun u =>
      u.power.alertSrc.testBit 0 = true ∧ u.power.carrierAlert.testBit 0 = true ∧
      (12 < s.power.coreLimit → u.power.coreLimit = s.power.coreLimit - 1 ∧ u.power.meshLimit = s.power.meshLimit) ∧
      (s.power.coreLimit ≤ 12 → 6 < s.power.meshLimit → u.power.coreLimit = s.power.coreLimit ∧ u.power.meshLimit = s.power.meshLimit - 1) ∧ u.mem = s.mem)) ∧
  (∀ s : State, s.up = true → s.power.dieHot = false → s.power.pavg + 150 < s.pcap → Ends (exec .governorRaise s) (fun u =>
      (s.power.meshLimit < 24 → u.power.meshLimit = s.power.meshLimit + 1 ∧ u.power.coreLimit = s.power.coreLimit) ∧
      (24 ≤ s.power.meshLimit → s.power.coreLimit < 27 → u.power.meshLimit = s.power.meshLimit ∧ u.power.coreLimit = s.power.coreLimit + 1) ∧ u.mem = s.mem)) ∧
  (∀ s : State, s.pcap ≤ 2900 ∧ s.pcap ≤ max 1200 s.power.holridCap ∧ s.pcap ≤ max 1200 s.power.carrierCap) ∧
  (∀ (s : State) (vin iin : Nat), s.up = true → vin < 65536 → iin < 65536 → Ends (exec (.governorSample vin iin) s) (fun u =>
      u.power.vin = vin ∧ u.power.iin = iin ∧ (3700 ≤ vin ∧ vin < 4000 → u.power.alertSrc.testBit 4 = true ∧ u.power.carrierAlert.testBit 4 = true) ∧
      (5400 < vin ∧ vin ≤ 5700 → u.power.alertSrc.testBit 5 = true ∧ u.power.carrierAlert.testBit 5 = true) ∧ u.mem = s.mem ∧ u.cores = s.cores)) ∧
  (∀ (s : State) (d i : Nat), s.up = true → d < 256 → i < 256 → Ends (exec (.dieSensorRead d i) s) (fun u =>
      u.power.tdie = d ∧ u.power.tinlet = i ∧ (100 < d → u.power.dieHot = true ∧ u.power.alertSrc.testBit 2 = true ∧ u.power.carrierAlert.testBit 2 = true) ∧
      (d ≤ 97 → u.power.dieHot = false) ∧ (40 < i → u.power.alertSrc.testBit 7 = true) ∧ u.mem = s.mem ∧ u.cores = s.cores)) ∧
  (∀ s : State, s.up = true → s.overCurrent = true → Ends (exec .fastThrottle s) (fun u =>
      u.power.fast = true ∧ u.power.alertSrc.testBit 1 = true ∧ u.power.carrierAlert.testBit 1 = true ∧ u.mem = s.mem ∧ u.cores = s.cores)) ∧
  (∀ s : State, s.up = true → s.overCurrent = false → exec .fastThrottleEnd s = .next { s with power := { s.power with fast := false } }) ∧
  (∀ s : State, s.pwrGood = true → s.power.localClk = false → Ends (exec .refclkLost s) (fun u =>
      u.power.localClk = true ∧ u.power.alertSrc.testBit 6 = true ∧ u.power.carrierAlert.testBit 6 = true ∧ u.mem = s.mem ∧ u.cores = s.cores))

/-- With PWR_GOOD high: a read at the module's address answers the indexed register and changes nothing else, and a read at
another address is not answered; CARRIER_CAP takes the low 12 bits written; the carrier clears bits of its own alert copy,
leaving ALERT_SRC; a dynamic address is taken. A WITHDRAW command other than 1 in bits [1:0] is ignored. A WITHDRAW whose module
has no withdrawal waiting or under way and whose loader is free is what REL_CMD WITHDRAW does. (R454, R458, R467) -/
def Obligations.ManagementBus : Prop :=
  (∀ s i, s.pwrGood = true → exec (.i3cRead (BitVec.ofNat 7 s.power.i3cAddr) i) s =
      (if s.power.i3cAddr < 128 then .next { s with power := { s.power with i3cOut := s.i3cReg i.toNat } } else .next s)) ∧
  (∀ s a i, a.toNat ≠ s.power.i3cAddr → exec (.i3cRead a i) s = .next s) ∧
  (∀ (s : State) w, s.pwrGood = true → exec (.i3cCarrierCapWrite w) s = .next { s with power := { s.power with carrierCap := w.toNat % 4096 } }) ∧
  (∀ (s : State) w, s.pwrGood = true → Ends (exec (.i3cAlertClear w) s) (fun u => u.power.alertSrc = s.power.alertSrc ∧
      (∀ k, k < 64 → u.power.carrierAlert.testBit k = (s.power.carrierAlert.testBit k && !w.getLsbD k)) ∧
      ({ u with power := { u.power with carrierAlert := s.power.carrierAlert } } : State) = s)) ∧
  (∀ (s : State) a, s.pwrGood = true → exec (.i3cDynamicAddress a) s = .next { s with power := { s.power with i3cAddr := a.toNat } }) ∧
  (∀ (s : State) w, w.toNat % 4 ≠ 1 → exec (.i3cWithdraw w) s = .next s) ∧
  (∀ (s : State) w, s.up = true → w.toNat % 4 = 1 → exec (.i3cWithdraw w) s = exec (.relWithdraw 1) s)

/-- The end of reset samples the straps, forms the module ID 64 x RACK + SLOT (a module with every strap high is standalone) and
starts mask ROM. Boot image verification ends stage ROM: an image that passes gives stage KEEPER with fresh measurement
registers; a failing image A restarts on image B, a failing image B stops boot with NO_IMAGE. MEMORY_DONE with a failed stack
stops boot with its code 2, a failed self-test with code 3, and otherwise enters stage THATCH; there THATCH_DONE finishes what
the load has left, and once the base image is loaded the HOLRID component is placed at 0x10_0000 and stage HOLRID entered.
HOLRID_READY ends that stage: a standalone module is READY, another claims its ID in stage CHAIN. A HOLRID_READY that times out
stops the first Culm node once, and boot with code 5 the second time. Boot that stops is in stage 8 with its code. (R474, R475,
R477, R478, R482, R498) -/
def Obligations.BootStages : Prop :=
  (∀ (s : State) rack slot, s.power.phase = .reset → Ends (exec (.resetEnd rack slot) s) (fun u => u.power.phase = .running ∧ u.boot.stage = 0 ∧
      u.boot.rackId = rack.toNat ∧ u.boot.slotId = slot.toNat ∧ u.boot.moduleId = 64 * rack.toNat + slot.toNat ∧
      u.boot.standalone = decide (64 * rack.toNat + slot.toNat = 0x3FFF) ∧ u.mem = s.mem)) ∧
  (∀ s : State, s.up = true → s.boot.stage = 0 →
      match s.imageFault s.boot.image with
      | none => Ends (exec .bootImageVerify s) (fun u => u.boot.stage = 1 ∧ u.boot.image = s.boot.image ∧ u.mem = s.mem)
      | some c => (s.boot.image = false → Ends (exec .bootImageVerify s) (fun u => u.boot.stage = 0 ∧ u.boot.image = true ∧ u.boot.aFail = c)) ∧
        (s.boot.image = true → c ≠ 7 → Ends (exec .bootImageVerify s) (fun u => u.boot.stage = 8 ∧ u.boot.stop = 1))) ∧
  (∀ s : State, s.up = true → s.boot.stage = 1 → Ends (exec (.bootMemoryDone .ok) s) (fun u => u.boot.stage = 3) ∧
      (∀ k, Ends (exec (.bootMemoryDone (.stackFailed k)) s) (fun u => u.boot.stage = 8 ∧ u.boot.stop = 2)) ∧
      Ends (exec (.bootMemoryDone .selfTestFailed) s) (fun u => u.boot.stage = 8 ∧ u.boot.stop = 3 ∧ u.mem = s.mem)) ∧
  (∀ s : State, s.up = true → s.boot.stage = 3 → s.loader.baseLoaded = false → s.loader.busy = true → exec .bootThatchDone s = .next s.finishLoad) ∧
  (∀ s : State, s.up = true → s.boot.stage = 3 → s.loader.baseLoaded = true → s.loader.busy = false →
      (s.componentRead s.boot.image (s.bootHeader s.boot.image) 2).isSome = true → Ends (exec .bootHolridCopyDone s) (fun u => u.boot.stage = 4)) ∧
  (∀ s : State, s.up = true → s.boot.stage = 4 →
      (s.boot.standalone = true → Ends (exec .holridReady s) (fun u => u.boot.stage = 7 ∧ u.boot.readyMs = (s.time.tb - s.boot.resetEndAt) / 1000000 ∧ u.mem = s.mem)) ∧
      (s.boot.standalone = false → exec .holridReady s = .next { s with boot := { s.boot with stage := 5, chain := 1 } }) ∧
      (s.boot.holridTried = 0 → Ends (exec .holridReadyTimeout s) (fun u => u.boot.stage = 4 ∧ u.boot.holridTried = 1)) ∧
      (s.boot.holridTried ≠ 0 → Ends (exec .holridReadyTimeout s) (fun u => u.boot.stage = 8 ∧ u.boot.stop = 5)))

/-- On a running module: opening the bypass in stage CHAIN begins the roll call with no claim sent; each of three claims leaves
on CHAIN_OUT with the module's ID, serial and number; a frame that is not 24 bytes with a good CRC is dropped and counted
(saturating), the module's own claim is taken off the chain, any other frame is repeated. A claim of the module's own ID with
another serial is answered by an objection when the module has joined, or claims with the lower serial; a claimant with the
higher serial becomes DUPLICATE, as does one that is objected to. 1 ms after the third claim a claimant whose claim came back is
JOINED; without it it claims again, and fails 60 s after the roll call began. With PWR_GOOD high a planned close, before the
roll call or as a withdrawal ends, closes the bypass. (R464, R465, R483, R484) -/
def Obligations.AddressChain : Prop :=
  (∀ s : State, s.up = true → s.boot.stage = 5 → s.boot.chain = 1 → exec .bypassOpen s = .next { s with power := { s.power with bypassOpen := true }, boot := { s.boot with chain := 2, claims := 0, claimSeen := false, objected := false, rollStart := s.time.tb } }) ∧
  (∀ s : State, s.pwrGood = true → s.boot.chain = 0 ∨ s.rel.wdr = .closing → exec .bypassClosePlanned s = .next { s with power := { s.power with bypassOpen := false } }) ∧
  (∀ s : State, s.up = true → s.power.bypassOpen = true →
    (s.boot.stage = 5 → s.boot.chain = 2 → s.boot.claims < 3 → exec .claimSend s = .next { s with boot := { s.boot with claims := s.boot.claims + 1, chainOut := s.boot.chainOut ++ [chainFrame 1 (s.boot.claims + 1) s.boot.moduleId s.fuses.serial.toNat 0] } }) ∧
    (∀ f : List Byte, f.length ≠ 24 ∨ fld f 20 4 ≠ crc32 (f.take 20) → exec (.chainFrameReceive f) s = .next { s with boot := { s.boot with chainBad := min (s.boot.chainBad + 1) 65535 } }) ∧
    (∀ f : List Byte, f.length = 24 → fld f 20 4 = crc32 (f.take 20) → fld f 4 8 ≠ s.fuses.serial.toNat → exec (.chainFrameReceive f) s = .next { s with boot := { s.boot with chainOut := s.boot.chainOut ++ [f] } }) ∧
    (∀ f : List Byte, f.length = 24 → fld f 20 4 = crc32 (f.take 20) → fld f 4 8 = s.fuses.serial.toNat → fld f 0 1 = 1 →
      exec (.chainFrameReceive f) s = .next { s with boot := { s.boot with claimSeen := true } }) ∧
    (∀ (id : BitVec 14) (n : Word), id.toNat = s.boot.moduleId → n ≠ s.fuses.serial →
      (s.boot.chain = 3 ∨ (s.boot.chain = 2 ∧ s.fuses.serial.toNat < n.toNat) → exec (.claimReceive id n) s =
        .next { s with boot := { s.boot with chainOut := s.boot.chainOut ++ [chainFrame 2 0 s.boot.moduleId s.fuses.serial.toNat n.toNat] } }) ∧
      (s.boot.chain = 2 → n.toNat < s.fuses.serial.toNat → exec (.claimReceive id n) s = .next { s with boot := { s.boot with chain := 4, stop := 6 } })) ∧
    (s.boot.chain = 2 → exec (.objectReceive s.fuses.serial) s = .next { s with boot := { s.boot with chain := 4, stop := 6 } }) ∧
    (s.boot.stage = 5 → s.boot.chain = 2 → s.boot.claims = 3 → s.boot.claimSeen = true → Ends (exec .claimWindowEnd s) (fun u => u.boot.chain = 3 ∧ 6 ≤ u.boot.stage ∧ u.mem = s.mem)) ∧
    (s.boot.chain = 2 → s.boot.claims = 3 → s.boot.claimSeen = false →
      (s.time.tb < s.boot.rollStart + 60000000000 → exec .rollCallRetry s = .next { s with boot := { s.boot with claims := 0 } }) ∧
      (s.boot.rollStart + 60000000000 ≤ s.time.tb → exec .rollCallRetry s = .next { s with boot := { s.boot with chain := 5, stop := 7 } })))

/-- On a running module: a fuse request that cannot be read gives result 7, one refused gives its code and burns nothing, one
accepted burns the fuses it names and gives 0; memory stays. MEAS_EXT extends registers 8 to 15 only: an index below 8 gives
ERR, a readable digest is hashed after the old value and clears ERR. ATT_CMD for an address outside HBM and the common store
gives status 1 with no write; one it carries out gives status 0 or 2. Erasing a block of the flash window leaves 0xFF in its 4
KiB and everything else as it was; programming copies the buffer. (R471, R473, R479, R480, R481) -/
def Obligations.TrustCommands : Prop :=
  (∀ (s : State) w, s.up = true → s.blocked .west = false →
      (s.keeperRead (field w 6 38 * 64) 840 = none → exec (.fuseRequest w) s = .next { s with boot := { s.boot with fuseReq := field w 6 38 * 64, lastResult := 7 } }) ∧
      (∀ l, s.keeperRead (field w 6 38 * 64) 840 = some l → match s.fuses.request l with
        | .error e => exec (.fuseRequest w) s = .next { s with boot := { s.boot with fuseReq := field w 6 38 * 64, lastResult := e } }
        | .ok f => exec (.fuseRequest w) s = .next { s with fuses := f, boot := { s.boot with fuseReq := field w 6 38 * 64, lastResult := 0 } })) ∧
  (∀ (s : State) w, s.up = true → (field w 0 4 < 8 → Ends (exec (.measExtend w) s) (fun u => u.boot.measErr = true ∧ u.boot.meas = s.boot.meas ∧ u.mem = s.mem)) ∧
      (∀ d, 8 ≤ field w 0 4 → s.blocked .west = false → s.keeperRead (field w 6 38 * 64) 32 = some d → Ends (exec (.measExtend w) s) (fun u => u.boot.measErr = false ∧
        sget (List.replicate 32 0) u.boot.meas (field w 0 4) = sha256 (sget (List.replicate 32 0) s.boot.meas (field w 0 4) ++ d) ∧
        (∀ j, j ≠ field w 0 4 → sget (List.replicate 32 0) u.boot.meas j = sget (List.replicate 32 0) s.boot.meas j) ∧ u.mem = s.mem))) ∧
  (∀ (s : State) w, s.up = true → s.blocked .west = false → inHbmOrCs (field w 6 38 * 64) 1024 = false → exec (.attestationRequest w) s =
      .next { s with boot := { s.boot with attAddr := field w 6 38 * 64, attMask := field w 44 16, attStatus := 1 } }) ∧
  (∀ (s : State) w, s.up = true → s.blocked .west = false → inHbmOrCs (field w 6 38 * 64) 1024 = true → Ends (exec (.attestationRequest w) s) (fun u =>
      (u.boot.attStatus = 0 ∨ u.boot.attStatus = 2) ∧ u.boot.attAddr = field w 6 38 * 64 ∧ u.fuses = s.fuses)) ∧
  (∀ (s : State) o, s.up = true → o < 0x8000000 → Ends (exec (.flashWindowCommand (.erase false o)) s) (fun u => u.flashB = s.flashB ∧ u.mem = s.mem ∧
      ∀ a, sget 0 u.flashA a = if a / 4096 = o / 4096 then 0xFF else sget 0 s.flashA a)) ∧
  (∀ (s : State) o, s.up = true → o < 0x8000000 → Ends (exec (.flashWindowCommand (.program true o)) s) (fun u => u.flashA = s.flashA ∧ u.mem = s.mem ∧
      ∀ a, sget 0 u.flashB a = if a / 4096 = o / 4096 then sget 0 s.boot.flashBuf (a % 4096) else sget 0 s.flashB a))

/-- On a running module with HALF_REQ not busy: SETCLK with targets in range records them for a half that is not blocked, lowers
at once what is above target or governor limit, and leaves a raise waiting and HALF_REQ busy; out of range it is refused with
code 8. When the supply is ready the raise takes effect, at the lower of target and limit. A park request of a half whose
refusal code is not 0 records the code and changes nothing else of the half; one that is not refused makes the half PARKING,
with HALF_REQ busy. A drained PARKING half becomes PARKED with its stacks in self-refresh, a drain that times out runs again
with code 5. Unparking a PARKED half makes it UNPARKING; when its PLLs lock, its clocks run at the lower of target and limit and
its copy of TB resynchronises; and at the end it is RUNNING at the maxima, else SLOWED, with HALF_REQ not busy. (R38, R40, R42,
R43, R44, R48) -/
def Obligations.HalfClocksAndParking : Prop :=
  (∀ (s : State) h cf mf, s.up = true → s.halfBusy = false → s.blocked h = false → targetsOk cf.toNat mf.toNat = true → Ends (exec (.halfSetclk h cf mf) s) (fun u =>
      (u.half h).coreT = cf.toNat ∧ (u.half h).meshT = mf.toNat ∧ (u.half h).coreF = min (s.half h).coreF (min cf.toNat s.power.coreLimit) ∧
      (u.half h).meshF = min (s.half h).meshF (min mf.toNat s.power.meshLimit) ∧ u.half (otherHalf h) = s.half (otherHalf h) ∧
      u.halfBusy = (decide ((s.half h).coreF < min cf.toNat s.power.coreLimit) || decide ((s.half h).meshF < min mf.toNat s.power.meshLimit)) ∧ u.mem = s.mem)) ∧
  (∀ (s : State) h cf mf, s.up = true → s.halfBusy = false → targetsOk cf.toNat mf.toNat = false → Ends (exec (.halfSetclk h cf mf) s) (fun u =>
      u.lastRefusal = 8 ∧ u.west = s.west ∧ u.east = s.east)) ∧
  (∀ (s : State) h, s.up = true → s.blocked h = false → (s.half h).raising = true → Ends (exec (.clockRaiseSupplyReady h) s) (fun u =>
      (u.half h).coreF = min (s.half h).coreT s.power.coreLimit ∧ (u.half h).meshF = min (s.half h).meshT s.power.meshLimit ∧ (u.half h).raising = false ∧
      ((u.half h).st = .running ↔ (u.half h).coreF = 27 ∧ (u.half h).meshF = 24) ∧ u.half (otherHalf h) = s.half (otherHalf h) ∧ u.mem = s.mem)) ∧
  (∀ (s : State) h, s.up = true → s.halfBusy = false → s.blocked h = false → s.loader.busy = false → s.rel.wdr = .none →
      (s.parkRefusal h ≠ 0 → Ends (exec (.halfPark h) s) (fun u => u.lastRefusal = s.parkRefusal h ∧ u.west = s.west ∧ u.east = s.east ∧ u.halfBusy = false)) ∧
      (s.parkRefusal h = 0 → Ends (exec (.halfPark h) s) (fun u => (u.half h).st = .parking ∧ u.halfBusy = true ∧ u.half (otherHalf h) = s.half (otherHalf h) ∧ u.mem = s.mem))) ∧
  (∀ (s : State) h, s.up = true → (s.half h).st = .parking → s.draining h = false → Ends (exec (.parkDrainDone h) s) (fun u =>
      (u.half h).st = .parked ∧ u.halfBusy = false ∧ (∀ i ∈ halfStacks h, (s.stack i).st = 2 → (u.stack i).st = 3) ∧ u.mem = s.mem)) ∧
  (∀ (s : State) h, s.up = true → (s.half h).st = .parking → Ends (exec (.parkDrainTimeout h) s) (fun u =>
      ((u.half h).st = .running ∨ (u.half h).st = .slowed) ∧ u.halfBusy = false ∧ u.lastRefusal = 5)) ∧
  (∀ (s : State) h, s.up = true → s.halfBusy = false → (s.half h).st = .parked → Ends (exec (.halfUnpark h) s) (fun u => (u.half h).st = .unparking ∧ (u.half h).locked = false ∧ u.halfBusy = true)) ∧
  (∀ (s : State) h, s.up = true → (s.half h).st = .unparking → (s.half h).locked = false → Ends (exec (.unparkPllLocked h) s) (fun u => (u.half h).locked = true ∧
      (u.half h).coreF = min (s.half h).coreT s.power.coreLimit ∧ (u.half h).meshF = min (s.half h).meshT s.power.meshLimit ∧ u.clockOn h = true ∧
      (∀ i ∈ halfStacks h, (s.stack i).st = 3 → (u.stack i).st = 2) ∧ sget 0 u.time.resync (if h = .west then 0 else 1) = 1 ∧ u.mem = s.mem)) ∧
  (∀ (s : State) h, s.up = true → (s.half h).st = .unparking → (s.half h).locked = true → s.loader.device.unparkEv = false → Ends (exec (.unparkDone h) s) (fun u =>
      ((u.half h).st = .running ∨ (u.half h).st = .slowed) ∧ u.blocked h = false ∧ (field s.halfReq 0 2 = 2 → reqHalf s.halfReq = h → u.halfBusy = false)))

/-- On a running module: a slot table with at least two CTRL slots is taken as written, any other gets CTRL in slots 0 and 16
and sets SLOTFIX; a frame begins with the half's mesh cycle count 32 further; a node short of its allotment gets one token in
each bucket, up to BURST, and where nothing waits nothing else changes; a good flit ends a class-0 resend and is otherwise
without trace, a flit with a single-bit error adds one health report at a node with room for it, and the first class-0 flit in
error for a microsecond is to be sent again. Where a half is blocked, an answered class-0 flit counts in C0_DROP, a class-1 or
class-3 flit in PARKED_ANS, and a response is dropped without a count. (R29, R30, R31, R41, R402) -/
def Obligations.MeshTrafficAndSlots : Prop :=
  (∀ (s : State) n w, n < 100 → s.up = true → s.blocked (nodeHalf n) = false → Ends (exec (.meshSlotWrite n w) s) (fun u =>
      (2 ≤ ctrlSlots w → (u.node n).slot = w ∧ (u.node n).slotfix = (s.node n).slotfix) ∧
      (ctrlSlots w < 2 → (u.node n).slot = setField (setField w 0 2 1) 32 2 1 ∧ (u.node n).slotfix = true) ∧ (∀ m, m ≠ n → u.node m = s.node m) ∧ u.mem = s.mem)) ∧
  (∀ (s : State) h, s.up = true → s.clockOn h = true → Ends (exec (.meshFrameStart h) s) (fun u => (u.half h).meshCycle = (s.half h).meshCycle + 32 ∧ u.half (otherHalf h) = s.half (otherHalf h))) ∧
  (∀ (s : State) n, n < 100 → s.up = true → s.clockOn (nodeHalf n) = true → (s.node n).tokenNo < (s.node n).allot → (s.node n).waiting = [] →
      Ends (exec (.c0TokenAdd n) s) (fun u => u.node n = { s.node n with tokenNo := (s.node n).tokenNo + 1, tokens0 := min ((s.node n).tokens0 + 1) (s.node n).burst, tokens1 := min ((s.node n).tokens1 + 1) (s.node n).burst } ∧ (∀ m, m ≠ n → u.node m = s.node m) ∧ u.mem = s.mem)) ∧
  (∀ (s : State) n out p cls, n < 100 → p < 2 → (neighbour n (dirCode out)).isSome = true → s.up = true → s.clockOn (nodeHalf n) = true →
      Ends (exec (.meshFlitReceive n out p cls .none) s) (fun u => u.node n = { s.node n with c0Again := ndel (dirCode out + 4 * p) (s.node n).c0Again } ∧
        (∀ m, m ≠ n → u.node m = s.node m) ∧ u.mem = s.mem) ∧
      ((s.node n).reports.length < 8 → Ends (exec (.meshFlitReceive n out p cls .single) s) (fun u => (u.node n).reports.length = (s.node n).reports.length + 1 ∧ u.mem = s.mem)) ∧
      (sget [] (s.node n).retries (dirCode out + 4 * p) = [] → Ends (exec (.meshFlitReceive n out p .control .other) s) (fun u => (u.node n).c0Again.contains (dirCode out + 4 * p) = true ∧ u.mem = s.mem))) ∧
  (∀ (s : State) h row, row < 10 → s.up = true → s.blocked h = true →
      Ends (exec (.rachisParkedAnswer h row .control none) s) (fun u => (u.node (row * 10 + (if h = .west then 5 else 4))).c0drop = min ((s.node (row * 10 + (if h = .west then 5 else 4))).c0drop + 1) (2 ^ 32 - 1)) ∧
      Ends (exec (.rachisParkedAnswer h row .request none) s) (fun u => (u.node (row * 10 + (if h = .west then 5 else 4))).parkedAns = min ((s.node (row * 10 + (if h = .west then 5 else 4))).parkedAns + 1) (2 ^ 32 - 1)) ∧
      exec (.rachisParkedAnswer h row .response none) s = .next s)

/-- On a running module: a beacon request on an UP port is answered on that port, leaving TB and memory; a module that expects
beacons counts one more missed beacon at each timer. The response to its last request that is the first after reset steps TB
forward by a positive or zero offset, marks the copies to resynchronise and sets STEPPED, and for a negative offset holds TB;
any later response slews by at most 200 ppm without a step, LOCKED when the offset is within the figure of R50. A hold that ends
lets TB count from the value it held. After four missed beacons the module is in HOLDOVER without LOCKED, unless its parent is
not UP and an alternate takes over. The slew's value and how it follows the offset are open in the spec (log entry 2). (R45,
R49, R50, R366) -/
def Obligations.TimeAcrossTheFabric : Prop :=
  (∀ (s : State) p t1, p < 32 → s.up = true → s.portUp p = true → Ends (exec (.beaconReqReceive p t1) s) (fun u => u.time = s.time ∧ u.mem = s.mem ∧ (∀ q, q ≠ p → u.port q = s.port q))) ∧
  (∀ s : State, s.up = true → s.expectsBeacons = true → Ends (exec .beaconTimer s) (fun u => u.time.missed = s.time.missed + 1 ∧ u.time.tb = s.time.tb ∧
      (s.portUp s.beaconPort = true → u.time.t1 = some s.time.tb) ∧ u.mem = s.mem)) ∧
  (∀ (s : State) (t1 t2 t3 : Word), s.up = true → s.expectsBeacons = true → s.time.t1 = some t1.toNat →
      (s.time.aligned = false → Ends (exec (.beaconRspReceive t1 t2 t3) s) (fun u =>
        let off := (((t2.toNat : Int) - t1.toNat) - ((s.time.tb : Int) - t3.toNat)) / 2
        u.time.offset = off ∧ u.time.aligned = true ∧ u.time.stepped = true ∧ u.time.missed = 0 ∧ u.time.resync = [(0, 1), (1, 1), (2, 1)] ∧
        (0 ≤ off → u.time.tb = (s.time.tb + off.toNat) % 2 ^ 63 ∧ u.time.counting = true) ∧ (off < 0 → u.time.holding = true ∧ u.time.counting = false) ∧ u.mem = s.mem)) ∧
      (s.time.aligned = true → s.time.realign = false → Ends (exec (.beaconRspReceive t1 t2 t3) s) (fun u =>
        u.time.tb = s.time.tb ∧ u.time.slew.natAbs ≤ 20000 ∧ u.time.holdover = false ∧
        (u.time.locked = true ↔ ((((t2.toNat : Int) - t1.toNat) - ((s.time.tb : Int) - t3.toNat)) / 2).natAbs ≤ s.lockFigure s.beaconPort)))) ∧
  (∀ s : State, s.up = true → s.time.holding = true → exec .tbHoldEnd s = .next { s with time := { s.time with holding := false, counting := true } }) ∧
  (∀ s : State, s.up = true → s.expectsBeacons = true → 4 ≤ s.time.missed →
      (s.portUp s.time.parent = true → exec .tbHoldover s = .next { s with time := { s.time with holdover := true, realign := true, locked := false, slew := 0, t1 := none } }) ∧
      (s.portUp s.time.parent = false → s.time.alt < 32 → s.time.onAlt = false → exec .tbHoldover s = .next { s with time := { s.time with onAlt := true, missed := 0 } }))

/-- With nothing in the Keeper's hand: DRAIN makes every SERVING region of its mask DRAINING, stops its running schedule
contexts and leaves every other region's state and all memory as it was; RESUME makes the DRAINING regions of its mask, and
QUIESCENT ones with a mode, SERVING; PURGE makes the SERVING and DRAINING regions of its mask QUIESCENT; each ends with code 0
and BUSY clear. LOAD answers with the image taken when the image is accepted; when it is refused BUSY is clear, THL_STATUS has
the refusal's code and no region and no byte of memory is changed. On a running module: a DRAINING region that meets R75 becomes
QUIESCENT, and nothing else changes; one that does not within the drain limit gives code 0x1A and stays DRAINING. A LOADING
region of the load whose writing is done becomes CHECKING. A CHECKING region of the load, with others still to check, no
takeover under way and no change of the image between the reads, becomes QUIESCENT in mode IDLE or SERVING otherwise when it
passes; when it fails it is QUIESCENT in mode IDLE and the load's code is 0x19. (R74, R76, R77, R81, R82, R75, R79, R407) -/
def Obligations.LoaderCommandsAndEvents : Prop :=
  (∀ (s : State) (m : BitVec 16), s.keeperClear = true →
    Ends (exec (.thlDrain m) s) (fun u => u.loader.busy = false ∧ u.loader.code = 0 ∧ u.mem = s.mem ∧
      (∀ r, r < 16 → (u.region r).st = if m.getLsbD r && (s.region r).st = .serving then .draining else (s.region r).st) ∧
      (∀ r T k, r < 16 → m.getLsbD r = true → (s.region r).st = .serving → T ∈ s.regionTillers r → k < 8 → (s.sq T k).st = .running → (u.sq T k).st = .stopped)) ∧
    Ends (exec (.thlResume m) s) (fun u => u.loader.busy = false ∧ u.loader.code = 0 ∧
      (∀ r, r < 16 → m.getLsbD r = true → (s.region r).st = .draining ∨ ((s.region r).st = .quiescent ∧ (s.region r).mode ≠ 0) → (u.region r).st = .serving)) ∧
    Ends (exec (.thlPurge m) s) (fun u => u.loader.busy = false ∧ u.loader.code = 0 ∧
      (∀ r, r < 16 → m.getLsbD r = true → (s.region r).st = .serving ∨ (s.region r).st = .draining → (u.region r).st = .quiescent)) ∧
    (∀ p : Bool,
      match ({ s with loader := { s.loader with op := 3, purgeBit := p, mask := m.toNat, busy := true, waiting := false, skipped := 0 } } : State).imageGo m.toNat p s.loader.src with
      | .ok v => v.loader.waiting = false → exec (.thlLoad m p) s = .next v.keeperNext
      | .error e => Ends (exec (.thlLoad m p) s) (fun u => u.loader.busy = false ∧ u.loader.code = e.code ∧ u.regions = s.regions ∧ u.mem = s.mem))) ∧
  (∀ (s : State) r, r < 16 → s.up = true → (s.region r).st = .draining →
      (s.meetsQuiet r = true → exec (.regionQuiescent r) s = .next (s.modRegion r (fun x => { x with st := .quiescent }))) ∧
      (s.meetsQuiet r = false → s.loader.drainLim ≠ 0 → exec (.regionDrainTimeout r) s = .next { s with loader := { s.loader with code := 0x1A, sectIdx := 0, offset := 0 } })) ∧
  (∀ (s : State) r, r < 16 → s.up = true → (s.region r).st = .loading → s.loader.toWrite.contains r = true →
      Ends (exec (.regionWriteDone r) s) (fun u => (u.region r).st = .checking)) ∧
  (∀ (s : State) r, r < 16 → s.up = true → (s.region r).st = .checking → s.loader.toCheck.contains r = true → (s.loader.toCheck.erase r).isEmpty = false →
      (s.regionTillers r).any (fun T => (s.tiller T).takeover.isSome) = false → s.loader.changed = false →
      ((s.region r).mode = 0 → Ends (exec (.regionCheckDone r .pass) s) (fun u => (u.region r).st = .quiescent ∧ u.mem = s.mem)) ∧
      ((s.region r).mode = 2 → (s.region r).arrayAuto = false → (s.region r).autostart = [] → Ends (exec (.regionCheckDone r .pass) s) (fun u => (u.region r).st = .serving ∧ u.mem = s.mem)) ∧
      (s.loader.failed = 0 → Ends (exec (.regionCheckDone r .fail) s) (fun u => (u.region r).st = .quiescent ∧ (u.region r).mode = 0 ∧ u.loader.failed = 0x19 ∧ u.mem = s.mem)))

/-- A module reset by MOD_RESET_L low for 10 us or more with PWR_GOOD high, by RST_CMD, or by the Keeper's watchdog leaves the
module in RESET with the TB count, the health log, CARRIER_CAP, flash, fuses and the queue kept and every core, tiller, region,
session and byte of memory at reset; a shorter low is ignored. RST_CMD for a core whose clock runs gives it the reset TOWN and
an empty tile engine and ends; for a port it leaves the port enabled; for a region whose image is taken again it answers with
that image taken. Each ends without BUSY but the region's. (R45, R462, R465, R486, R487) -/
def Obligations.ResetsKeepWhatTheySay : Prop :=
  (∀ (s : State) n, n < 10 → exec (.modResetLLow n) s = .next s) ∧
  (∀ (s : State) (c : Instr), (c = .keeperWatchdogExpire ∧ s.up = true) ∨ (c = .rstModule ∧ s.keeperClear = true) ∨ (∃ n, 10 ≤ n ∧ c = .modResetLLow n ∧ s.pwrGood = true) →
      Ends (exec c s) (fun u => u.power.phase = .reset ∧ u.time.tb = s.time.tb ∧ u.time.counting = s.time.counting ∧ u.rel.log = s.rel.log ∧ u.rel.head = s.rel.head ∧
        u.power.carrierCap = s.power.carrierCap ∧ u.flashA = s.flashA ∧ u.flashB = s.flashB ∧ u.fuses = s.fuses ∧ u.pending = s.pending ∧
        u.cores = [] ∧ u.tillers = [] ∧ u.regions = [] ∧ u.sessions = [] ∧ u.mem = [] ∧ u.reqs = [])) ∧
  (∀ (s : State) c, s.keeperClear = true → c < 1024 → s.clockOn (tillerHalf (c / 16)) = true → Ends (exec (.rstCore c) s) (fun u =>
      (u.core c).town = 0x7766554433221100 ∧ (u.core c).teSent = 0 ∧ u.boot.rstBusy = false)) ∧
  (∀ (s : State) p, s.keeperClear = true → p < 32 → s.linkPort p = true → (s.port p).st = .down ∨ (s.port p).st = .disabled → Ends (exec (.rstLink p) s) (fun u =>
      (u.port p).en = true ∧ (u.port p).lanesDropped = [] ∧ u.boot.rstBusy = false ∧ u.mem = s.mem)) ∧
  (∀ (s : State) r, r < 16 → s.keeperClear = true → (s.region r).st ≠ .undefined →
      let s1 : State := { s with boot := { s.boot with rstOp := 2, rstMask := 2 ^ r, rstCore := 0, rstPort := 0, rstBusy := true }, loader := { s.loader with busy := true, isReset := true, skipped := 0, failed := 0, resetLeft := [] } }
      s1.parkCuts (2 ^ r) = false →
      match s1.resetGroup (2 ^ r) (s.region r) with
      | .ok v => exec (.rstRegion (BitVec.ofNat 16 (2 ^ r))) s = .next v.keeperFree
      | .error e => Ends (exec (.rstRegion (BitVec.ofNat 16 (2 ^ r))) s) (fun u => u.loader.busy = false ∧ u.boot.rstBusy = false ∧ u.loader.code = e.code))

/-- OTC_CLR zeroes the own-thread counters its mask selects, with OTC_INSTR counting the instruction itself, and changes nothing
else of the thread or outside it. A reset of a reachable node's counters zeroes its LINK counters, leaves the others, and counts
SEQ. Enabling a stopped sampler reads its list: a period of 0 or above 1,000,000 us, or a list that cannot be used, stops it
with its code; else sample 0 is due at the first multiple of the period at least 10 us later. Disabling one with no record in
hand makes it idle. At a due time a sampler that is neither paused nor busy holds a record latched at TB; one that is paused or
busy skips it and counts it. A record written without an error response counts in SMP_HEAD, else the sampler stops with the
error. (R425, R428, R429, R430, R431, R432, R433) -/
def Obligations.CountersAndSamples : Prop :=
  (∀ (s : State) t ra, s.clear t 4 = true → (s.reg t ra).toNat < 256 → Ends (exec (.otcClr t ra) s) (fun u => s.onlyThread u t ∧ (u.ctx t).still = (s.ctx t).still ∧
      (u.ctx t).g = (s.ctx t).g ∧ (u.ctx t).v = (s.ctx t).v ∧ (u.ctx t).pc = (s.ctx t).pc + 4 ∧
      ∀ k, sget 0 (u.ctx t).otc k = (if bit (s.reg t ra) k then 0 else sget 0 (s.ctx t).otc k) + (if k = 1 then 1 else 0))) ∧
  (∀ (s : State) n, n < 100 → s.reachable n = true → Ends (exec (.cntReset n) s) (fun u => (u.node n).cntSeq = ((s.node n).cntSeq + 1) % 2 ^ 32 ∧
      (∀ j, sget 0 (u.node n).cntVal j = if bit (sget 0 (s.node n).cntSel j) 17 then 0 else sget 0 (s.node n).cntVal j) ∧ (∀ m, m ≠ n → u.node m = s.node m) ∧ u.mem = s.mem)) ∧
  (∀ (s : State) i w, i < 4 → s.reachable 0 = true → bit w 0 = true → (s.sampler i).en = false →
      (field w 16 20 = 0 ∨ 1000000 < field w 16 20 → Ends (exec (.smpEnable i w) s) (fun u => (u.sampler i).st = 3 ∧ (u.sampler i).err = 0x21 ∧ (u.sampler i).en = true)) ∧
      (∀ l, 0 < field w 16 20 → field w 16 20 ≤ 1000000 → 0 < field w 8 8 → field w 8 8 ≤ 64 → s.readAcc .west (s.sampler i).list (2 * field w 8 8) = .ok l →
        (∀ e, e < field w 8 8 → fld l (2 * e) 2 ≤ 799) → Ends (exec (.smpEnable i w) s) (fun u => (u.sampler i).st = 1 ∧ (u.sampler i).err = 0 ∧ (u.sampler i).head = 0 ∧
          (u.sampler i).due = 0 ∧ (u.sampler i).periodNow = field w 16 20 * 1000 ∧ (u.sampler i).t0 % (field w 16 20 * 1000) = 0 ∧ s.time.tb + 10000 ≤ (u.sampler i).t0 ∧
          (u.sampler i).t0 < s.time.tb + 10000 + field w 16 20 * 1000 ∧ u.mem = s.mem))) ∧
  (∀ (s : State) i w, i < 4 → s.reachable 0 = true → bit w 0 = false → (s.sampler i).en = true → (s.sampler i).busy = none →
      Ends (exec (.smpDisable i w) s) (fun u => (u.sampler i).st = 0 ∧ (u.sampler i).en = false ∧ (∀ j, j ≠ i → u.sampler j = s.sampler j) ∧ u.mem = s.mem)) ∧
  (∀ (s : State) i, i < 4 → s.up = true → (s.sampler i).en = true → (s.sampler i).st = 1 → (s.sampler i).t0 + (s.sampler i).due * (s.sampler i).periodNow ≤ s.time.tb →
      (s.samplerPaused (s.sampler i) = false → (s.sampler i).busy = none → Ends (exec (.sampleDue i) s) (fun u => (u.sampler i).busy.isSome = true ∧
        (u.sampler i).due = (s.sampler i).due + 1 ∧ (u.sampler i).latchAt = s.time.tb ∧ (u.sampler i).gap = 0 ∧ u.mem = s.mem)) ∧
      (s.samplerPaused (s.sampler i) = true ∨ (s.sampler i).busy.isSome = true → Ends (exec (.sampleDue i) s) (fun u => (u.sampler i).due = (s.sampler i).due + 1 ∧
        (u.sampler i).skipped = min ((s.sampler i).skipped + 1) (2 ^ 32 - 1) ∧ (u.sampler i).busy = (s.sampler i).busy ∧ u.mem = s.mem))) ∧
  (∀ (s s1 s2 : State) i d, i < 4 → s.up = true → (s.sampler i).busy = some d → s.writeAcc .west ((s.sampler i).recordAt (fld d 8 4) + 32) (d.drop 32) = (none, s1) →
      s1.writeAcc .west ((s.sampler i).recordAt (fld d 8 4)) (d.take 32) = (none, s2) →
      Ends (exec (.sampleWritten i) s) (fun u => u.mem = s2.mem ∧ (u.sampler i).busy = none ∧ (u.sampler i).head = ((s.sampler i).head + 1) % 2 ^ 32))

/-- Through a reachable node: a halt request of a READY thread halts it at once with cause 1, DBG_PC, DBG_PROG and DBG_LEVEL set
and its save sets untouched; of a RUNNING thread with no wait it is held, of a FREE or HALTED one it does nothing. RESUME and
STEP of a context that a debugger halted make it run again with the first breakpoints skipped, STEP marking the next boundary.
DBG_PC written while halted sets the resume PC with bit 0 clear and zeroes DBG_PROG. None of them changes a general register, a
save set or memory. With PWR_GOOD high, Test-Logic-Reset selects IDCODE and changes nothing else. On a running module an ACCESS
without GO changes nothing; one the debug policy refuses shows status 3 and accesses nothing; one it allows shows status 2 with
the DETAIL of an error response, or status 0, and a read gives its data. (R125, R441, R442, R443, R439, R440) -/
def Obligations.DebugAndTestAccessPort : Prop :=
  (∀ (s : State) t, tidOk t = true → s.reachable (tidNode t) = true →
      ((s.ctx t).st = .ready → Ends (exec (.dbgHalt t) s) (fun u => (u.ctx t).st = .halted ∧ (u.ctx t).dbg.byDebugger = true ∧ (u.ctx t).dbg.cause = 1 ∧
        (u.ctx t).dbg.pc = (s.ctx t).pc ∧ (u.ctx t).dbg.prog = (s.ctx t).prog ∧ (u.ctx t).dbg.level = (s.ctx t).level ∧ (u.ctx t).g = (s.ctx t).g ∧
        (u.ctx t).xs0 = (s.ctx t).xs0 ∧ (u.ctx t).xs1 = (s.ctx t).xs1 ∧ u.mem = s.mem)) ∧
      ((s.ctx t).st = .running → (s.ctx t).wait = none → Ends (exec (.dbgHalt t) s) (fun u => u.ctx t = { s.ctx t with dbg := { (s.ctx t).dbg with pending := true, late := false } } ∧ u.mem = s.mem)) ∧
      ((s.ctx t).st = .free ∨ (s.ctx t).st = .halted → exec (.dbgHalt t) s = .next s)) ∧
  (∀ (s : State) t, tidOk t = true → s.reachable (tidNode t) = true → (s.ctx t).st = .halted → (s.ctx t).dbg.byDebugger = true →
      Ends (exec (.dbgResume t) s) (fun u => ((u.ctx t).st = .ready ∨ (u.ctx t).st = .running) ∧ (u.ctx t).dbg.skip = true ∧ (u.ctx t).dbg.stepping = false ∧
        (u.ctx t).dbg.byDebugger = false ∧ (u.ctx t).pc = (s.ctx t).pc ∧ (u.ctx t).g = (s.ctx t).g ∧ (u.ctx t).xs0 = (s.ctx t).xs0 ∧ u.mem = s.mem) ∧
      Ends (exec (.dbgStep t) s) (fun u => ((u.ctx t).st = .ready ∨ (u.ctx t).st = .running) ∧ (u.ctx t).dbg.skip = true ∧ (u.ctx t).dbg.stepping = true ∧
        (u.ctx t).dbg.byDebugger = false ∧ (u.ctx t).pc = (s.ctx t).pc ∧ (u.ctx t).g = (s.ctx t).g ∧ (u.ctx t).xs0 = (s.ctx t).xs0 ∧ u.mem = s.mem) ∧
      ∀ w : Word, Ends (exec (.dbgPcWrite t w) s) (fun u => u.ctx t = { s.ctx t with pc := word (w.toNat / 2 * 2), prog := 0, dbg := { (s.ctx t).dbg with pc := word (w.toNat / 2 * 2), prog := 0 } } ∧ u.mem = s.mem)) ∧
  (∀ s : State, s.pwrGood = true → exec .tapReset s = .next { s with tap := { s.tap with ir := 1 } }) ∧
  (∀ (s : State) dr, dr.getLsbD 45 = false → exec (.tapAccess dr) s = .next s) ∧
  (∀ (s : State) (dr : BitVec 112), s.up = true → dr.getLsbD 45 = true → s.tapAllows (dr.toNat % 2 ^ 44) = false →
      exec (.tapAccess dr) s = .next { s with tap := { s.tap with ir := 0x10, status := 3, detail := 0 } }) ∧
  (∀ (s : State) (dr : BitVec 112), s.up = true → dr.getLsbD 45 = true → s.tapAllows (dr.toNat % 2 ^ 44) = true →
      (∀ e v, ({ s with tap := { s.tap with ir := 0x10 } } : State).tapGo (dr.toNat % 2 ^ 44) (dr.getLsbD 44) (word (dr.toNat / 2 ^ 48)) = (.error e, v) →
        Ends (exec (.tapAccess dr) s) (fun u => u.tap.status = 2 ∧ u.tap.detail = e ∧ u.mem = v.mem)) ∧
      (∀ x v, ({ s with tap := { s.tap with ir := 0x10 } } : State).tapGo (dr.toNat % 2 ^ 44) (dr.getLsbD 44) (word (dr.toNat / 2 ^ 48)) = (.ok x, v) →
        Ends (exec (.tapAccess dr) s) (fun u => u.tap.status = 0 ∧ u.tap.detail = 0 ∧ (dr.getLsbD 44 = false → u.tap.data = x) ∧ u.mem = v.mem)))

/-- With the service ports' node reachable a doorbell makes an enabled port scan. A scanning port whose link is up ends its scan
at a descriptor it does not own, and sends the frame of one it owns, moving on in its ring. A frame that a port accepts moves it
on when its descriptor is owned by the port, and is dropped and counted when it is not; a bad FCS is counted. A link change to a
permitted state is recorded. On a PCIe link that is up an inbound write into HBM or the common store performs it, an inbound
read answers the bytes, a write to the MSI address and an MSI make the vector's source pending at its enabled target, and INTx
does the same with source 9; a change of the PCIe link is recorded, with an error counted. (R389, R392, R393, R394, R396) -/
def Obligations.EthernetAndPcie : Prop :=
  (∀ (s : State) p w, p < 2 → s.reachable ethNode = true → bit w 0 = true → (s.ethPort p).en = true → exec (.ethDbTx p w) s = .next (s.modEth p (fun x => { x with scanning := true }))) ∧
  (∀ (s : State) p, p < 2 → s.up = true → (s.ethPort p).en = true → (s.ethPort p).scanning = true → (s.ethPort p).link = 2 →
      (∀ l, s.ethDesc (s.ethPort p).txDesc = some l → (fld l 10 1).testBit 0 = false → exec (.ethTxFrameSent p) s = .next (s.modEth p (fun x => { x with scanning := false }))) ∧
      (∀ l d, s.ethDesc (s.ethPort p).txDesc = some l → (fld l 10 1).testBit 0 = true → inBulk (fld l 0 8) (fld l 8 2) = true → fld l 8 2 ≤ ethMax →
        s.readAcc (nodeHalf ethNode) (fld l 0 8) (fld l 8 2) = .ok d → Ends (exec (.ethTxFrameSent p) s) (fun u => (u.ethPort p).sent = (s.ethPort p).sent ++ [d] ∧
          (u.ethPort p).txNext = ((s.ethPort p).txNext + 1) % 2 ^ (s.ethPort p).txSize ∧ (u.ethPort p).scanning = true))) ∧
  (∀ (s : State) p f ok, p < 2 → s.up = true → (s.ethPort p).en = true → (s.ethPort p).link = 2 → (s.ethPort p).accepts f = true →
      (s.ethDesc (s.ethPort p).rxDesc = none → Ends (exec (.ethFrameReceive p f ok) s) (fun u => (u.ethPort p).rxDrop = min ((s.ethPort p).rxDrop + 1) 65535 ∧
        (u.ethPort p).fcsErr = (if ok then (s.ethPort p).fcsErr else min ((s.ethPort p).fcsErr + 1) 65535) ∧ u.mem = s.mem)) ∧
      (∀ l, s.ethDesc (s.ethPort p).rxDesc = some l → (fld l 10 1).testBit 0 = true → Ends (exec (.ethFrameReceive p f ok) s) (fun u =>
        (u.ethPort p).rxNext = ((s.ethPort p).rxNext + 1) % 2 ^ (s.ethPort p).rxSize ∧ (u.ethPort p).rxDrop = (s.ethPort p).rxDrop))) ∧
  (∀ (s : State) p (link : BitVec 2), p < 2 → s.up = true → link ≠ 3 → (s.ethPort p).en = true → (s.ethPort p).link ≠ link.toNat →
      Ends (exec (.ethLinkChange p link) s) (fun u => u.ethPort p = { s.ethPort p with link := link.toNat } ∧ u.mem = s.mem)) ∧
  (∀ (s : State) (a : Word) d rx, s.pcieUp = true → inBulk a.toNat d.length = true → (a.toNat ≠ msiAddr ∨ d.length ≠ 4) → exec (.pcieInboundWrite a d rx) s = .next (s.writeAcc (nodeHalf pcieNode) a.toNat d).2) ∧
  (∀ (s : State) (a : Word) n l, s.pcieUp = true → inBulk a.toNat n = true → n ≤ 4096 → s.readAcc (nodeHalf pcieNode) a.toNat n = .ok l →
      exec (.pcieInboundRead a n) s = .next { s with pcie := { s.pcie with reply := some l } }) ∧
  (∀ (s : State) (d : BitVec 32), s.pcieUp = true → (sget 0 s.xintTgt (16 + d.toNat % 32)).testBit 4 = true →
      Ends (exec (.pcieMsi d) s) (fun u => (u.culmCore (sget 0 s.xintTgt (16 + d.toNat % 32) % 16)).xint.getLsbD (16 + d.toNat % 32) = true ∧ u.mem = s.mem)) ∧
  (∀ s : State, s.pcieUp = true → (sget 0 s.xintTgt 9).testBit 4 = true → Ends (exec .pcieIntxMessage s) (fun u => (u.culmCore (sget 0 s.xintTgt 9 % 16)).xint.getLsbD 9 = true ∧ u.mem = s.mem)) ∧
  (∀ (s : State) (link : BitVec 2) sp wd err, sp ≤ 5 → wd ≤ 8 → s.up = true → link ≠ 3 → s.pcie.en = true → (s.pcie.link ≠ link.toNat ∨ err = true) →
      Ends (exec (.pcieLinkChange link sp wd err) s) (fun u => u.pcie = { s.pcie with link := link.toNat, speed := sp, width := wd, aer := if err then min (s.pcie.aer + 1) 65535 else s.pcie.aer } ∧ u.mem = s.mem))

/-- A Culm core's thread at level 0 or 1: TLBI drops the translations of its page for its own ASID and the global ones, TLBIA
those of an ASID without the global ones, or every one; WFI retires at once with an interrupt pending and waits without one;
IPI_SEND makes source 52 + VEC pending at its target core; TMR_CMP takes its time and clears a pending TIMER; at level 0 CFLUSH
of one line writes its dirty copy back and keeps it clean, CFLUSHI also leaves no copy of it anywhere. At level 2 the privileged
ones raise PRIVILEGE, and on a compute core every one of the instruction words raises ILLEGAL. (R103, R371, R376, R377, R390) -/
def Obligations.CulmInstructions : Prop :=
  (∀ (s : State) t, s.clearCulm t = true → (s.ctx t).level ≠ 2 →
      (∀ ra, Ends (exec (.tlbi t ra false) s) (fun u => u.mem = s.mem ∧ (u.ctx t).pc = (s.ctx t).pc + 4 ∧ (u.culmCore (t.unit - 1024)).tlb = (s.culmCore (t.unit - 1024)).tlb.filter
        (fun e => !((s.reg t ra).toNat / 2 ^ e.shift = e.vpn && (e.asid = (s.culmCore (t.unit - 1024)).asid || e.pte.getLsbD 5))))) ∧
      (∀ ra every, Ends (exec (.tlbia t ra every false) s) (fun u => u.mem = s.mem ∧ (u.ctx t).pc = (s.ctx t).pc + 4 ∧ (u.culmCore (t.unit - 1024)).tlb = (s.culmCore (t.unit - 1024)).tlb.filter
        (fun e => !(every || (e.asid = field (s.reg t ra) 0 16 && !e.pte.getLsbD 5))))) ∧
      ((s.culmCore (t.unit - 1024)).xint ≠ 0 → Ends (exec (.wfi t) s) (fun u => s.retires u t 4 ∧ (u.ctx t).g = (s.ctx t).g)) ∧
      ((s.culmCore (t.unit - 1024)).xint = 0 → (s.culmCore (t.unit - 1024)).timerAt = none → Ends (exec (.wfi t) s) (fun u => (u.ctx t).st = .waiting ∧
        (u.ctx t).wait = some ⟨.interrupt, .wfi t⟩ ∧ (u.ctx t).pc = (s.ctx t).pc ∧ (u.ctx t).g = (s.ctx t).g ∧ u.mem = s.mem)) ∧
      (∀ w, Ends (exec (.ipiSend t w) s) (fun u => (u.culmCore (field w 0 4)).xint.getLsbD (52 + field w 4 2) = true ∧ (u.ctx t).pc = (s.ctx t).pc + 4 ∧ u.mem = s.mem)) ∧
      (∀ w, Ends (exec (.tmrCmpWrite t w) s) (fun u => (u.culmCore (t.unit - 1024)).tmr = field w 0 63 ∧ (u.culmCore (t.unit - 1024)).timerAt = none ∧ (u.ctx t).pc = (s.ctx t).pc + 4 ∧ u.mem = s.mem)) ∧
      (∀ ra, (s.ctx t).level = 0 → isCacheable ((s.reg t ra).toNat / 64 * 64) = true →
        Ends (exec (.cflush t ra 0) s) (fun u => u.mem = (s.writeBack (tidHalf t) ((s.reg t ra).toNat / 64)).mem ∧ (u.ctx t).pc = (s.ctx t).pc + 4 ∧ (u.ctx t).g = (s.ctx t).g ∧
          ((s.line ((s.reg t ra).toNat / 64)).present = true → (u.line ((s.reg t ra).toNat / 64)).dirty = false)) ∧
        Ends (exec (.cflushi t ra 0) s) (fun u => u.mem = (s.writeBack (tidHalf t) ((s.reg t ra).toNat / 64)).mem ∧ (u.ctx t).pc = (s.ctx t).pc + 4 ∧ (u.ctx t).g = (s.ctx t).g ∧
          u.line ((s.reg t ra).toNat / 64) = {} ∧ ∀ k, k < 16 → u.inSide k ((s.reg t ra).toNat / 64) = false))) ∧
  (∀ (s : State) t ra (w : Word), s.clearCulm t = true → (s.ctx t).level = 2 → ((s.privilege t).ctx t).trapDue = none →
      ∀ c ∈ [Instr.tlbi t ra false, .tlbia t ra false false, .wfi t, .ipiSend t w, .tmrCmpWrite t w], exec c s = .next ((s.privilege t).settleDebug t)) ∧
  (∀ (s : State) t ra n, s.clearCompute t = true → ((s.illegal t).ctx t).trapDue = none →
      ∀ c ∈ [Instr.tlbi t ra false, .tlbia t ra false false, .wfi t, .cflush t ra n, .cflushi t ra n], exec c s = .next ((s.illegal t).settleDebug t))

/-- On a running Culm node: a prefetched line from a cache goes to the side buffer, an exclusive probe takes a core's copy of a
line and a shared one leaves it; a clean line with an uncorrectable error is invalidated and counted, an L1I error changes
nothing. STOP stops a RUNNING node, START starts a STOPPED or FAILED one in Mode P with its cores at level 0 at the boot entry,
GO_E begins the sweep of a node in Mode P, TEST that of a STOPPED node, and the sweep's end is Mode E. A KICK restarts the
watchdog's count and keeps PERIOD; a running node whose count reaches PERIOD, and one that fails for another cause, is FAILED
with its cause. A TIMER is pending once TB has reached its time. With CULM_RESTART a failed node that passes its test is
started. (R380, R381, R382, R383, R385, R386, R387, R388, R389, R411) -/
def Obligations.CulmCachesAndNodes : Prop :=
  (∀ (s : State) k l, k < 16 → isCacheable (l * 64) = true → s.nodeRuns (k / 4) = true → (s.line l).present = true → s.inL2 k l = false → s.inSide k l = false → (s.culmCore k).side.length < 16 → (s.culmCore k).ctx.wait = none →
      Ends (exec (.prefetchFill k l) s) (fun u => (u.culmCore k).side = (s.culmCore k).side ++ [l] ∧ (u.culmCore k).prefetch = ndel l (s.culmCore k).prefetch ∧ u.mem = s.mem)) ∧
  (∀ (s : State) k l, k < 16 → exec (.coherenceProbe k l false) s = .next s) ∧
  (∀ (s : State) k l, k < 16 → s.nodeRuns (k / 4) = true → s.inL2 k l = true → (s.line l).dirty = false → Ends (exec (.coherenceProbe k l true) s) (fun u => u.inSide k l = false ∧
      ((s.line l).cores.Nodup → u.inL2 k l = false) ∧ u.mem = s.mem)) ∧
  (∀ (s : State) k l, k < 16 → s.nodeRuns (k / 4) = true → exec (.culmCacheError k .l1iParity l) s = .next s) ∧
  (∀ (s : State) k l, k < 16 → s.nodeRuns (k / 4) = true → s.reachesLine k l = true → (s.line l).dirty = false → Ends (exec (.culmCacheError k .uncorrectable l) s) (fun u =>
      (u.culmNode (k / 4)).cleanInv = min ((s.culmNode (k / 4)).cleanInv + 1) 65535 ∧ (u.culmNode (k / 4)).st = 1 ∧ u.inSide k l = false ∧ u.mem = s.mem)) ∧
  (∀ (s : State) i, i < 4 → s.up = true →
      ((s.culmNode i).st = 1 → Ends (exec (.cnStop i) s) (fun u => (u.culmNode i).st = 2)) ∧
      ((s.culmNode i).st = 2 ∨ (s.culmNode i).st = 3 → Ends (exec (.cnStart i) s) (fun u => (u.culmNode i).st = 1 ∧ (u.culmNode i).mode = 0 ∧ (u.culmNode i).cause = 0 ∧
        ∀ k ∈ nodeCores i, (u.culmCore k).ctx.st = .running ∧ (u.culmCore k).ctx.level = 0 ∧ (u.culmCore k).ctx.pc = word s.boot.culmEntry ∧ (u.culmCore k).pgEn = false)) ∧
      Ends (exec (.cnWdogKick i) s) (fun u => u.culmNode i = { s.culmNode i with wdogAt := s.time.tb } ∧ u.mem = s.mem) ∧
      ((s.culmNode i).mode = 2 ∨ (s.culmNode i).mode = 3 → Ends (exec (.cnSweepEnd i) s) (fun u => u.culmNode i = { s.culmNode i with mode := 1 } ∧ u.mem = s.mem))) ∧
  (∀ (s : State) i, i < 4 → s.reachable (culmNodeNode i) = true →
      ((s.culmNode i).mode = 0 → Ends (exec (.cnGoE i) s) (fun u => u.culmNode i = { s.culmNode i with mode := 2 } ∧ u.mem = s.mem)) ∧
      ((s.culmNode i).st = 2 → Ends (exec (.cnTest i) s) (fun u => (u.culmNode i).mode = 3 ∧ (u.culmNode i).st = 2))) ∧
  (∀ (s : State) i, i < 4 → s.nodeRuns i = true → s.loader.rel = none →
      (∀ c, c = 1 ∨ c = 2 → Ends (exec (.culmNodeFail i c) s) (fun u => (u.culmNode i).st = 3 ∧ (u.culmNode i).cause = c)) ∧
      ((s.culmNode i).period ≠ 0 → (s.culmNode i).wdogAt + (s.culmNode i).period * 1000 ≤ s.time.tb → Ends (exec (.cnWdogExpire i) s) (fun u => (u.culmNode i).st = 3 ∧ (u.culmNode i).cause = 2))) ∧
  (∀ (s : State) k, k < 16 → s.nodeRuns (k / 4) = true → (s.culmCore k).tmr ≠ 0 → (s.culmCore k).tmr ≤ s.time.tb → (s.culmCore k).timerAt = none →
      Ends (exec (.timerMatch k) s) (fun u => (u.culmCore k).timerAt = some s.time.tb ∧ u.mem = s.mem)) ∧
  (∀ (s : State) i r, i < 4 → s.up = true → s.loader.rel = some r → r.culmRestart = true → (s.culmNode i).st = 3 → Ends (exec (.culmRestart i 0 true) s) (fun u => (u.culmNode i).st = 1 ∧ (u.culmNode i).mode = 0))

/-- On a store whose clock runs: reading a word with a single-bit error corrects it and counts it for its tiller, reading a good
word changes nothing, and reading a bad word whose row is already replaced changes no byte of memory. The scrubber reads the
next word each time; a good one changes only its position. A bank that fails while the store's spare bank is free moves to it,
its contents corrected, with no byte of memory changed; no correction changes memory. (R212, R213, R214, R399, R400) -/
def Obligations.StoreErrorsAndRepair : Prop :=
  (∀ (s : State) a st o, s.storeOf a = some (st, o) → s.storeOn st = true → s.badWords.contains (s.unitKey a) = false →
      (s.ceWords.contains (s.unitKey a) = true → Ends (exec (.sramRead a) s) (fun u => u.ceWords = s.ceWords.filter (· ≠ s.unitKey a) ∧ u.badWords = s.badWords ∧
        (u.tiller (storeTiller st)).sramCe = min ((s.tiller (storeTiller st)).sramCe + 1) (2 ^ 24 - 1) ∧ u.mem = s.mem)) ∧
      (s.ceWords.contains (s.unitKey a) = false → exec (.sramRead a) s = .next s)) ∧
  (∀ (s : State) a st o, s.storeOf a = some (st, o) → s.storeOn st = true → s.badWords.contains (s.unitKey a) = true →
      (s.repair st).rows.contains (storeBank st (s.unitKey a - storeCell st 0), Config.rowOf (s.unitKey a)) = true → Ends (exec (.sramRead a) s) (fun u => u.mem = s.mem ∧ u.badWords = s.badWords)) ∧
  (∀ (s : State) st, storeOk st = true → s.storeOn st = true →
      s.badWords.contains (storeCell st ((s.repair st).scrubAt % (storeBytes st / 8) * 8)) = false → s.ceWords.contains (storeCell st ((s.repair st).scrubAt % (storeBytes st / 8) * 8)) = false →
      Ends (exec (.sramScrub st) s) (fun u => u.repair st = { s.repair st with scrubAt := (s.repair st).scrubAt + 1 } ∧ (∀ q, q ≠ st → u.repair q = s.repair q) ∧ u.mem = s.mem ∧ u.tillers = s.tillers)) ∧
  (∀ (s : State) st b, storeOk st = true → b < storeBanks st → s.storeOn st = true → (s.repair st).bankUsed = false → Ends (exec (.sramBankFail st b) s) (fun u =>
      (u.repair st).bankUsed = true ∧ (u.repair st).rows = (s.repair st).rows.filter (fun r => r.1 ≠ b) ∧ u.badWords = s.badWords ∧
      (∀ k ∈ u.ceWords, k ∈ s.ceWords ∧ ¬(inStoreCell st k = true ∧ storeBank st (k - storeCell st 0) = b)) ∧ u.mem = s.mem))

/-- On a running module with the stack READY: reading good codewords changes nothing, reading one correctable codeword corrects
and counts it; the patrol scrubber moves to the next codeword, beginning a new pass with the new period at the end, and a good
one changes nothing else; a spare lane is counted; a row repair with a spare row left in its bank records the row in the remap
table and clears its correctable errors, and without one the pseudo-channel is failed; a temperature is recorded with the
highest, double refresh above 85 C and the throttle with HBM_WARN above 95 C; a refresh changes nothing. A failed command path
sets its HBM_PCFAIL bit. The number of spare rows is open in the spec (log entry 1). (R324, R325, R328, R329, R330, R457) -/
def Obligations.HbmErrorsAndRepair : Prop :=
  (∀ (s : State) a n, a + n ≤ 0xC000000000 → (codewords a n).all (fun c => !s.unitBad c && !s.ceWords.contains (s.unitKey c)) = true → exec (.hbmRead a n) s = .next s) ∧
  (∀ (s : State) a, a % 32 = 0 → a + 32 ≤ 0xC000000000 → s.stackOn ((s.hbmPlace a).1 / 32) = true → s.unitBad a = false → s.ceWords.contains (s.unitKey a) = true →
      Ends (exec (.hbmRead a 32) s) (fun u => u.ceWords = s.ceWords.filter (· ≠ s.unitKey a) ∧ u.badWords = s.badWords ∧
        (u.stack (s.unitKey a / 2 ^ 31 / 32)).ce = min ((s.stack (s.unitKey a / 2 ^ 31 / 32)).ce + 1) (2 ^ 24 - 1) ∧ u.mem = s.mem)) ∧
  (∀ (s : State) i, i < 12 → s.stackOn i = true →
      let cell := (32 * i + (s.stack i).progress / 2 ^ 26 % 32) * 2 ^ 31 + (s.stack i).progress % 2 ^ 26 * 32
      (s.stack i).pcfail.testBit ((32 * i + (s.stack i).progress / 2 ^ 26 % 32) % 32) = false → s.badWords.contains cell = false → s.ceWords.contains cell = false →
      Ends (exec (.hbmPatrolScrub i) s) (fun u => (∀ j, j ≠ i → u.stack j = s.stack j) ∧ u.mem = s.mem ∧
        ((s.stack i).progress + 1 < 2 ^ 31 → u.stack i = { s.stack i with progress := (s.stack i).progress + 1 }) ∧
        ((s.stack i).progress + 1 = 2 ^ 31 → u.stack i = { s.stack i with progress := 0, passes := min ((s.stack i).passes + 1) 65535, period := (s.stack i).periodNext }))) ∧
  (∀ (s : State) pc, pc < 384 → s.stackOn (pc / 32) = true → Ends (exec (.hbmLaneRepair pc true) s) (fun u => (u.stack (pc / 32)).lanes = min ((s.stack (pc / 32)).lanes + 1) 255 ∧ u.mem = s.mem)) ∧
  (∀ (s : State) i b r, i < 12 → s.stackOn i = true → Ends (exec (.hbmRowRepair i b r) s) (fun u => u.mem = s.mem ∧
      (sget 0 (s.stack i).bankRows b < Config.hbmSpareRows → sget 0 (u.stack i).bankRows b = sget 0 (s.stack i).bankRows b + 1 ∧ (u.stack i).remap = (s.stack i).remap ++ [(b, r)] ∧
        (u.stack i).rows = min ((s.stack i).rows + 1) 4095 ∧ (u.stack i).pcfail = (s.stack i).pcfail) ∧
      (Config.hbmSpareRows ≤ sget 0 (s.stack i).bankRows b → (u.stack i).pcfail.testBit (Config.hbmBankPc b % 32) = true))) ∧
  (∀ (s : State) i t, i < 12 → s.up = true → (s.stack i).st ≠ 0 → t < 256 → Ends (exec (.hbmTempRead i t) s) (fun u =>
      u.stack i = { s.stack i with temp := t, max := max (s.stack i).max t, double := decide (85 < t), throttle := decide (95 < t) } ∧
      (95 < t → u.power.alertSrc.testBit 3 = true ∧ u.power.carrierAlert.testBit 3 = true) ∧ u.mem = s.mem)) ∧
  (∀ (s : State) i, i < 12 → exec (.hbmRefresh i) s = .next s) ∧
  (∀ (s : State) pc, pc < 384 → s.up = true → Ends (exec (.pcCommandPathFailure pc) s) (fun u => (u.stack (pc / 32)).pcfail.testBit (pc % 32) = true ∧ u.mem = s.mem))

/-- In a tiller whose takeover of core c is under way: a fault of the spare ends it, the spare being lost; once nothing of the
core is on its way, the end of the copy makes the spare serve its number with the kept SLOT_TBL and watchdog code, XDTB and GDTB
zero, no event pending and its failed core in the retirement table; until then nothing changes. A core fault outside any step
frees contexts 1 to 7 and stamps the fault; a second one within 1 s with a free spare starts a takeover. RATE ends by its own
command alone. A self-test that no core fails lets the replay go on; one that a core fails records a CORE_FAULT of that core.
(R282, R397, R403, R404, R405, R406, R410) -/
def Obligations.SpareTakesOver : Prop :=
  (∀ (s : State) T c, T < 64 → c < 16 → s.up = true → s.clockOn (tillerHalf T) = true → (s.tiller T).takeover = some c →
      Ends (exec (.takeoverCopyDone T true) s) (fun u => (u.tiller T).takeover = none ∧ (u.tiller T).spareLost = true ∧ (u.tiller T).spareServes = (s.tiller T).spareServes ∧ u.mem = s.mem) ∧
      (s.coreQuiet (T * 16 + c) = true → Ends (exec (.takeoverCopyDone T false) s) (fun u => (u.tiller T).takeover = none ∧ (u.tiller T).spareServes = some c ∧ (T * 17 + c) ∈ u.rel.retired ∧
        (u.core (T * 16 + c)).slotTbl = (s.core (T * 16 + c)).keptSlot ∧ (u.core (T * 16 + c)).twdogExp = (s.core (T * 16 + c)).keptTwdog ∧ (u.core (T * 16 + c)).xdtb = 0 ∧
        (u.core (T * 16 + c)).gdtb = 0 ∧ (u.core (T * 16 + c)).evPend = 0 ∧ u.mem = s.mem)) ∧
      (s.coreQuiet (T * 16 + c) = false → exec (.takeoverCopyDone T false) s = .next s)) ∧
  (∀ (s : State) n, n < 1024 → s.up = true → s.clockOn (tillerHalf (n / 16)) = true → s.inStep n = false → s.waitingForks (n / 16) (n % 16) = [] →
      Ends (exec (.coreFaultUnstepped n) s) (fun u => (u.core n).lastFault = some s.time.tb ∧ (∀ k, 1 ≤ k → k < 8 → (u.ctx ⟨n, k⟩).st = .free) ∧
        ((∀ t, (s.core n).lastFault = some t → t + 1000000000 ≤ s.time.tb) → (u.tiller (n / 16)).takeover = (s.tiller (n / 16)).takeover) ∧
        (∀ t, (s.core n).lastFault = some t → s.time.tb < t + 1000000000 → s.spareFree (n / 16) = true → (u.tiller (n / 16)).takeover = some (n % 16)))) ∧
  (∀ (s : State) T, T < 64 → s.up = true → Ends (exec (.relRateExpire T) s) (fun u => u.tiller T = { s.tiller T with rate := false } ∧ (∀ T', T' ≠ T → u.tiller T' = s.tiller T') ∧ u.cores = s.cores ∧ u.mem = s.mem)) ∧
  (∀ (s : State) T k x, T < 64 → k < 8 → s.up = true → (s.sq T k).steps.find? (fun x => x.replayDue && x.testDue) = some x →
      Ends (exec (.dupSelftest T k []) s) (fun u => (u.sq T k).steps = (s.sq T k).steps.map (fun y => if y.serial = x.serial then { y with testDue := false } else y) ∧ u.cores = s.cores ∧ u.mem = s.mem) ∧
      ∀ c, c < 16 → Ends (exec (.dupSelftest T k [c]) s) (fun u => (u.sq T k).faultCause = 2 ∧ (u.sq T k).faultCore = c ∧ (u.sq T k).faultStep = x.rec'.stepId))

/-- While the mirror session is open, a mirrored pair that is not current and that no commit mirrors begins a background copy.
Its copy arrived, its record goes out, 64 bytes with SEQ, tiller, pair and the slot that the buddy does not yet hold live; its
record arrived, the buddy holds the pair, with SEQ unchanged. An error response takes mirroring DOWN and ends the copy. The
arrival of the last mirror record, or watch record, of the oldest step of the only context in flight lets its commit end: the
step leaves flight, a mirrored pair's SEQ counting and its slot changing. (R413, R414, R415, R435) -/
def Obligations.MirrorsAndWatches : Prop :=
  (∀ (s : State) T p r, T < 64 → p < 64 → s.up = true → s.loader.rel = some r → r.mirrorEn = true → (s.session r.sess).st = 1 → s.mirrored T p = true → (s.pair T p).valid = true →
      (s.pair T p).mirrorCurrent = false → (s.pair T p).background = 0 → s.commitMirrors T p = false →
      Ends (exec (.mirrorBackgroundCopy T p) s) (fun u => u.pair T p = { s.pair T p with background := 1 } ∧ (∀ q, q ≠ p → u.pair T q = s.pair T q) ∧ u.cores = s.cores ∧ u.mem = s.mem)) ∧
  (∀ (s : State) T p, T < 64 → p < 64 → s.up = true →
      ((s.pair T p).background = 1 → Ends (exec (.mirrorWriteArrived T p true) s) (fun u => (u.pair T p).background = 2 ∧ (u.pair T p).mirrorRec.length = 64 ∧
        fld (u.pair T p).mirrorRec 8 8 = (s.pair T p).mirrorSeq % 2 ^ 64 ∧ fld (u.pair T p).mirrorRec 16 1 = T ∧ fld (u.pair T p).mirrorRec 17 1 = p ∧
        fld (u.pair T p).mirrorRec 18 1 = b2n (!(s.pair T p).mirrorSlot) ∧ (u.pair T p).mirrorSeq = (s.pair T p).mirrorSeq ∧ u.mem = s.mem)) ∧
      ((s.pair T p).background = 2 → Ends (exec (.mirrorWriteArrived T p true) s) (fun u => (u.pair T p).background = 0 ∧ (u.pair T p).mirrorCurrent = true ∧
        (u.pair T p).mirrorSlot = (!(s.pair T p).mirrorSlot) ∧ (u.pair T p).mirrorSeq = (s.pair T p).mirrorSeq ∧ u.mem = s.mem)) ∧
      ((s.pair T p).background ≠ 0 → s.mirrorOff = false → Ends (exec (.mirrorWriteArrived T p false) s) (fun u => u.rel.mirrorDown = true ∧ (u.pair T p).background = 0 ∧
        (u.pair T p).mirrorCurrent = (s.pair T p).mirrorCurrent ∧ u.mem = s.mem))) ∧
  (∀ (s : State) T k x l p, T < 64 → k < 8 → p < 64 → s.sqOn T = true → (s.sq T k).steps = x :: l → (∀ y ∈ l, y.serial ≠ x.serial) → (∀ j, j < 8 → j ≠ k → (s.sq T j).steps = []) → s.mayCommit ⟨T, k, x.serial⟩ = true →
      x.watched = true →
      (x.watchLeft = [] → x.mirrored = true → x.mirrorLeft = [(p, true)] → (s.pair T p).background = 0 → Ends (exec (.mirrorWriteArrived T p true) s) (fun u =>
        (∀ y ∈ (u.sq T k).steps, y ∈ l) ∧ (u.pair T p).mirrorSeq = (s.pair T p).mirrorSeq + 1 ∧ (u.pair T p).mirrorSlot = (!(s.pair T p).mirrorSlot))) ∧
      (∀ i, x.watchLeft = [i] → x.mirrorLeft = [] → x.commit = [] → Ends (exec (.watchRecordArrived T k) s) (fun u => (u.sq T k).steps = l ∧ u.mem = s.mem)))

/-- With no withdrawal begun and no loader command in hand, REL_CMD WITHDRAW, and damage beyond spares where WITHDRAW_EN is set,
start a withdrawal with its cause: REL_STAT shows WITHDRAWING, every SERVING region drains and no half stays PARKED. The end of
the drain stops every context of a region still DRAINING, and begins the copy with a manifest that names the module and the
cause and is not COMPLETE, or marks the data LOST without a reachable buddy. The end of the copy marks the manifest COMPLETE,
sends WITHDRAW on every UP port and disables every port. The end closes the bypass and raises alert 8: WITHDRAWN. (R416, R417,
R418, R419) -/
def Obligations.WithdrawalProceeds : Prop :=
  (∀ (s : State) c, s.up = true → s.rel.st = 0 → s.rel.wdr = .none → s.rel.wdrDue = none → s.loader.busy = false →
      (c = 1 ∨ (2 ≤ c ∧ c ≤ 7 ∧ ∃ r, s.loader.rel = some r ∧ r.withdrawEn = true)) →
      Ends (exec (.relWithdraw c) s) (fun u => u.rel.st = 1 ∧ u.rel.cause = c ∧ u.rel.wdr = .draining ∧ u.rel.wdrLost = (!s.buddyOk) ∧ u.west.st ≠ .parked ∧ u.east.st ≠ .parked ∧
        (∀ r, r < 16 → (u.region r).st = if (s.region r).st = .serving then .draining else (s.region r).st) ∧ u.mem = s.mem)) ∧
  (∀ (s : State), s.up = true → s.rel.wdr = .draining → Ends (exec .withdrawDrainEnd s) (fun u => u.rel.wdr = .copying ∧ u.rel.wdrLost = (s.rel.wdrLost || !s.buddyOk) ∧
      (∀ r T k, r < 16 → (s.region r).st = .draining → T ∈ s.regionTillers r → k < 8 → (u.sq T k).st ≠ .running ∧ (u.sq T k).st ≠ .stopped) ∧
      (s.buddyOk = true → fld u.rel.manifest 0 2 = s.moduleId % 65536 ∧ fld u.rel.manifest 2 1 = s.rel.cause % 256 ∧ fld u.rel.manifest 3 1 % 2 = 0) ∧ u.mem = s.mem)) ∧
  (∀ (s : State), s.up = true → s.rel.wdr = .copying → Ends (exec .withdrawCopyEnd s) (fun u => u.rel.wdr = .closing ∧ (∀ p, p < 32 → (u.port p).en = false) ∧
      (∀ p ∈ s.upPorts, CtlFlit.withdraw ∈ (u.port p).ctlOut) ∧
      (s.rel.wdrLost = false → 4 ≤ s.rel.manifest.length → fld u.rel.manifest 3 1 % 2 = 1 ∧ u.rel.manifest.take 3 = s.rel.manifest.take 3 ∧ u.rel.manifest.drop 4 = s.rel.manifest.drop 4))) ∧
  (∀ (s : State), s.up = true → s.rel.wdr = .closing → s.loader.waiting = false → s.boot.rstBusy = false → Ends (exec .withdrawComplete s) (fun u => u.rel.st = 2 ∧ u.rel.wdr = .none ∧
      u.power.bypassOpen = false ∧ u.power.alertSrc.testBit 8 = true ∧ u.mem = s.mem))

/-- A report of a node whose queue holds no equal one and has room is stamped with TB and written at HL_HEAD, which advances,
with COUNT 1, its cause, node, unit and detail, and sets alert 9 unless MASKED; but an entry with ACTION CORRECTED for which the
log holds a latest entry n of the same SOURCE, UNIT, CAUSE and ACTION less than 1 s old adds to the COUNT of that entry,
saturating, and HL_HEAD stays. (R420, R421, R458) -/
def Obligations.HealthLogMerges : Prop :=
  ∀ (s : State) (r : Report), r.node < 100 → s.up = true → (s.node r.node).reports = [] → (s.time.resync.all (fun p => p.2 = 0)) = true → s.time.tb < 2 ^ 63 →
    (r.action = 1 → ∀ n, s.mergeEntry (entryOf (word s.time.tb) r) = some n →
      Ends (exec (.healthReport r) s) (fun u => u.rel.head = s.rel.head ∧ sget {} u.rel.log (n % 4096) = { sget {} s.rel.log (n % 4096) with count := satAdd 32 (sget {} s.rel.log (n % 4096)).count 1 } ∧
        (∀ j, j ≠ n % 4096 → sget {} u.rel.log j = sget {} s.rel.log j) ∧ u.mem = s.mem)) ∧
    ((r.action ≠ 1 ∨ s.mergeEntry (entryOf (word s.time.tb) r) = none) →
      Ends (exec (.healthReport r) s) (fun u => u.rel.head = (s.rel.head + 1) % 2 ^ 32 ∧ { sget {} u.rel.log (s.rel.head % 4096) with flags := 0 } = { entryOf (word s.time.tb) r with flags := 0 } ∧
        (∀ j, j ≠ s.rel.head % 4096 → sget {} u.rel.log j = sget {} s.rel.log j) ∧ (r.masked = false → u.power.alertSrc.testBit 9 = true) ∧ (u.node r.node).reports = [] ∧ u.mem = s.mem))

/-- A thread that stands before an arithmetic instruction with nothing else due retires it: its destination register takes the
value that Tables 6, 8 and 9 of chapter 3 give for the operands (g0 discards it), the PC moves past the instruction, and no
other register, nothing else of the thread, no memory and no other unit is changed. Division by zero gives all ones and the
dividend, division of the most negative number by minus one gives that number and remainder 0, and no division raises an
exception. NOP writes no register. (R87, R95, R97, R98) -/
def Obligations.ScalarArithmetic : Prop :=
  (∀ (s : State) t rd ra rb, s.clear t 4 = true →
      (∀ p ∈ [(AluOp.add, s.reg t ra + s.reg t rb), (.sub, s.reg t ra - s.reg t rb), (.and, s.reg t ra &&& s.reg t rb), (.or, s.reg t ra ||| s.reg t rb),
          (.xor, s.reg t ra ^^^ s.reg t rb), (.andn, s.reg t ra &&& ~~~(s.reg t rb)), (.sll, s.reg t ra <<< ((s.reg t rb).toNat % 64)),
          (.srl, s.reg t ra >>> ((s.reg t rb).toNat % 64)), (.sra, (s.reg t ra).sshiftRight ((s.reg t rb).toNat % 64)), (.ror, (s.reg t ra).rotateRight ((s.reg t rb).toNat % 64)),
          (.seq, if s.reg t ra = s.reg t rb then 1 else 0), (.sne, if s.reg t ra = s.reg t rb then 0 else 1),
          (.slt, if (s.reg t ra).toInt < (s.reg t rb).toInt then 1 else 0), (.sltu, if (s.reg t ra).toNat < (s.reg t rb).toNat then 1 else 0),
          (.min, if (s.reg t ra).toInt < (s.reg t rb).toInt then s.reg t ra else s.reg t rb), (.max, if (s.reg t ra).toInt < (s.reg t rb).toInt then s.reg t rb else s.reg t ra),
          (.minu, if (s.reg t ra).toNat < (s.reg t rb).toNat then s.reg t ra else s.reg t rb), (.maxu, if (s.reg t ra).toNat < (s.reg t rb).toNat then s.reg t rb else s.reg t ra),
          (.csel, if s.reg t rd ≠ 0 then s.reg t ra else s.reg t rb), (.addw, ((s.reg t ra + s.reg t rb).truncate 32).signExtend 64),
          (.subw, ((s.reg t ra - s.reg t rb).truncate 32).signExtend 64)],
        Ends (exec (.longAlu t (.rrr p.1 rd ra rb)) s) (fun u => s.setsReg u t 4 rd p.2)) ∧
      (∀ op ∈ [AluOp.clz, .ctz, .popc, .bswap], Ends (exec (.longAlu t (.rrr op rd ra rb)) s) (fun u => s.setsReg u t 4 rd (aluOp op 0 (s.reg t ra) 0))) ∧
      (∀ (i : BitVec 15), ∀ p ∈ [(ImmOp.addi, s.reg t ra + i.signExtend 64), (.andi, s.reg t ra &&& i.signExtend 64), (.ori, s.reg t ra ||| i.signExtend 64),
          (.xori, s.reg t ra ^^^ i.signExtend 64), (.slti, if (s.reg t ra).toInt < i.toInt then 1 else 0), (.sltiu, if (s.reg t ra).toNat < (i.signExtend 64).toNat then 1 else 0)],
        Ends (exec (.longAlu t (.imm p.1 rd ra i)) s) (fun u => s.setsReg u t 4 rd p.2)) ∧
      (∀ (n : BitVec 6), ∀ p ∈ [(ShiftOp.sll, s.reg t ra <<< n.toNat), (.srl, s.reg t ra >>> n.toNat), (.sra, (s.reg t ra).sshiftRight n.toNat), (.ror, (s.reg t ra).rotateRight n.toNat)],
        Ends (exec (.longAlu t (.shi p.1 rd ra n)) s) (fun u => s.setsReg u t 4 rd p.2)) ∧
      (∀ i, Ends (exec (.longAlu t (.li rd i)) s) (fun u => s.setsReg u t 4 rd (i.signExtend 64))) ∧
      (∀ p ∈ [(MulDivOp.mul, s.reg t ra * s.reg t rb), (.mulh, BitVec.ofInt 64 ((s.reg t ra).toInt * (s.reg t rb).toInt / 2 ^ 64)),
          (.mulhu, word ((s.reg t ra).toNat * (s.reg t rb).toNat / 2 ^ 64)), (.mulhsu, BitVec.ofInt 64 ((s.reg t ra).toInt * (s.reg t rb).toNat / 2 ^ 64)),
          (.div, if s.reg t rb = 0 then -1 else BitVec.ofInt 64 ((s.reg t ra).toInt.tdiv (s.reg t rb).toInt)), (.divu, if s.reg t rb = 0 then -1 else s.reg t ra / s.reg t rb),
          (.rem, if s.reg t rb = 0 then s.reg t ra else BitVec.ofInt 64 ((s.reg t ra).toInt.tmod (s.reg t rb).toInt)), (.remu, if s.reg t rb = 0 then s.reg t ra else s.reg t ra % s.reg t rb)],
        Ends (exec (.muldiv t p.1 rd ra rb) s) (fun u => s.setsReg u t 4 rd p.2)) ∧
      (s.reg t ra = -(2 ^ 63) → s.reg t rb = -1 → Ends (exec (.muldiv t .div rd ra rb) s) (fun u => s.setsReg u t 4 rd (-(2 ^ 63))) ∧
        Ends (exec (.muldiv t .rem rd ra rb) s) (fun u => s.setsReg u t 4 rd 0)) ∧
      (∀ (k : BitVec 2) (i : BitVec 16), Ends (exec (.ins16 t rd k i) s) (fun u => ∃ v, s.setsReg u t 4 rd v ∧ (v >>> (16 * k.toNat)).truncate 16 = i ∧
        ∀ j, j < 64 → j / 16 ≠ k.toNat → v.getLsbD j = (s.reg t rd).getLsbD j))) ∧
  (∀ (s : State) t (rd rs : BitVec 4), s.clear t 2 = true →
      (∀ p ∈ [(AluOp.mov, s.reg t (shortReg rs)), (.neg, -(s.reg t (shortReg rs))), (.not, ~~~(s.reg t (shortReg rs))), (.zxw, ((s.reg t (shortReg rs)).truncate 32).zeroExtend 64),
          (.add, s.reg t (shortReg rd) + s.reg t (shortReg rs)), (.sub, s.reg t (shortReg rd) - s.reg t (shortReg rs)), (.and, s.reg t (shortReg rd) &&& s.reg t (shortReg rs)),
          (.or, s.reg t (shortReg rd) ||| s.reg t (shortReg rs)), (.xor, s.reg t (shortReg rd) ^^^ s.reg t (shortReg rs)), (.sll, s.reg t (shortReg rd) <<< ((s.reg t (shortReg rs)).toNat % 64)),
          (.srl, s.reg t (shortReg rd) >>> ((s.reg t (shortReg rs)).toNat % 64)), (.sra, (s.reg t (shortReg rd)).sshiftRight ((s.reg t (shortReg rs)).toNat % 64)),
          (.seq, if s.reg t (shortReg rd) = s.reg t (shortReg rs) then 1 else 0), (.slt, if (s.reg t (shortReg rd)).toInt < (s.reg t (shortReg rs)).toInt then 1 else 0),
          (.sltu, if (s.reg t (shortReg rd)).toNat < (s.reg t (shortReg rs)).toNat then 1 else 0)],
        Ends (exec (.shortAlu t (.rr p.1 rd rs)) s) (fun u => s.setsReg u t 2 (shortReg rd) p.2)) ∧
      (∀ i : BitVec 6, ∀ p ∈ [(ShortAlu.addi rd i, s.reg t (shortReg rd) + i.signExtend 64), (.li rd i, i.signExtend 64), (.slli rd i, s.reg t (shortReg rd) <<< i.toNat),
          (.srli rd i, s.reg t (shortReg rd) >>> i.toNat), (.srai rd i, (s.reg t (shortReg rd)).sshiftRight i.toNat), (.andi rd i, s.reg t (shortReg rd) &&& i.signExtend 64)],
        Ends (exec (.shortAlu t p.1) s) (fun u => s.setsReg u t 2 (shortReg rd) p.2)) ∧
      (∀ i : BitVec 10, Ends (exec (.addsp t i) s) (fun u => s.setsReg u t 2 31 (s.sp t + i.signExtend 64 * 8))) ∧
      Ends (exec (.nop t) s) (fun u => s.retires u t 2 ∧ (u.ctx t).g = (s.ctx t).g ∧ (u.ctx t).v = (s.ctx t).v))

/-- A compute thread with no access in flight, its access having passed R90's checks at local address a: a load of a near store
retires with the little-endian bytes at a, sign- or zero-extended, in its register alone; from elsewhere, and from a remote
module, it waits. A store to the core's own stores puts the low bytes of its register at a, and every other cell of memory reads
as before; elsewhere, without a credit needed and with fewer than 16 stores outstanding, it is posted and memory is unchanged
until it is performed; a seventeenth waits. A push stores below sp and a pop loads at sp, sp moving by 8. A misaligned offset
raises ALIGN and one beyond the bound SEGMENT, and outside SEG3 an access that passes them is at base plus offset. (R86, R88,
R90, R92, R95, R99, R136) -/
def Obligations.LoadsAndStores : Prop :=
  (∀ (s : State) t m a, s.clear t (lenBytes m.len) = true → t.unit < 1024 → s.noReqs t = true → s.access t m.seg.toNat (s.reg t m.base + m.disp) (sizeBytes m.size) (sizeBytes m.size) false = .go (.at' a false) s →
      (isNear t a = true → s.good (tidHalf t) a (sizeBytes m.size) = true → Ends (exec (.load t m) s) (fun u => s.setsReg u t (lenBytes m.len) m.reg
        (if m.signed then (BitVec.ofNat (8 * sizeBytes m.size) (leNat (s.peek a (sizeBytes m.size)))).signExtend 64 else word (leNat (s.peek a (sizeBytes m.size)))))) ∧
      (isNear t a = false → Ends (exec (.load t m) s) (fun u => (u.ctx t).st = .waiting ∧ (u.ctx t).wait = some ⟨.data, .load t m⟩ ∧ (u.ctx t).pc = (s.ctx t).pc ∧ (∀ r, u.reg t r = s.reg t r) ∧
        u.reqs = s.reqs ∧ u.mem = s.mem))) ∧
  (∀ (s : State) t m k sess off, s.clear t (lenBytes m.len) = true → t.unit < 1024 → s.noReqs t = true →
      s.access t m.seg.toNat (s.reg t m.base + m.disp) (sizeBytes m.size) (sizeBytes m.size) false = .go (.remote k sess off) s →
      Ends (exec (.load t m) s) (fun u => (u.ctx t).st = .waiting ∧ (∃ r, u.reqs = s.reqs ++ [r] ∧ r.kind = .load (sizeBytes m.size) ∧ r.src = t ∧ r.session = some (k, sess)) ∧ u.mem = s.mem)) ∧
  (∀ (s : State) t m a, s.clear t (lenBytes m.len) = true → t.unit < 1024 → s.noReqs t = true → (s.ctx t).twin = false → s.access t m.seg.toNat (s.reg t m.base + m.disp) (sizeBytes m.size) (sizeBytes m.size) true = .go (.at' a false) s →
      (isOwn t a = true → s.good (tidHalf t) a (sizeBytes m.size) = true → Ends (exec (.store t m) s) (fun u => s.stores u a (leBytes (sizeBytes m.size) (s.reg t m.reg).toNat) ∧
        (u.ctx t).pc = (s.ctx t).pc + word (lenBytes m.len) ∧ (∀ r, u.reg t r = s.reg t r) ∧ (u.ctx t).v = (s.ctx t).v ∧ u.reqs = s.reqs ∧ u.tillers = s.tillers ∧ u.rel = s.rel)) ∧
      (isOwn t a = false → s.creditStep t a (sizeBytes m.size) = .plain → Ends (exec (.store t m) s) (fun u => (∃ r, u.reqs = s.reqs ++ [r] ∧ r.kind = .store (leBytes (sizeBytes m.size) (s.reg t m.reg).toNat) ∧
        r.src = t ∧ r.addr = word a ∧ r.resp = none ∧ r.credit = none) ∧ (u.ctx t).pc = (s.ctx t).pc + word (lenBytes m.len) ∧ (∀ r, u.reg t r = s.reg t r) ∧ u.mem = s.mem))) ∧
  (∀ (s : State) t m a, s.clear t (lenBytes m.len) = true → t.unit < 1024 → (s.ctx t).twin = false → s.access t m.seg.toNat (s.reg t m.base + m.disp) (sizeBytes m.size) (sizeBytes m.size) true = .go (.at' a false) s →
      isOwn t a = false → 16 ≤ s.postedCount t → Ends (exec (.store t m) s) (fun u => (u.ctx t).st = .waiting ∧ (u.ctx t).wait = some ⟨.postedRoom, .store t m⟩ ∧ (u.ctx t).pc = (s.ctx t).pc ∧ u.mem = s.mem)) ∧
  (∀ (s : State) t a, s.clear t 2 = true → t.unit < 1024 → s.noReqs t = true → (s.ctx t).twin = false → (s.sp t).toNat % 8 = 0 → isOwn t a = true → s.good (tidHalf t) a 8 = true →
      (∀ rs, 8 ≤ (s.sp t).toNat → (s.sp t).toNat ≤ (s.ctx t).segs.s0.bound.toNat → a = (s.ctx t).segs.s0.base.toNat + (s.sp t).toNat - 8 → (s.ctx t).watchpoint a 8 true = none →
        Ends (exec (.push t rs) s) (fun u => s.stores u a (leBytes 8 (s.reg t rs).toNat) ∧ u.sp t = s.sp t - 8 ∧ (∀ r, r ≠ 31 → u.reg t r = s.reg t r) ∧ (u.ctx t).pc = (s.ctx t).pc + 2 ∧ u.tillers = s.tillers)) ∧
      (∀ rd, (s.sp t).toNat + 8 ≤ (s.ctx t).segs.s0.bound.toNat → a = (s.ctx t).segs.s0.base.toNat + (s.sp t).toNat → (s.ctx t).watchpoint a 8 false = none →
        Ends (exec (.pop t rd) s) (fun u => s.retires u t 2 ∧ (rd ≠ 31 → u.sp t = s.sp t + 8) ∧ (rd ≠ 0 → u.reg t rd = word (leNat (s.peek a 8))) ∧ (∀ r, r ≠ 31 → r ≠ rd → u.reg t r = s.reg t r) ∧ u.mem = s.mem))) ∧
  (∀ (s : State) t m (write : Bool), s.clear t (lenBytes m.len) = true →
      ((s.reg t m.base + m.disp).toNat % sizeBytes m.size ≠ 0 → ((s.fault t 8 0 (s.reg t m.base + m.disp)).ctx t).trapDue = none →
        exec (if write then .store t m else .load t m) s = .next ((s.fault t 8 0 (s.reg t m.base + m.disp)).settleDebug t)) ∧
      ((s.reg t m.base + m.disp).toNat % sizeBytes m.size = 0 → (segGet (s.ctx t).segs m.seg.toNat).bound.toNat < (s.reg t m.base + m.disp).toNat + sizeBytes m.size →
        ((s.fault t 9 0 (s.reg t m.base + m.disp)).ctx t).trapDue = none → exec (if write then .store t m else .load t m) s = .next ((s.fault t 9 0 (s.reg t m.base + m.disp)).settleDebug t)) ∧
      ((s.reg t m.base + m.disp).toNat % sizeBytes m.size = 0 → (s.reg t m.base + m.disp).toNat + sizeBytes m.size ≤ (segGet (s.ctx t).segs m.seg.toNat).bound.toNat → m.seg ≠ 3 → t.unit < 1024 →
        (s.ctx t).watchpoint ((segGet (s.ctx t).segs m.seg.toNat).base.toNat + (s.reg t m.base + m.disp).toNat) (sizeBytes m.size) write = none →
        s.access t m.seg.toNat (s.reg t m.base + m.disp) (sizeBytes m.size) (sizeBytes m.size) write = .go (.at' ((segGet (s.ctx t).segs m.seg.toNat).base.toNat + (s.reg t m.base + m.disp).toNat) false) s))

/-- For every thread that stands before the jump with nothing else due: JR and CALLR through a register with bit 0 set raise
ALIGN at the instruction, whatever the stack, and the state is the one that exception leaves: no push. RET with a failing stack
check raises STACK whatever lies there; with one that passes it loads its target and, where that is odd, raises ALIGN at the RET
with sp as it was. The entry named changes neither sp nor memory when it enters the thread's own level with a free save set.
(R89) -/
def Obligations.JumpTargetsAreChecked : Prop :=
  (∀ (s : State) t len rs, s.clear t (lenBytes len) = true → (s.reg t rs).getLsbD 0 = true → ((s.fault t 8 0 (s.reg t rs)).ctx t).trapDue = none →
      exec (.jr t len rs) s = .next ((s.fault t 8 0 (s.reg t rs)).settleDebug t) ∧ exec (.call t (.reg len rs)) s = .next ((s.fault t 8 0 (s.reg t rs)).settleDebug t)) ∧
  (∀ (s : State) t len, s.clear t (lenBytes len) = true → ((s.sp t).toNat % 8 ≠ 0 ∨ (s.ctx t).segs.s0.bound.toNat < (s.sp t).toNat + 8) → ((s.fault t 0xA 0 (s.sp t)).ctx t).trapDue = none →
      exec (.ret t len) s = .next ((s.fault t 0xA 0 (s.sp t)).settleDebug t)) ∧
  (∀ (s : State) t len a, s.clear t (lenBytes len) = true → t.unit < 1024 → s.noReqs t = true → (s.sp t).toNat % 8 = 0 → (s.sp t).toNat + 8 ≤ (s.ctx t).segs.s0.bound.toNat →
      a = (s.ctx t).segs.s0.base.toNat + (s.sp t).toNat → (s.ctx t).watchpoint a 8 false = none → isNear t a = true → s.good (tidHalf t) a 8 = true → (word (leNat (s.peek a 8))).getLsbD 0 = true →
      ((s.fault t 8 0 (word (leNat (s.peek a 8)))).ctx t).trapDue = none → exec (.ret t len) s = .next ((s.fault t 8 0 (word (leNat (s.peek a 8)))).settleDebug t)) ∧
  (∀ (s : State) t len d v, s.clear t len = true → s.plainEntry t 8 d → s.entersPlain (s.fault t 8 0 v) t (faultAt s t 8 0 v) d ∧ (s.fault t 8 0 v).sp t = s.sp t ∧ (s.fault t 8 0 v).mem = s.mem)

/-- A branch whose condition holds moves the PC by its distance from its own address, one whose condition does not hold retires,
and neither changes a register. JR with an even target moves the PC there. CALL and CALLR on a stack in the core's own stores
push the address of the next instruction below sp and jump; RET on a near stack pops its target. A jump empties the fetch
buffer. (R84, R85, R88, R89, R95, R97) -/
def Obligations.ControlFlow : Prop :=
  (∀ (s : State) t (b : BranchOp), s.clear t (lenBytes b.len) = true → ∀ p ∈ [(Cond.eq, decide (s.reg t b.ra = s.reg t b.rb)), (.ne, decide (s.reg t b.ra ≠ s.reg t b.rb)),
        (.lt, decide ((s.reg t b.ra).toInt < (s.reg t b.rb).toInt)), (.ge, decide ((s.reg t b.rb).toInt ≤ (s.reg t b.ra).toInt)), (.ltu, decide ((s.reg t b.ra).toNat < (s.reg t b.rb).toNat)),
        (.geu, decide ((s.reg t b.rb).toNat ≤ (s.reg t b.ra).toNat)), (.always, true)], b.cond = p.1 →
      (p.2 = false → Ends (exec (.branch t b) s) (fun u => s.retires u t (lenBytes b.len) ∧ (u.ctx t).g = (s.ctx t).g ∧ (u.ctx t).v = (s.ctx t).v)) ∧
      (p.2 = true → Ends (exec (.branch t b) s) (fun u => s.onlyThread u t ∧ { (u.ctx t).still with fetchBuf := [] } = { (s.ctx t).still with fetchBuf := [] } ∧ (u.ctx t).fetchBuf = [] ∧
        (u.ctx t).pc = (s.ctx t).pc + b.off ∧ (u.ctx t).g = (s.ctx t).g ∧ (u.ctx t).v = (s.ctx t).v))) ∧
  (∀ (s : State) t len rs, s.clear t (lenBytes len) = true → (s.reg t rs).getLsbD 0 = false → Ends (exec (.jr t len rs) s) (fun u => s.onlyThread u t ∧
      { (u.ctx t).still with fetchBuf := [] } = { (s.ctx t).still with fetchBuf := [] } ∧ (u.ctx t).pc = s.reg t rs ∧ (u.ctx t).g = (s.ctx t).g ∧ (u.ctx t).v = (s.ctx t).v)) ∧
  (∀ (s : State) t len a, s.clear t (lenBytes len) = true → t.unit < 1024 → s.noReqs t = true → (s.ctx t).twin = false → (s.sp t).toNat % 8 = 0 → s.good (tidHalf t) a 8 = true →
      (isOwn t a = true → 8 ≤ (s.sp t).toNat → (s.sp t).toNat ≤ (s.ctx t).segs.s0.bound.toNat → a = (s.ctx t).segs.s0.base.toNat + (s.sp t).toNat - 8 → (s.ctx t).watchpoint a 8 true = none →
        ∀ p ∈ ((List.range 32).filterMap (fun i => if (s.reg t (bv 5 i)).getLsbD 0 then none else some (CallOp.reg len (bv 5 i), s.reg t (bv 5 i)))),
          Ends (exec (.call t p.1) s) (fun u => s.stores u a (leBytes 8 ((s.ctx t).pc + word (lenBytes len)).toNat) ∧ u.sp t = s.sp t - 8 ∧ (u.ctx t).pc = p.2 ∧
            (∀ r, r ≠ 31 → u.reg t r = s.reg t r) ∧ (u.ctx t).v = (s.ctx t).v ∧ (u.ctx t).segs = (s.ctx t).segs) ∧
          ∀ off, Ends (exec (.call t (.rel len off)) s) (fun u => s.stores u a (leBytes 8 ((s.ctx t).pc + word (lenBytes len)).toNat) ∧ u.sp t = s.sp t - 8 ∧ (u.ctx t).pc = (s.ctx t).pc + off ∧
            (∀ r, r ≠ 31 → u.reg t r = s.reg t r) ∧ (u.ctx t).v = (s.ctx t).v ∧ (u.ctx t).segs = (s.ctx t).segs)) ∧
      (isNear t a = true → (s.sp t).toNat + 8 ≤ (s.ctx t).segs.s0.bound.toNat → a = (s.ctx t).segs.s0.base.toNat + (s.sp t).toNat → (s.ctx t).watchpoint a 8 false = none →
        (word (leNat (s.peek a 8))).getLsbD 0 = false → Ends (exec (.ret t len) s) (fun u => s.onlyThread u t ∧ u.sp t = s.sp t + 8 ∧ (u.ctx t).pc = word (leNat (s.peek a 8)) ∧
          (∀ r, r ≠ 31 → u.reg t r = s.reg t r) ∧ (u.ctx t).v = (s.ctx t).v ∧ (u.ctx t).segs = (s.ctx t).segs)))

/-- A fence whose accesses are complete retires, changing nothing else; FENCE.G with one incomplete waits. SYNC.I retires and
leaves no older fetch buffer. MFS of a register that the level may read retires with its value in rd, among them FPM, TB,
CORE_ID and the segment registers; MTS of FPM, of a segment register and of TSEG at level 1 or 0, and of GDTB and XDTB at level
0 writes that register's fields and nothing else. An unassigned number raises ILLEGAL, and a level above the register's own
raises PRIVILEGE. (R54, R85, R93, R100, R101, R117) -/
def Obligations.FencesAndSpecialRegisters : Prop :=
  (∀ (s : State) t, s.clear t 4 = true →
      (∀ p ∈ [(0, Instr.fenceL t), (1, .fenceT t), (2, .fenceG t)], s.fenceLeft t p.1 = [] → Ends (exec p.2 s) (fun u => s.retires u t 4 ∧ (u.ctx t).g = (s.ctx t).g ∧ (u.ctx t).v = (s.ctx t).v)) ∧
      (∀ q ∈ s.fenceLeft t 2, isNear t q.addr.toNat = false → Ends (exec (.fenceG t) s) (fun u => (u.ctx t).st = .waiting ∧ (u.ctx t).wait = some ⟨.drain, .fenceG t⟩ ∧ (u.ctx t).pc = (s.ctx t).pc ∧ u.mem = s.mem)) ∧
      (s.noReqs t = true → t.unit < 1024 → Ends (exec (.syncI t) s) (fun u => (u.ctx t).pc = (s.ctx t).pc + 4 ∧ (∀ r, u.reg t r = s.reg t r) ∧ u.mem = s.mem ∧
        ((u.ctx t).fetchBuf = [] ∨ ∀ i, i < 128 → (u.ctx t).fetchBuf.getD i 0 = s.byteAt ((s.ctx t).segs.s0.base.toNat + ((s.ctx t).pc + 4).toNat - ((s.ctx t).pc + 4).toNat % 64 + i)))) ∧
      (∀ rd (x : BitVec 11) v, s.mmasFirst t x.toNat (s.sprRead t (s.ctx t).level x.toNat) = .val v s → (1024 ≤ t.unit ∨ x ≠ 0x105) → Ends (exec (.mfs t rd x) s) (fun u => s.setsReg u t 4 rd v)) ∧
      (∀ p ∈ [(0x00, (s.ctx t).fpm), (0x10, (s.ctx t).segs.s0.base), (0x11, (s.ctx t).segs.s0.bound), (0x12, (s.ctx t).segs.s1.base), (0x13, (s.ctx t).segs.s1.bound), (0x14, (s.ctx t).segs.s2.base),
          (0x15, (s.ctx t).segs.s2.bound), (0x16, (s.ctx t).segs.s3.base), (0x17, (s.ctx t).segs.s3.bound), (0x20, word (s.time.tb % 2 ^ 63)), (0x30, s.coreId t)],
        s.mmasFirst t p.1 (s.sprRead t (s.ctx t).level p.1) = .val p.2 s) ∧
      (∀ ra, Ends (exec (.mts t 0 ra) s) (fun u => (u.ctx t).fpm = fpmStore (s.reg t ra) ∧ s.onlyThread u t ∧ (u.ctx t).pc = (s.ctx t).pc + 4 ∧
        { (u.ctx t).still with fpm := (s.ctx t).fpm } = (s.ctx t).still ∧ (u.ctx t).g = (s.ctx t).g ∧ (u.ctx t).v = (s.ctx t).v)) ∧
      (∀ ra (x : BitVec 11), 0x12 ≤ x.toNat → x.toNat < 0x18 → (s.ctx t).level ≤ 1 → Ends (exec (.mts t x ra) s) (fun u => s.onlyThread u t ∧ (u.ctx t).pc = (s.ctx t).pc + 4 ∧
        (u.ctx t).segs = segWrite (s.ctx t).segs (x.toNat - 0x10) (s.reg t ra) ∧ { (u.ctx t).still with segs := (s.ctx t).segs } = (s.ctx t).still ∧ (u.ctx t).g = (s.ctx t).g)) ∧
      (∀ ra, (s.ctx t).level = 0 → Ends (exec (.mts t 0x41 ra) s) (fun u => u.xdtb t = xdtbStore (s.reg t ra) ∧ u.gdtb t = s.gdtb t ∧ (u.ctx t).g = (s.ctx t).g ∧ (u.ctx t).pc = (s.ctx t).pc + 4 ∧ u.mem = s.mem) ∧
        Ends (exec (.mts t 0x40 ra) s) (fun u => u.gdtb t = gdtbStore (s.reg t ra) ∧ u.xdtb t = s.xdtb t ∧ (u.ctx t).g = (s.ctx t).g ∧ (u.ctx t).pc = (s.ctx t).pc + 4 ∧ u.mem = s.mem)) ∧
      (∀ ra (x : BitVec 11), 0x200 ≤ x.toNat → ((s.illegal t).ctx t).trapDue = none → exec (.mts t x ra) s = .next ((s.illegal t).settleDebug t) ∧ exec (.mfs t ra x) s = .next ((s.illegal t).settleDebug t)) ∧
      (∀ ra (x : BitVec 11), 0x12 ≤ x.toNat → x.toNat < 0x18 ∨ x = 0x40 ∨ x = 0x41 → (s.ctx t).level = 2 → ((s.privilege t).ctx t).trapDue = none → exec (.mts t x ra) s = .next ((s.privilege t).settleDebug t)))

/-- At the thread's own level with a free save set: ILLEGAL, BREAK and a gate of its own level enter the descriptor's handler,
saving the PC (for a gate, of the instruction after it), the level, sp, cause, detail and progress, with no register, segment,
memory or other unit changed; with BRK_HALT a BRK halts the context with cause 5. A gate from level 2 to level 1 of a compute
thread also writes its segments to the save area below TOP, takes the level record's segments and the entry's sp, and saves
level 2 and sp in the save set of level 1. A pending DMA_INT, DEADLOCK_SUSPECT of context 0, and EXT_INT of a Culm core are
entered in the same way and are no longer pending. (R100, R102, R106, R112, R121, R122, R253, R389, R444) -/
def Obligations.ExceptionEntry : Prop :=
  (∀ (s : State) t len d, s.clear t len = true →
      (s.plainEntry t 6 d → ∀ w : BitVec 32, len = (if w.getLsbD 15 then 4 else 2) → Ends (exec (.illegal t w) s) (fun u => s.entersPlain u t (faultAt s t 6 0 0) d)) ∧
      (∀ l, lenBytes l = len → (s.plainEntry t 0x14 d → (s.ctx t).dbg.brkHalt = false → Ends (exec (.brk t l) s) (fun u => s.entersPlain u t (faultAt s t 0x14 0 0) d)) ∧
        ((s.ctx t).dbg.brkHalt = true → Ends (exec (.brk t l) s) (fun u => (u.ctx t).st = .halted ∧ (u.ctx t).dbg.cause = 5 ∧ (u.ctx t).dbg.pc = (s.ctx t).pc ∧ (u.ctx t).pc = (s.ctx t).pc ∧
          (u.ctx t).g = (s.ctx t).g ∧ (u.ctx t).xs0 = (s.ctx t).xs0 ∧ (u.ctx t).xs1 = (s.ctx t).xs1 ∧ u.mem = s.mem)))) ∧
  (∀ (s : State) t (n : BitVec 8) d, s.clear t 4 = true → s.gateCheck t n.toNat = .ok d →
      (d.level = (s.ctx t).level → ((s.ctx t).saveSet d.level).valid = false → Ends (exec (.gate t n) s) (fun u =>
        s.entersPlain u t { code := 1, kind := 3, detail := n.toNat, pc := (s.ctx t).pc + 4, retry := (s.ctx t).pc } d)) ∧
      (∀ r s1, t.unit < 1024 → (s.ctx t).level = 2 → d.level = 1 → bit (s.xdtb t) 0 = true → s.levelRec t 1 = some r → (s.ctx t).xs1.valid = false → 64 ≤ (levelTop r t.ctx).toNat →
        (levelTop r t.ctx).toNat ≤ (segsOf r).s0.bound.toNat → s.entryWrite t 1 (segsOf r).s0 (levelTop r t.ctx - 64) (segsBytes (s.ctx t).segs) = some s1 →
        Ends (exec (.gate t n) s) (fun u => u.mem = s1.mem ∧ (u.ctx t).level = 1 ∧ (u.ctx t).pc = d.handler ∧ (u.ctx t).segs = segsOf r ∧ u.sp t = (if d.sp ≠ 0 then d.sp else levelTop r t.ctx - 64) ∧
          (u.ctx t).xs1.pc = (s.ctx t).pc + 4 ∧ (u.ctx t).xs1.valid = true ∧ (u.ctx t).xs1.plv = 2 ∧ (u.ctx t).xs1.sp = s.sp t ∧ (u.ctx t).xs1.code = 1 ∧ (u.ctx t).xs1.gate = true ∧
          (u.ctx t).xs0 = (s.ctx t).xs0 ∧ (∀ q, q ≠ 31 → u.reg t q = s.reg t q) ∧ (u.ctx t).v = (s.ctx t).v))) ∧
  (∀ (s : State) t d, s.clear t 4 = true → (s.ctx t).level = 1 → (s.ctx t).xs1.valid = false →
      (t.unit < 1024 → ∀ b, (t.ctx = 0 → (s.core t.unit).deadlock = false) → lowestEvent (s.ctx t).dintPend = some b → s.plainEntry t 0x19 d → Ends (exec (.interruptTake t) s) (fun u =>
        s.entersPlain u t { code := 0x19, kind := 2, addr := word b, pc := (s.ctx t).pc, retry := (s.ctx t).pc } d ∧ (u.ctx t).dintPend = (s.ctx t).dintPend &&& ~~~(word (2 ^ b)))) ∧
      (t.unit < 1024 → t.ctx = 0 → (s.core t.unit).deadlock = true → s.plainEntry t 0x18 d → Ends (exec (.interruptTake t) s) (fun u => (u.core t.unit).deadlock = false ∧ (u.ctx t).pc = d.handler ∧
        (u.ctx t).xs1.pc = (s.ctx t).pc ∧ (u.ctx t).xs1.code = 0x18 ∧ (u.ctx t).xs1.plv = 1 ∧ (∀ r, u.reg t r = s.reg t r) ∧ (u.ctx t).dintPend = (s.ctx t).dintPend ∧ u.mem = s.mem)) ∧
      (1024 ≤ t.unit → ∀ b, lowestEvent (s.culmCore (t.unit - 1024)).xint = some b → s.plainEntry t 0x1A d → Ends (exec (.interruptTake t) s) (fun u => (u.ctx t).pc = d.handler ∧
        (u.culmCore (t.unit - 1024)).xint = (s.culmCore (t.unit - 1024)).xint &&& ~~~(word (2 ^ b)) ∧ (u.ctx t).xs1.pc = (s.ctx t).pc ∧ (u.ctx t).xs1.code = 0x1A ∧ (u.ctx t).xs1.addr = word b ∧
        (∀ r, u.reg t r = s.reg t r) ∧ u.mem = s.mem)))

/-- At level 0 or 1 with a valid save set: RETX whose set names its own level and no spill restores PC, level, progress, STEP
and sp from the set and leaves the set invalid; where the set names a less privileged level and the saved segments pass the
return checks, the segments too; with one spilled set on the compute thread's stack it restores the same and reloads the set
from the 48 bytes at the saved sp, the returned sp lying above them. Nothing else is changed. With an invalid set it raises
RETURN_CHECK with detail 1, and at level 2 PRIVILEGE. (R100, R118, R119) -/
def Obligations.ReturnFromException : Prop :=
  ∀ (s : State) t, s.clear t 4 = true →
    ((s.ctx t).level ≤ 1 → ((s.ctx t).saveSet (s.ctx t).level).valid = true →
      (((s.ctx t).saveSet (s.ctx t).level).depth = 0 → ∀ g, ((((s.ctx t).saveSet (s.ctx t).level).plv = (s.ctx t).level ∧ g = (s.ctx t).segs) ∨
          ((s.ctx t).level < ((s.ctx t).saveSet (s.ctx t).level).plv ∧ s.restoredSegs t (s.ctx t).level ((s.ctx t).saveSet (s.ctx t).level).plv = .ok g)) →
        Ends (exec (.retx t) s) (fun u => s.onlyThread u t ∧ (u.ctx t).pc = ((s.ctx t).saveSet (s.ctx t).level).pc ∧ (u.ctx t).level = ((s.ctx t).saveSet (s.ctx t).level).plv ∧
          (u.ctx t).prog = ((s.ctx t).saveSet (s.ctx t).level).prog ∧ (u.ctx t).stepArmed = ((s.ctx t).saveSet (s.ctx t).level).step ∧ u.sp t = ((s.ctx t).saveSet (s.ctx t).level).sp ∧
          (u.ctx t).segs = g ∧ (u.ctx t).saveSet (s.ctx t).level = { (s.ctx t).saveSet (s.ctx t).level with valid := false } ∧
          (u.ctx t).saveSet (1 - (s.ctx t).level) = (s.ctx t).saveSet (1 - (s.ctx t).level) ∧ (∀ r, r ≠ 31 → u.reg t r = s.reg t r) ∧ (u.ctx t).v = (s.ctx t).v)) ∧
      (0 < ((s.ctx t).saveSet (s.ctx t).level).depth → ((s.ctx t).saveSet (s.ctx t).level).plv = (s.ctx t).level → t.unit < 1024 →
        ∀ l, s.readAs t ((s.ctx t).segs.s0.base.toNat + ((s.ctx t).saveSet (s.ctx t).level).sp.toNat) 48 = .ok l →
        Ends (exec (.retx t) s) (fun u => s.onlyThread u t ∧ (u.ctx t).pc = ((s.ctx t).saveSet (s.ctx t).level).pc ∧ (u.ctx t).level = (s.ctx t).level ∧
          u.sp t = ((s.ctx t).saveSet (s.ctx t).level).sp + 48 ∧ (u.ctx t).segs = (s.ctx t).segs ∧ ((u.ctx t).saveSet (s.ctx t).level).pc = word (fld l 0 8 / 2 * 2) ∧
          ((u.ctx t).saveSet (s.ctx t).level).sp = word (fld l 16 8) ∧ ((u.ctx t).saveSet (s.ctx t).level).addr = word (fld l 32 8) ∧
          ((u.ctx t).saveSet (s.ctx t).level).depth = ((s.ctx t).saveSet (s.ctx t).level).depth - 1 ∧ (∀ r, r ≠ 31 → u.reg t r = s.reg t r)))) ∧
    ((s.ctx t).level ≤ 1 → ((s.ctx t).saveSet (s.ctx t).level).valid = false → ((s.raise t { faultAt s t 4 1 0 with fixed := some 0 }).ctx t).trapDue = none →
      exec (.retx t) s = .next ((s.raise t { faultAt s t 4 1 0 with fixed := some 0 }).settleDebug t)) ∧
    ((s.ctx t).level = 2 → ((s.privilege t).ctx t).trapDue = none → exec (.retx t) s = .next ((s.privilege t).settleDebug t))

/-- A compute thread that waits for the data of a load from memory, whose access passes again and meets no error, has it
written, sign- or zero-extended, and goes on past the load; an error response raises ACCESS_ERROR with the address instead. The
acknowledgement of a lone posted store takes it out of flight with its bytes in memory; a failed one is due as DEFERRED_STORE. A
Culm core that waits for a line its L2 can take holds it afterwards, and its thread can run. (R51, R86, R110, R159, R381) -/
def Obligations.DataReturnsToThreads : Prop :=
  (∀ (s : State) t m a, tidOk t = true → t.unit < 1024 → s.takesData t = true → (s.ctx t).st = .waiting → (s.ctx t).wait = some ⟨.data, .load t m⟩ → s.noReqs t = true → (s.ctx t).stepArmed = false → (s.ctx t).trapDue = none →
      (s.ctx t).dbg.pending = false → (s.ctx t).dbg.stepping = false → m.seg ≠ 3 → (s.reg t m.base + m.disp).toNat % sizeBytes m.size = 0 →
      (s.reg t m.base + m.disp).toNat + sizeBytes m.size ≤ (segGet (s.ctx t).segs m.seg.toNat).bound.toNat → a = (segGet (s.ctx t).segs m.seg.toNat).base.toNat + (s.reg t m.base + m.disp).toNat →
      s.good (tidHalf t) a (sizeBytes m.size) = true → Ends (exec (.loadDataReturn t) s) (fun u => ((u.ctx t).st = .ready ∨ (u.ctx t).st = .running) ∧ (u.ctx t).wait = none ∧
        (u.ctx t).pc = (s.ctx t).pc + word (lenBytes m.len) ∧ (m.reg ≠ 0 → u.reg t m.reg = if m.signed then (BitVec.ofNat (8 * sizeBytes m.size) (leNat (s.peek a (sizeBytes m.size)))).signExtend 64
          else word (leNat (s.peek a (sizeBytes m.size)))) ∧ (∀ r, r ≠ m.reg → u.reg t r = s.reg t r) ∧ u.mem = s.mem ∧ u.reqs = s.reqs)) ∧
  (∀ (s : State) t m a, tidOk t = true → t.unit < 1024 → s.takesData t = true → (s.ctx t).st = .waiting → (s.ctx t).wait = some ⟨.data, .load t m⟩ → s.noReqs t = true → m.seg ≠ 3 →
      (s.reg t m.base + m.disp).toNat % sizeBytes m.size = 0 → (s.reg t m.base + m.disp).toNat + sizeBytes m.size ≤ (segGet (s.ctx t).segs m.seg.toNat).bound.toNat →
      a = (segGet (s.ctx t).segs m.seg.toNat).base.toNat + (s.reg t m.base + m.disp).toNat → isCtl a = false → (wordsOf a (sizeBytes m.size)).findSome? (s.routeErr (tidHalf t)) = some dReserved →
      (s.ctx t).dbg.pending = false → (s.ctx t).dbg.stepping = false → (s.ctx t).level < 2 →
      ∀ x, s.plainEntry t 0xC x → Ends (exec (.loadDataReturn t) s) (fun u => (u.ctx t).pc = x.handler ∧ ((u.ctx t).saveSet (s.ctx t).level).pc = (s.ctx t).pc ∧ ((u.ctx t).saveSet (s.ctx t).level).code = 0xC ∧
        ((u.ctx t).saveSet (s.ctx t).level).detail = dReserved ∧ ((u.ctx t).saveSet (s.ctx t).level).addr = word a ∧ (∀ r, u.reg t r = s.reg t r) ∧ u.mem = s.mem)) ∧
  (∀ (s : State) (r : Req) d, s.up = true → s.clockOn (tidHalf r.src) = true → r.kind = .store d → r.acked = false → r.dead = false → r.session = none → r.credit = none → r.scalar = true →
      s.reqs = [r] → (s.ctx r.src).wait = none →
      (r.resp = none → isCtl r.addr.toNat = false → s.needsCredit (if r.src.unit < 1024 then some r.src.unit else none) r.addr.toNat d.length = false → s.good (tidHalf r.src) r.addr.toNat d.length = true →
        s.routeErr (tidHalf r.src) r.addr.toNat = none →
        Ends (exec (.postedStoreAck r.id) s) (fun u => u.mem = (s.poke r.addr.toNat d).mem ∧ u.reqs = [] ∧ (u.ctx r.src).deferred = (s.ctx r.src).deferred ∧ (u.ctx r.src).pc = (s.ctx r.src).pc ∧
          (u.ctx r.src).g = (s.ctx r.src).g)) ∧
      (∀ k b, k ≠ 0 → r.resp = some (k, b) → (s.ctx r.src).deferred = none → Ends (exec (.postedStoreAck r.id) s) (fun u => (u.ctx r.src).deferred = some (b, k) ∧ u.reqs = [] ∧ u.mem = s.mem ∧
        (u.ctx r.src).pc = (s.ctx r.src).pc))) ∧
  (∀ (s : State) k l i, k < 16 → isCacheable (l * 64) = true → (s.ctx ⟨1024 + k, 0⟩).wait = some ⟨.cacheLine l, i⟩ → s.takesData ⟨1024 + k, 0⟩ = true →
      ∀ d, (((s.line l).present = true ∧ d = (s.line l).data) ∨ ((s.line l).present = false ∧ s.readAcc (nodeHalf (culmNodeNode (k / 4))) (l * 64) 64 = .ok d)) →
        Ends (exec (.cacheMissFill k l none none) s) (fun u => u.inL2 k l = true ∧ (u.line l).data = d ∧ (u.ctx ⟨1024 + k, 0⟩).st = .running ∧ (u.ctx ⟨1024 + k, 0⟩).wait = none ∧
          (u.ctx ⟨1024 + k, 0⟩).pc = (s.ctx ⟨1024 + k, 0⟩).pc ∧ (u.ctx ⟨1024 + k, 0⟩).g = (s.ctx ⟨1024 + k, 0⟩).g ∧ u.mem = s.mem))

/-- FORK with an even entry and a free pool context starts the lowest one at level 2 at that entry, with sp from rb, g1 to g8
copied, no vector register set, the caller's segments at level 2 and TSEG above it, and gives its handle, the generation having
counted; without one it gives minus one, and an odd entry raises ALIGN. JOIN of a handle whose context has exited gives the
code, of context 0 minus one, of a live one waits. EXIT of a pool thread with nothing outstanding frees its context, records its
code and ends the JOINs on it; it waits for posted stores, and is ILLEGAL in context 0. A slot start moves to the next slot,
takes a new SLOT_TBL at slot 0, and runs its owner if that is ready, the thread that ran being READY. (R126, R128, R129, R130,
R138, R139) -/
def Obligations.ThreadsStartJoinAndEnd : Prop :=
  (∀ (s : State) t rd ra rb, s.clearCompute t = true →
      ((s.reg t ra).getLsbD 0 = false → ∀ k, s.freeCtx t.unit 0 = some k → Ends (exec (.fork t rd ra rb) s) (fun u => (rd ≠ 0 → u.reg t rd = word (k + ((s.ctx ⟨t.unit, k⟩).gen + 1) % 256 * 256)) ∧
        (∀ r, r ≠ rd → u.reg t r = s.reg t r) ∧ (u.ctx t).pc = (s.ctx t).pc + 4 ∧ ((u.ctx ⟨t.unit, k⟩).st = .ready ∨ (u.ctx ⟨t.unit, k⟩).st = .running) ∧ (u.ctx ⟨t.unit, k⟩).level = 2 ∧
        (u.ctx ⟨t.unit, k⟩).pc = s.reg t ra ∧ u.sp ⟨t.unit, k⟩ = s.reg t rb ∧ (∀ r : Reg, 1 ≤ r.toNat → r.toNat ≤ 8 → u.reg ⟨t.unit, k⟩ r = s.reg t r) ∧ (∀ r, u.vreg ⟨t.unit, k⟩ r = 0) ∧
        (u.ctx ⟨t.unit, k⟩).segs = (if (s.ctx t).level = 2 then (s.ctx t).segs else (s.core t.unit).tseg) ∧ u.mem = s.mem)) ∧
      ((s.reg t ra).getLsbD 0 = false → s.freeCtx t.unit 0 = none → Ends (exec (.fork t rd ra rb) s) (fun u => s.setsReg u t 4 rd (-1))) ∧
      ((s.reg t ra).getLsbD 0 = true → ((s.fault t 8 0 (s.reg t ra)).ctx t).trapDue = none → exec (.fork t rd ra rb) s = .next ((s.fault t 8 0 (s.reg t ra)).settleDebug t)) ∧
      (∀ k g c, 1 ≤ k → k < 8 → k ≠ t.ctx → g < 256 → s.reg t ra = word (g * 256 + k) → (s.ctx ⟨t.unit, k⟩).lastExit = some (g, c) → Ends (exec (.join t rd ra) s) (fun u => s.setsReg u t 4 rd (word c))) ∧
      (∀ g, g < 256 → s.reg t ra = word (g * 256) → Ends (exec (.join t rd ra) s) (fun u => s.setsReg u t 4 rd (-1))) ∧
      (∀ k g, 1 ≤ k → k < 8 → k ≠ t.ctx → g < 256 → s.reg t ra = word (g * 256 + k) → (s.ctx ⟨t.unit, k⟩).lastExit = none → (s.ctx ⟨t.unit, k⟩).gen = g → (s.ctx ⟨t.unit, k⟩).st ≠ .free →
        Ends (exec (.join t rd ra) s) (fun u => (u.ctx t).st = .waiting ∧ (u.ctx t).wait = some ⟨.join k g rd, .join t rd ra⟩ ∧ (u.ctx t).pc = (s.ctx t).pc ∧ u.mem = s.mem)) ∧
      (t.ctx ≠ 0 → s.noReqs t = true → (s.core t.unit).mmasOf t.ctx = [] → s.waitingForks (t.unit / 16) (t.unit % 16) = [] → Ends (exec (.exit t ra) s) (fun u => (u.ctx t).st = .free ∧
        (u.ctx t).lastExit = some ((s.ctx t).gen, (s.reg t ra).toNat % 2 ^ 32) ∧ (∀ j rj i, j < 8 → j ≠ t.ctx → (s.ctx ⟨t.unit, j⟩).st = .waiting → rj ≠ 0 → (s.ctx t).gen < 256 →
          (s.ctx ⟨t.unit, j⟩).wait = some ⟨.join t.ctx (s.ctx t).gen rj, i⟩ → (u.ctx ⟨t.unit, j⟩).wait = none ∧ u.reg ⟨t.unit, j⟩ rj = word ((s.reg t ra).toNat % 2 ^ 32)))) ∧
      (t.ctx ≠ 0 → s.posted t ≠ [] → Ends (exec (.exit t ra) s) (fun u => (u.ctx t).st = .waiting ∧ (u.ctx t).wait = some ⟨.drain, .exit t ra⟩ ∧ u.mem = s.mem)) ∧
      (t.ctx = 0 → ((s.illegal t).ctx t).trapDue = none → exec (.exit t ra) s = .next ((s.illegal t).settleDebug t))) ∧
  (∀ (s : State) n, n < 1024 → s.up = true → s.coreOpen n = true → Ends (exec (.slotStart n) s) (fun u => (u.core n).slot = ((s.core n).slot + 1) % 16 ∧
      (u.core n).slotTbl = (if ((s.core n).slot + 1) % 16 = 0 then (s.core n).slotTblNext.getD (s.core n).slotTbl else (s.core n).slotTbl) ∧ u.mem = s.mem ∧ u.tillers = s.tillers ∧
      (∀ k, (s.core n).slotTblNext = none → (s.core n).urgent = false → (s.core n).owner (((s.core n).slot + 1) % 16) = some k →
        (((s.core n).running ≠ some k ∧ (s.ctx ⟨n, k⟩).st = .ready) ∨ ((s.core n).running = some k ∧ (s.ctx ⟨n, k⟩).st = .running)) → (u.core n).running = some k ∧ (u.ctx ⟨n, k⟩).st = .running ∧
        (∀ j, j < 8 → j ≠ k → (s.core n).running = some j → (u.ctx ⟨n, j⟩).st = .ready) ∧ ∀ j r, (u.reg ⟨n, j⟩ r = s.reg ⟨n, j⟩ r))))

/-- At level 0 or 1: CTX_CTL naming pool context o with KILL frees it in any state but FREE; with RETURN, while it is FAULTED
and its save set allows it, restores what RETX does and makes it run; with ENTER runs the recorded handler; with CONTINUE, while
it is FENCED or HALTED, runs it at its held PC; each clears ERR, and one that the context's state refuses sets ERR and leaves
the context alone. CTX_DATA reaches general registers of the context that CTX_SEL names while it is FAULTED, FENCED or HALTED; a
refused read gives zero, a refused write is discarded, and both set ERR. At level 2 every one raises PRIVILEGE. (R116, R133,
R134, R135, R443) -/
def Obligations.SupervisorControlsContexts : Prop :=
  (∀ (s : State) t (w : Word) o, s.clearCompute t = true → (s.ctx t).level ≤ 1 → o = (⟨t.unit, w.toNat % 8⟩ : Tid) → o.ctx ≠ 0 → (s.ctx o).mailbox = false →
      (w.toNat / 16 % 8 = 1 → (s.ctx o).st ≠ .free → s.waitingForks (t.unit / 16) (t.unit % 16) = [] → Ends (exec (.ctxKill t w) s) (fun u => (u.ctx o).st = .free ∧ (u.core t.unit).ctxErr = false)) ∧
      (w.toNat / 16 % 8 = 2 → (s.ctx o).st = .faulted → ((s.ctx o).saveSet (s.ctx o).level).valid = true → ((s.ctx o).saveSet (s.ctx o).level).depth = 0 →
        ∀ g, ((((s.ctx o).saveSet (s.ctx o).level).plv = (s.ctx o).level ∧ g = (s.ctx o).segs) ∨
          ((s.ctx o).level < ((s.ctx o).saveSet (s.ctx o).level).plv ∧ s.restoredSegs o (s.ctx o).level ((s.ctx o).saveSet (s.ctx o).level).plv = .ok g)) →
        Ends (exec (.ctxReturn t w) s) (fun u => ((u.ctx o).st = .ready ∨ (u.ctx o).st = .running) ∧ (u.ctx o).pc = ((s.ctx o).saveSet (s.ctx o).level).pc ∧
          (u.ctx o).level = ((s.ctx o).saveSet (s.ctx o).level).plv ∧ u.sp o = ((s.ctx o).saveSet (s.ctx o).level).sp ∧ (u.ctx o).segs = g ∧ (∀ r, r ≠ 31 → u.reg o r = s.reg o r) ∧
          (u.core t.unit).ctxErr = false ∧ u.mem = s.mem)) ∧
      (w.toNat / 16 % 8 = 3 → (s.ctx o).st = .faulted → ∀ l pc c, (s.ctx o).entered = some (l, pc, c) → Ends (exec (.ctxEnter t w) s) (fun u => ((u.ctx o).st = .ready ∨ (u.ctx o).st = .running) ∧
          (u.ctx o).pc = pc ∧ (u.ctx o).entered = none ∧ (∀ r, u.reg o r = s.reg o r) ∧ (u.core t.unit).ctxErr = false ∧ u.mem = s.mem)) ∧
      (w.toNat / 16 % 8 = 4 → (s.ctx o).st = .fenced ∨ (s.ctx o).st = .halted → Ends (exec (.ctxContinue t w) s) (fun u => ((u.ctx o).st = .ready ∨ (u.ctx o).st = .running) ∧
          (u.ctx o).pc = (s.ctx o).pc ∧ (u.ctx o).level = (s.ctx o).level ∧ (∀ r, u.reg o r = s.reg o r) ∧ (u.core t.unit).ctxErr = false ∧ u.mem = s.mem)) ∧
      (∀ p ∈ [(1, Instr.ctxKill t w), (2, .ctxReturn t w), (3, .ctxEnter t w), (4, .ctxContinue t w)], w.toNat / 16 % 8 = p.1 → (s.ctx o).st = .free → Ends (exec p.2 s) (fun u =>
          (u.core t.unit).ctxErr = true ∧ u.ctx o = s.ctx o ∧ (u.ctx t).pc = (s.ctx t).pc + 4 ∧ u.mem = s.mem))) ∧
  (∀ (s : State) t, s.clearCompute t = true → (s.ctx t).level ≤ 1 → (s.core t.unit).ctxSel.toNat / 16 % 4096 < 32 →
      (∀ o, s.ctxObject t = some o → o ≠ t → (∀ rd, Ends (exec (.ctxDataAccess t (.read rd)) s) (fun u => (rd ≠ 0 → u.reg t rd = s.reg o (bv 5 ((s.core t.unit).ctxSel.toNat / 16 % 4096))) ∧
          (∀ r, r ≠ rd → u.reg t r = s.reg t r) ∧ (u.core t.unit).ctxErr = false ∧ (u.ctx t).pc = (s.ctx t).pc + 4 ∧ u.mem = s.mem)) ∧
        (∀ ra, Ends (exec (.ctxDataAccess t (.write ra)) s) (fun u => ((s.core t.unit).ctxSel.toNat / 16 % 4096 ≠ 0 → u.reg o (bv 5 ((s.core t.unit).ctxSel.toNat / 16 % 4096)) = s.reg t ra) ∧
          (∀ r, r ≠ bv 5 ((s.core t.unit).ctxSel.toNat / 16 % 4096) → u.reg o r = s.reg o r) ∧ (u.core t.unit).ctxErr = false ∧ (u.ctx t).pc = (s.ctx t).pc + 4 ∧ u.mem = s.mem))) ∧
      (s.ctxObject t = none → (∀ rd, Ends (exec (.ctxDataAccess t (.read rd)) s) (fun u => u.reg t rd = 0 ∧ (u.core t.unit).ctxErr = true)) ∧
        (∀ ra, Ends (exec (.ctxDataAccess t (.write ra)) s) (fun u => (u.core t.unit).ctxErr = true ∧ (∀ (d : Tid) (r : Reg), u.reg d r = s.reg d r))))) ∧
  (∀ (s : State) t (w : Word) rd, s.clearCompute t = true → (s.ctx t).level = 2 → ((s.privilege t).ctx t).trapDue = none →
      exec (.ctxDataAccess t (.read rd)) s = .next ((s.privilege t).settleDebug t) ∧ exec (.ctxDataAccess t (.write rd)) s = .next ((s.privilege t).settleDebug t) ∧
      ∀ p ∈ [(1, Instr.ctxKill t w), (2, .ctxReturn t w), (3, .ctxEnter t w), (4, .ctxContinue t w)], w.toNat / 16 % 8 = p.1 → exec p.2 s = .next ((s.privilege t).settleDebug t))

/-- WAITEV with a pending bit of its mask takes the lowest and gives its number; a kept mailbox wake gives context 0 minus two
first; with neither the thread waits. EVPOST with no thread of the core waiting makes its bits pending; a bit that a waiting
thread matches ends the wait of the lowest one instead. EVINC of a counter of this module, permitted, admitted and with no held
flit before it, puts the increment on its way to its tiller; one that is not permitted is due as DEFERRED_STORE with DENIED. The
watchdog of a core whose live contexts all wait makes DEADLOCK_SUSPECT pending, sets FIRED and counts, and a WAITEV of context 0
ends with minus one. (R31, R55, R141, R142, R143, R144, R145) -/
def Obligations.EventsAndTheWatchdog : Prop :=
  (∀ (s : State) t rd ra, s.clearCompute t = true →
      (∀ e, (t.ctx ≠ 0 ∨ (s.core t.unit).mailWake = false) → lowestEvent ((s.core t.unit).evPend &&& s.reg t ra) = some e → Ends (exec (.waitev t rd ra) s) (fun u =>
        (u.core t.unit).evPend = (s.core t.unit).evPend &&& ~~~(word (2 ^ e)) ∧ (rd ≠ 0 → u.reg t rd = word e) ∧ (∀ r, r ≠ rd → u.reg t r = s.reg t r) ∧ (u.ctx t).pc = (s.ctx t).pc + 4 ∧ u.mem = s.mem)) ∧
      ((t.ctx ≠ 0 ∨ (s.core t.unit).mailWake = false) → (s.core t.unit).evPend &&& s.reg t ra = 0 → Ends (exec (.waitev t rd ra) s) (fun u => (u.ctx t).st = .waiting ∧
        (u.ctx t).wait = some ⟨.event (s.reg t ra) rd, .waitev t rd ra⟩ ∧ (u.ctx t).pc = (s.ctx t).pc ∧ (u.core t.unit).evPend = (s.core t.unit).evPend ∧ u.mem = s.mem)) ∧
      (t.ctx = 0 → (s.core t.unit).mailWake = true → Ends (exec (.waitev t rd ra) s) (fun u => (rd ≠ 0 → u.reg t rd = -2) ∧ (u.core t.unit).mailWake = false ∧ (u.ctx t).pc = (s.ctx t).pc + 4)) ∧
      ((∀ k, k < 8 → (s.ctx ⟨t.unit, k⟩).st ≠ .waiting) → Ends (exec (.evpost t ra) s) (fun u => (u.core t.unit).evPend = (s.core t.unit).evPend ||| s.reg t ra ∧ (u.ctx t).pc = (s.ctx t).pc + 4 ∧
        (u.ctx t).g = (s.ctx t).g ∧ u.mem = s.mem)) ∧
      (∀ e k rk, e < 64 → s.reg t ra = word (2 ^ e) → (s.core t.unit).evPend.getLsbD e = false → (s.core t.unit).waiter e = some (k, rk) → k ≠ t.ctx → Ends (exec (.evpost t ra) s) (fun u =>
        (u.core t.unit).evPend = (s.core t.unit).evPend ∧ (u.ctx ⟨t.unit, k⟩).wait = none ∧ (rk ≠ 0 → u.reg ⟨t.unit, k⟩ rk = word e) ∧ (u.ctx t).pc = (s.ctx t).pc + 4 ∧ u.mem = s.mem)) ∧
      (∀ rb, (s.reg t ra).toNat < 2 ^ 28 → (s.reg t ra).toNat / 2 ^ 14 = 0x3FFF → (s.ctx t).twin = false →
        (((s.node (tidNode t)).permits (tillerNode ((s.reg t ra).toNat / 256 % 64)) = true → (s.node (tidNode t)).waiting = [] →
          (s.node (tidNode t)).admits (planeOf (tidNode t) (tillerNode ((s.reg t ra).toNat / 256 % 64))) = true → s.blocked (nodeHalf (tillerNode ((s.reg t ra).toNat / 256 % 64))) = false →
          Ends (exec (.evinc t ra rb) s) (fun u => (u.tiller ((s.reg t ra).toNat / 256 % 64)).c0 = (s.tiller ((s.reg t ra).toNat / 256 % 64)).c0 ++ [.inc ((s.reg t ra).toNat % 256) ((s.reg t rb).toNat % 2 ^ 32)] ∧
            (u.ctx t).pc = (s.ctx t).pc + 4 ∧ (u.ctx t).g = (s.ctx t).g ∧ u.mem = s.mem))) ∧
        ((s.node (tidNode t)).permits (tillerNode ((s.reg t ra).toNat / 256 % 64)) = false → Ends (exec (.evinc t ra rb) s) (fun u => (u.ctx t).deferred = some (word ((s.reg t ra).toNat % 2 ^ 28), dDenied) ∧
          (u.ctx t).pc = (s.ctx t).pc + 4 ∧ u.tillers = s.tillers ∧ u.mem = s.mem)))) ∧
  (∀ (s : State) n, n < 1024 → s.up = true → s.coreOpen n = true → (s.core n).twdogExp % 64 ≠ 0 → (s.core n).twdogDone = false → (s.core n).allWait = true → Ends (exec (.twdogExpire n) s) (fun u =>
      (u.core n).deadlock = true ∧ (u.core n).twdogFired = true ∧ (u.core n).twdogCount = min ((s.core n).twdogCount + 1) 65535 ∧ u.mem = s.mem ∧
      (∀ m rd i, (s.ctx ⟨n, 0⟩).st = .waiting → (s.ctx ⟨n, 0⟩).wait = some ⟨.event m rd, i⟩ → (u.ctx ⟨n, 0⟩).wait = none ∧ (rd ≠ 0 → u.reg ⟨n, 0⟩ rd = -1))))

/-- For every counter value C and wanted value V, reached is (C minus V) modulo 2^32 below 2^31. A record's enabled wait
conditions use it. WAITC of a thread with nothing else due retires where its counter has reached the value, and waits where it
has not. A value reached stays reached over further increments as long as the counter is at most 2^31 minus 1 ahead, and a value
from minus 1 to minus 2^31 plus 1, taken modulo 2^32, is reached by a counter at zero. (R261) -/
def Obligations.CountersReachTheirValues : Prop :=
  (∀ c v : Nat, c < 2 ^ 32 → v < 2 ^ 32 → (reached c v = true ↔ ((c : Int) - v) % 2 ^ 32 < 2 ^ 31)) ∧
  (∀ v n : Nat, v < 2 ^ 32 → n < 2 ^ 31 → reached ((v + n) % 2 ^ 32) v = true) ∧
  (∀ n : Nat, 0 < n → n < 2 ^ 31 → reached 0 (2 ^ 32 - n) = true) ∧
  (∀ (s : State) T r i, s.recReached T r i = true ↔ (r.waitA = true → ((s.evc T r.ctrA : Int) - ((r.valA + i * r.incA) % 2 ^ 32 : Nat)) % 2 ^ 32 < 2 ^ 31) ∧
      (r.waitB = true → ((s.evc T r.ctrB : Int) - ((r.valB + i * r.incB) % 2 ^ 32 : Nat)) % 2 ^ 32 < 2 ^ 31)) ∧
  (∀ (s : State) t ra rb, s.clearCompute t = true →
      (((s.evc (tidTiller t) ((s.reg t ra).toNat % 256) : Int) - ((s.reg t rb).toNat % 2 ^ 32 : Nat)) % 2 ^ 32 < 2 ^ 31 → Ends (exec (.waitc t ra rb) s) (fun u => s.retires u t 4 ∧ (u.ctx t).g = (s.ctx t).g)) ∧
      (2 ^ 31 ≤ ((s.evc (tidTiller t) ((s.reg t ra).toNat % 256) : Int) - ((s.reg t rb).toNat % 2 ^ 32 : Nat)) % 2 ^ 32 → Ends (exec (.waitc t ra rb) s) (fun u => (u.ctx t).st = .waiting ∧
        (u.ctx t).wait = some ⟨.counter ((s.reg t ra).toNat % 256) ((s.reg t rb).toNat % 2 ^ 32), .waitc t ra rb⟩ ∧ (u.ctx t).pc = (s.ctx t).pc ∧ u.mem = s.mem)))

/-- CHPUT writes one staged word. CHSEND and CHSEND.NB with a good handle and 1 to 8 words ask for a credit and wait; with the
endpoint's credit kept they send one flit of the staged words with header words, core and context. A request that reaches a
valid endpoint with a free slot that nobody else owns is granted, one that finds it full is listed, or turned away for
CHSEND.NB. A grant reaches the waiting sender, whose flit leaves. A message that arrives is written to the queue's next slot;
CHRECV and CHRECV.NB by its receiver take the oldest of a readable slot, CHRECV.NB of an empty queue giving minus one and CHRECV
waiting. CHOWN asks for ownership and waits for it, CHREL by the owner gives it up. A write of CHEP configures an endpoint that
is not valid. (R146, R147, R148, R149, R150, R151) -/
def Obligations.ChannelsCarryMessages : Prop :=
  (∀ (s : State) t rd ra rb i T e, s.clearCompute t = true → T < 64 → e < 256 →
      Ends (exec (.chput t ra i) s) (fun u => s.onlyThread u t ∧ sget 0 (u.ctx t).stage i.toNat = s.reg t ra ∧ (∀ j, j ≠ i.toNat → sget 0 (u.ctx t).stage j = sget 0 (s.ctx t).stage j) ∧
        (u.ctx t).g = (s.ctx t).g ∧ (u.ctx t).pc = (s.ctx t).pc + 4) ∧
      (s.reg t ra = word (T * 256 + e) → 1 ≤ (s.reg t rb).toNat → (s.reg t rb).toNat ≤ 8 → (s.ctx t).twin = false →
        ((s.ctx t).chCredit = none → s.asked t (T * 256 + e) = false → ∀ p ∈ [(Instr.chsend t ra rb, false), (.chsendNb t rd ra rb, true)], Ends (exec p.1 s) (fun u =>
          (u.ctx t).st = .waiting ∧ (u.ctx t).wait = some ⟨.channelCredit, p.1⟩ ∧ (u.ctx t).pc = (s.ctx t).pc ∧
          u.chCredits = s.chCredits ++ [{ t := t, handle := T * 256 + e, nb := p.2, own := false, dead := false, body := .asking }] ∧ u.mem = s.mem)) ∧
        ((s.ctx t).chCredit = some (T * 256 + e) → ∀ p ∈ [(Instr.chsend t ra rb, (0 : Reg)), (.chsendNb t rd ra rb, rd)], Ends (exec p.1 s) (fun u => (u.ctx t).pc = (s.ctx t).pc + 4 ∧ (u.ctx t).stage = [] ∧ (u.ctx t).chCredit = none ∧
          u.reg t p.2 = 0 ∧ (∀ r, r ≠ p.2 → u.reg t r = s.reg t r) ∧ u.chMsgs = s.chMsgs ++ [{ tiller := T, ep := e, header := word ((s.reg t rb).toNat + t.unit * 16 + t.ctx * 2 ^ 14), words := (List.range 8).map (fun j => if j < (s.reg t rb).toNat then sget 0 (s.ctx t).stage j else 0) }] ∧ u.mem = s.mem))) ∧
      (s.reg t ra = word (T * 256 + e) → (s.ep T e).valid = true → t.unit = T * 16 + (s.ep T e).rxCore → t.ctx = (s.ep T e).rxCtx →
        ((s.ep T e).count = 0 → Ends (exec (.chrecvNb t rd ra) s) (fun u => s.setsReg u t 4 rd (-1)) ∧
          Ends (exec (.chrecv t rd ra) s) (fun u => (u.ctx t).st = .waiting ∧ (u.ctx t).wait = some ⟨.channelMessage e rd, .chrecv t rd ra⟩ ∧ (u.ctx t).pc = (s.ctx t).pc ∧ u.mem = s.mem)) ∧
        (0 < (s.ep T e).count → (s.ep T e).waiters = [] → ∀ l, s.readAcc (tidHalf t) ((s.ep T e).slotAt T (s.ep T e).head) 72 = .ok l → ∀ p ∈ [Instr.chrecv t rd ra, .chrecvNb t rd ra],
          Ends (exec p s) (fun u => (rd ≠ 0 → u.reg t rd = word (fld l 64 8)) ∧ (∀ j, j < 8 → sget 0 (u.ctx t).rx j = word (fld l (8 * j) 8)) ∧ (u.ep T e).count = (s.ep T e).count - 1 ∧
            (u.ep T e).head = ((s.ep T e).head + 1) % (s.ep T e).slots ∧ (u.ctx t).pc = (s.ctx t).pc + 4 ∧ u.mem = s.mem))) ∧
      (s.reg t ra = word (T * 256 + e) → Ends (exec (.chown t ra) s) (fun u => (u.ctx t).st = .waiting ∧ (u.ctx t).wait = some ⟨.channelOwner (T * 256 + e), .chown t ra⟩ ∧
        u.chCredits = s.chCredits ++ [{ t := t, handle := T * 256 + e, nb := false, own := true, dead := false, body := .asking }] ∧ u.mem = s.mem)) ∧
      (s.reg t ra = word (T * 256 + e) → (s.ep T e).valid = true → (s.ep T e).owner = some t → (s.ep T e).waiters = [] → Ends (exec (.chrel t ra) s) (fun u => (u.ep T e).owner = none ∧
        (u.ctx t).pc = (s.ctx t).pc + 4 ∧ (u.ctx t).g = (s.ctx t).g ∧ u.mem = s.mem))) ∧
  (∀ (s : State) t T e nb, tidOk t = true → t.unit < 1024 → T < 64 → e < 256 → s.up = true → s.routeErr (tidHalf t) (tmAddr T 0) = none → (s.ep T e).valid = true →
      s.chCredits = [{ t := t, handle := T * 256 + e, nb := nb, own := false, dead := false, body := .asking }] →
      ((s.ep T e).canSend t = true → Ends (exec (.channelCreditRequest t) s) (fun u => (u.ep T e).promised = (s.ep T e).promised + 1 ∧ u.chCredits.map (fun m => (m.t, m.handle, m.body)) = [(t, T * 256 + e, .granted)] ∧ u.mem = s.mem)) ∧
      ((s.ep T e).canSend t = false → nb = true → Ends (exec (.channelCreditRequest t) s) (fun u => u.ep T e = s.ep T e ∧ u.chCredits.map (fun m => (m.t, m.handle, m.body)) = [(t, T * 256 + e, .turnedAway)] ∧ u.mem = s.mem)) ∧
      ((s.ep T e).canSend t = false → nb = false → Ends (exec (.channelCreditRequest t) s) (fun u => (u.ep T e).waiters = (s.ep T e).waiters ++ [⟨t, false, false⟩] ∧ u.chCredits = [] ∧ u.mem = s.mem))) ∧
  (∀ (s : State) t ra rb T e m, tidOk t = true → t.unit < 1024 → s.up = true → (s.ctx t).wait = some ⟨.channelCredit, .chsend t ra rb⟩ → (s.reg t ra).toNat = T * 256 + e → e < 256 →
      s.chCredits = [m] → m.t = t → m.handle = T * 256 + e → m.own = false → m.dead = false → m.body = .granted → Ends (exec (.channelCreditGrant t) s) (fun u => u.chCredits = [] ∧ (u.ctx t).wait = none ∧
        (∃ c, u.chMsgs = s.chMsgs ++ [c] ∧ c.tiller = T ∧ c.ep = e ∧ c.header = word ((s.reg t rb).toNat + t.unit * 16 + t.ctx * 2 ^ 14)) ∧ (u.ctx t).pc = (s.ctx t).pc + 4 ∧ u.mem = s.mem)) ∧
  (∀ (s : State) (m : ChMsg), m.tiller < 64 → m.ep < 256 → s.up = true → s.chMsgs = [m] → m.words.length = 8 → (s.ep m.tiller m.ep).valid = true → 0 < (s.ep m.tiller m.ep).promised → s.routeErr (tillerHalf m.tiller) (tmAddr m.tiller 0) = none →
      s.recvWaiter m.tiller m.ep = none → s.good (tillerHalf m.tiller) ((s.ep m.tiller m.ep).slotAt m.tiller ((s.ep m.tiller m.ep).head + (s.ep m.tiller m.ep).count)) 72 = true →
      Ends (exec (.channelMessageArrive m.tiller m.ep) s) (fun u => u.chMsgs = [] ∧ (u.ep m.tiller m.ep).count = (s.ep m.tiller m.ep).count + 1 ∧ (u.ep m.tiller m.ep).promised = (s.ep m.tiller m.ep).promised - 1 ∧
        u.mem = (s.poke ((s.ep m.tiller m.ep).slotAt m.tiller ((s.ep m.tiller m.ep).head + (s.ep m.tiller m.ep).count)) (m.words.flatMap (fun w => leBytes 8 w.toNat) ++ leBytes 8 m.header.toNat)).mem)) ∧
  (∀ (s : State) lvl T e (w : Word), T < 64 → e < 256 → lvl ≠ .task → s.reachable (tillerNode T) = true → (s.ep T e).valid = false → w.toNat / 256 % 16 ≤ 8 → (w.toNat / 2 ^ 16 % 2 ^ 15 + 2 ^ (w.toNat / 256 % 16)) * 128 ≤ 0x400000 →
      Ends (exec (.chepWrite lvl T e w) s) (fun u => u.ep T e = { s.ep T e with valid := w.getLsbD 0, rxCtx := w.toNat / 2 % 8, rxCore := w.toNat / 16 % 16, depth := w.toNat / 256 % 16, qbase := w.toNat / 2 ^ 16 % 2 ^ 15 } ∧ u.mem = s.mem))

/-- A thread that stands before a vector arithmetic, compare, select, conversion, reduction, special or move instruction, with
no floating-point trap enabled, retires it: each active element of the destination is what the tables of chapter 6 give, an
inactive one keeps its value, the bits above the result are zero, FPS takes the flags of the active elements, and no other
register, no memory and no other unit is changed. Integer elements are given as two's-complement operations; floating ones by
the model's correctly rounded operation, which gives the default NaN where an operand is a NaN. Sums and special functions have
a value within the spec's bound that is otherwise free (log entries 1 and 2). A form that the tables do not give raises ILLEGAL.
Where an element raises an enabled exception, the result is written and FP_TRAP is entered at the next instruction with the
raised enabled flags in DETAIL. (R154, R155, R157, R161, R162, R184, R188, R190, R192, R200) -/
def Obligations.VectorArithmetic : Prop :=
  (∀ (s : State) t (f : VFmt), s.clear t 4 = true → field (s.ctx t).fpm 8 5 = 0 →
      (∀ p ∈ ([(.add, fun a b _ => a + b), (.sub, fun a b _ => a - b), (.mul, fun a b _ => a * b), (.fma, fun a b d => a * b + d), (.fnma, fun a b d => d - a * b),
          (.min, fun a b _ => if a.toInt < b.toInt then a else b), (.max, fun a b _ => if a.toInt < b.toInt then b else a), (.and, fun a b _ => a &&& b), (.or, fun a b _ => a ||| b),
          (.xor, fun a b _ => a ^^^ b), (.sll, fun a b _ => a <<< (b.toNat % elemBits f.et)), (.srl, fun a b _ => a >>> (b.toNat % elemBits f.et)),
          (.sra, fun a b _ => a.sshiftRight (b.toNat % elemBits f.et))] : List (VArith × (BitVec (elemBits f.et) → BitVec (elemBits f.et) → BitVec (elemBits f.et) → BitVec (elemBits f.et)))),
        elemFp f.et = false → Ends (exec (.vecArith t p.1 f) s) (fun u => s.setsLanes u t f.vd (elemBits f.et) (elemCount f.et) f.masked (fun i =>
          ((p.2 (BitVec.ofNat _ (vget (s.vreg t f.va) (elemBits f.et) i)) (BitVec.ofNat _ (vget (s.vreg t f.vb) (elemBits f.et) i)) (BitVec.ofNat _ (vget (s.vreg t f.vd) (elemBits f.et) i))).toNat, 0)))) ∧
      (∀ p ∈ ([(.abs, fun a => if a.toInt < 0 then -a else a), (.neg, fun a => -a)] : List (VArith × (BitVec (elemBits f.et) → BitVec (elemBits f.et)))),
        elemFp f.et = false → f.vb = 0 → Ends (exec (.vecArith t p.1 f) s) (fun u => s.setsLanes u t f.vd (elemBits f.et) (elemCount f.et) f.masked (fun i =>
          ((p.2 (BitVec.ofNat _ (vget (s.vreg t f.va) (elemBits f.et) i))).toNat, 0)))) ∧
      (∀ op ∈ [VArith.add, .sub, .mul, .fma, .fnma, .div, .sqrt, .min, .max, .abs, .neg], ∀ g, elemFmt f.et = some g → arithLegal op f = true →
        Ends (exec (.vecArith t op f) s) (fun u => s.setsLanes u t f.vd (elemBits f.et) (elemCount f.et) f.masked (fun i =>
          fpArith g op (fpmRm (s.ctx t).fpm) (fpmFtz (s.ctx t).fpm) (vget (s.vreg t f.va) (elemBits f.et) i) (vget (s.vreg t f.vb) (elemBits f.et) i) (vget (s.vreg t f.vd) (elemBits f.et) i)))) ∧
      (f.vb = 0 → Ends (exec (.vecArith t .mv f) s) (fun u => s.setsLanes u t f.vd (elemBits f.et) (elemCount f.et) f.masked (fun i => (vget (s.vreg t f.va) (elemBits f.et) i, 0)))) ∧
      Ends (exec (.vecArith t .bcg f) s) (fun u => s.setsLanes u t f.vd (elemBits f.et) (elemCount f.et) f.masked (fun _ => ((s.reg t f.va).toNat, 0))) ∧
      (elemFp f.et = false → f.va = 0 → f.vb = 0 → Ends (exec (.vecArith t .iota f) s) (fun u => s.setsLanes u t f.vd (elemBits f.et) (elemCount f.et) f.masked (fun i => (i, 0)))) ∧
      (∀ op, (op = .un → elemFp f.et = true) → Ends (exec (.vecCompare t op f) s) (fun u => s.setsLanes u t f.vd 1 (elemCount f.et) f.masked (fun i =>
        (b2n (cmpElem op f.et (fpmFtz (s.ctx t).fpm) (vget (s.vreg t f.va) (elemBits f.et) i) (vget (s.vreg t f.vb) (elemBits f.et) i)).1,
          (cmpElem op f.et (fpmFtz (s.ctx t).fpm) (vget (s.vreg t f.va) (elemBits f.et) i) (vget (s.vreg t f.vb) (elemBits f.et) i)).2)))) ∧
      (f.masked = false → Ends (exec (.vsel t f) s) (fun u => s.setsLanes u t f.vd (elemBits f.et) (elemCount f.et) false (fun i =>
        (if (s.vreg t 0).getLsbD i then vget (s.vreg t f.va) (elemBits f.et) i else vget (s.vreg t f.vb) (elemBits f.et) i, 0)))) ∧
      (∀ src, Ends (exec (.vcvt t f src) s) (fun u => s.setsLanes u t f.vd (elemBits f.et) (min (elemCount f.et) (elemCount src)) f.masked (fun i =>
        cvtElem f.et src (fpmRm (s.ctx t).fpm) (fpmFtz (s.ctx t).fpm) (vget (s.vreg t f.va) (elemBits src) i)))) ∧
      (∀ l, l = ((List.range (elemCount f.et)).filter (active f.masked (s.vreg t 0))).map (vget (s.vreg t f.va) (elemBits f.et)) →
        (elemFp f.et = false → ∀ op, Ends (exec (.vecReduce t op f) s) (fun u => s.setsLanes u t f.vd (elemBits f.et) 1 false (fun _ => (intReduce op (elemBits f.et) l, 0)))) ∧
        (∀ g, elemFmt f.et = some g →
          (∀ isMax : Bool, Ends (exec (.vecReduce t (if isMax then .max else .min) f) s) (fun u => s.setsLanes u t f.vd (elemBits f.et) 1 false (fun _ => fpExtreme g isMax (fpmFtz (s.ctx t).fpm) l))) ∧
          (∃ c b, c < 2 ^ elemBits f.et ∧ Ends (exec (.vecReduce t .sum f) s) (fun u => s.setsLanes u t f.vd (elemBits f.et) 1 false (fun _ => fpSum g (fpmFtz (s.ctx t).fpm) c (openFlags b) l))))) ∧
      (∀ op, f.et = .f32 → ∃ (c : VecReg) (b : BitVec 2), Ends (exec (.vecSpecial t op f) s) (fun u => s.setsLanes u t f.vd 32 32 f.masked (fun i =>
        ((specialOp op (fpmFtz (s.ctx t).fpm) (vget c 32 i) (vget (s.vreg t f.va) 32 i)).1, (specialOp op (fpmFtz (s.ctx t).fpm) (vget c 32 i) (vget (s.vreg t f.va) 32 i)).2 ||| openFlags b)))) ∧
      (f.masked = false → Ends (exec (.vmvg t f) s) (fun u => s.setsReg u t 4 f.vd (if elemFp f.et then word (vget (s.vreg t f.va) (elemBits f.et) ((s.reg t f.vb).toNat % elemCount f.et))
          else BitVec.ofInt 64 (BitVec.ofNat (elemBits f.et) (vget (s.vreg t f.va) (elemBits f.et) ((s.reg t f.vb).toNat % elemCount f.et))).toInt)) ∧
        Ends (exec (.vins t f) s) (fun u => s.setsLanes u t f.vd (elemBits f.et) (elemCount f.et) false (fun i =>
          (if i = (s.reg t f.vb).toNat % elemCount f.et then (s.reg t f.va).toNat else vget (s.vreg t f.vd) (elemBits f.et) i, 0))))) ∧
  (∀ (s : State) t (f : VFmt), s.clear t 4 = true → ((s.illegal t).ctx t).trapDue = none →
      (∀ op, arithLegal op f = false → exec (.vecArith t op f) s = .next ((s.illegal t).settleDebug t)) ∧
      (elemFp f.et = false → exec (.vecCompare t .un f) s = .next ((s.illegal t).settleDebug t)) ∧
      (f.masked = true → exec (.vsel t f) s = .next ((s.illegal t).settleDebug t) ∧ exec (.vmvg t f) s = .next ((s.illegal t).settleDebug t) ∧ exec (.vins t f) s = .next ((s.illegal t).settleDebug t)) ∧
      (elemFp f.et = true → ∀ op ∈ [VRed.and, .or, .xor], exec (.vecReduce t op f) s = .next ((s.illegal t).settleDebug t)) ∧
      (f.et ≠ .f32 → ∀ op, exec (.vecSpecial t op f) s = .next ((s.illegal t).settleDebug t))) ∧
  (∀ e g rm ftz a b d, elemFmt e = some g → ((g.decode a).isNan = true ∨ (g.decode b).isNan = true) → ∀ op ∈ [VArith.add, .sub, .mul, .div, .fma, .fnma], (fpArith g op rm ftz a b d).1 = g.nan) ∧
  (∀ (s : State) t (f : VFmt) op g r D d, s.clear t 4 = true → s.plainEntry t 0x10 d → elemFmt f.et = some g → op ∈ [VArith.add, .sub, .mul, .div] →
      r = (List.range (elemCount f.et)).map (fun i => if active f.masked (s.vreg t 0) i then
        fpArith g op (fpmRm (s.ctx t).fpm) (fpmFtz (s.ctx t).fpm) (vget (s.vreg t f.va) (elemBits f.et) i) (vget (s.vreg t f.vb) (elemBits f.et) i) (vget (s.vreg t f.vd) (elemBits f.et) i)
        else (vget (s.vreg t f.vd) (elemBits f.et) i, 0)) →
      D = flagsOf r % 32 &&& field (s.ctx t).fpm 8 5 → D ≠ 0 → Ends (exec (.vecArith t op f) s) (fun u => u.vreg t f.vd = vpack (elemBits f.et) (r.map Prod.fst) ∧ (u.ctx t).pc = d.handler ∧
        (u.ctx t).level = (s.ctx t).level ∧ ((u.ctx t).saveSet (s.ctx t).level).pc = (s.ctx t).pc + 4 ∧ ((u.ctx t).saveSet (s.ctx t).level).code = 0x10 ∧ ((u.ctx t).saveSet (s.ctx t).level).detail = D ∧
        (u.ctx t).fps = (s.ctx t).fps ||| word (flagsOf r % 64) ∧ (∀ q, q ≠ f.vd → u.vreg t q = s.vreg t q) ∧ (u.ctx t).g = (s.ctx t).g ∧ u.mem = s.mem))

/-- A thread that stands before one of these instructions, with no floating-point trap enabled where it can raise one, retires
it and changes nothing but its destination and sticky flags. VQMX packs the 64 elements of its two blocks from bit 0 up and puts
the blocks' scale bytes in bytes 126 and 127; it sets no FPS flag but FLUSH and takes no trap, and MXS takes BLKUF and SAT; how
a tie is broken is free (log entry 1). VDQMX gives the binary32 values of a block; VSPLIT the truncated pieces of 64 values;
VCVT8 64 bytes below a zero upper half; VCVTF8 32 binary32 values of one half. A block with a NaN, or with an infinity except
for E5M2, has scale 0xFF and elements 0. (R163, R164, R193, R201, R202, R203, R204, R205) -/
def Obligations.BlockScaledFormats : Prop :=
  (∀ (s : State) t mx vd va vb, s.clear t 4 = true → ∃ ties : Nat, ∀ b0 b1, b0 = mxBlock mx (fpmFtz (s.ctx t).fpm) ties ((List.range 32).map (vget (s.vreg t va) 32)) →
      b1 = mxBlock mx (fpmFtz (s.ctx t).fpm) (ties / 2 ^ 32) ((List.range 32).map (vget (s.vreg t vb) 32)) → Ends (exec (.vqmx t mx vd va vb) s) (fun u => s.retiresVec u t vd ∧
        u.vreg t vd = BitVec.ofNat 1024 ((b0.2.1 ++ b1.2.1).foldr (fun x r => x + 2 ^ mxBits mx * r) 0 + b0.1 * 2 ^ (8 * 126) + b1.1 * 2 ^ (8 * 127)) ∧
        (∀ k, k ≠ 5 → (u.ctx t).fps.getLsbD k = (s.ctx t).fps.getLsbD k) ∧ (∀ k, k ≠ 2 → k ≠ 3 → (u.ctx t).mxs.getLsbD k = (s.ctx t).mxs.getLsbD k) ∧
        (∀ k, k = 2 ∨ k = 3 → ((u.ctx t).mxs.getLsbD k = true ↔ (s.ctx t).mxs.getLsbD k = true ∨ ∃ p ∈ b0.2.2 ++ b1.2.2, p.2.testBit k = true)) ∧
        ((u.ctx t).fps.getLsbD 5 = true ↔ (s.ctx t).fps.getLsbD 5 = true ∨ ∃ p ∈ b0.2.2 ++ b1.2.2, p.1.testBit 5 = true))) ∧
  (∀ mx ftz ties ws, (∃ w ∈ ws, (fmt32.decode w).isNan = true ∨ mx ≠ .e5m2 ∧ (fmt32.decode w).isInf = true) → (mxBlock mx ftz ties ws).1 = 0xFF ∧ ∀ x ∈ (mxBlock mx ftz ties ws).2.1, x = 0) ∧
  (∀ (s : State) t, s.clear t 4 = true → field (s.ctx t).fpm 8 5 = 0 →
      (∀ mx vd va (blk : Bool), Ends (exec (.vdqmx t mx vd va blk) s) (fun u => s.setsLanes u t vd 32 32 false (fun i =>
        mxToF32 (fpmFtz (s.ctx t).fpm) (mxValue mx (fpmFtz (s.ctx t).fpm) (vget (s.vreg t va) 8 (126 + b2n blk)) (vget (s.vreg t va) (mxBits mx) (i + 32 * b2n blk)))))) ∧
      (∀ p vd va vb, Ends (exec (.vsplit t p vd va vb) s) (fun u => s.setsLanes u t vd 16 64 false (fun i =>
        splitPiece (fpmFtz (s.ctx t).fpm) p.val (if i < 32 then vget (s.vreg t va) 32 i else vget (s.vreg t vb) 32 (i - 32))))) ∧
      (∀ e5m2 vd va vb, Ends (exec (.vcvt8 t e5m2 vd va vb) s) (fun u => s.setsLanes u t vd 8 64 false (fun i => toFp8 e5m2 (fpmFtz (s.ctx t).fpm) (fpmSatF8 (s.ctx t).fpm) (fpmRm (s.ctx t).fpm)
        (if i < 32 then vget (s.vreg t va) 32 i else vget (s.vreg t vb) 32 (i - 32))))) ∧
      (∀ (e5m2 : Bool) vd va (upper : Bool), Ends (exec (.vcvtf8 t e5m2 vd va upper) s) (fun u => s.setsLanes u t vd 32 32 false (fun i =>
        (if e5m2 then fmtE5M2 else fmtE4M3).convert fmt32 0 (fpmFtz (s.ctx t).fpm) (vget (s.vreg t va) 8 (i + 32 * b2n upper))))))

/-- A compute thread with no access in flight: where every active element's offset is aligned, within the segment's bound (SEG0
to SEG2) and watched by nothing, a load from near stores writes the active elements from their addresses and nothing else; a
load any of whose elements lies elsewhere waits with no register changed; a store posts its elements' bytes in ascending order
as one posted store and changes no memory until they are performed. The offset of element i is ra plus i times the size, ra plus
i times rb, or ra plus element i of the index vector times the size. Where the first active element is misaligned the
instruction raises ALIGN with its offset and moves nothing. A form that the encoding does not give raises ILLEGAL. (R86, R90,
R136, R158, R159, R160) -/
def Obligations.VectorMemory : Prop :=
  (∀ (s : State) t (m : VMem) size base, size = elemBits m.et / 8 → base = (segGet (s.ctx t).segs m.seg.toNat).base.toNat → s.clear t 4 = true → t.unit < 1024 → s.noReqs t = true → (s.ctx t).sent = 0 → m.seg ≠ 3 →
      ∀ p ∈ ([(.vld t m, .vst t m, m.rb = 0, fun i => s.reg t m.ra + word (i * size)), (.vlds t m, .vsts t m, True, fun i => s.reg t m.ra + word i * s.reg t m.rb),
          (.vgath t m, .vscat t m, 4 ≤ size, fun i => s.reg t m.ra + word (vget (s.vreg t m.rb) 32 i * size))] : List (Instr × Instr × Prop × (Nat → Word))), p.2.2.1 →
      ∀ act, act = (List.range (elemCount m.et)).filter (active m.masked (s.vreg t 0)) → (∀ i ∈ act, (p.2.2.2 i).toNat % size = 0 ∧ (p.2.2.2 i).toNat + size ≤ (segGet (s.ctx t).segs m.seg.toNat).bound.toNat) →
      ((∀ i ∈ act, (s.ctx t).watchpoint (base + (p.2.2.2 i).toNat) size false = none) →
        ((∀ i ∈ act, isNear t (base + (p.2.2.2 i).toNat) = true ∧ s.good (tidHalf t) (base + (p.2.2.2 i).toNat) size = true) → Ends (exec p.1 s) (fun u =>
          s.setsLanes u t m.v (elemBits m.et) (elemCount m.et) m.masked (fun i => (leNat (s.peek (base + (p.2.2.2 i).toNat) size), 0)) ∧ u.tillers = s.tillers)) ∧
        ((∃ i ∈ act, isNear t (base + (p.2.2.2 i).toNat) = false) → Ends (exec p.1 s) (fun u => (u.ctx t).st = .waiting ∧ (u.ctx t).wait = some ⟨.data, p.1⟩ ∧ (u.ctx t).pc = (s.ctx t).pc ∧
          (u.ctx t).v = (s.ctx t).v ∧ (u.ctx t).g = (s.ctx t).g ∧ u.mem = s.mem ∧ u.reqs = s.reqs))) ∧
      ((∀ i ∈ act, (s.ctx t).watchpoint (base + (p.2.2.2 i).toNat) size true = none) → (s.ctx t).twin = false → (∀ i ∈ act, s.creditStep t (base + (p.2.2.2 i).toNat) size = .plain) →
        Ends (exec p.2.1 s) (fun u => (∃ rs, u.reqs = s.reqs ++ rs ∧ (∀ r ∈ rs, r.src = t ∧ r.group = s.nextId ∧ r.resp = none ∧ r.credit = none) ∧
            rs.map (fun r => (r.addr, r.kind)) = act.map (fun i => (word (base + (p.2.2.2 i).toNat), .store (leBytes size (vget (s.vreg t m.v) (elemBits m.et) i))))) ∧
          (u.ctx t).pc = (s.ctx t).pc + 4 ∧ (u.ctx t).v = (s.ctx t).v ∧ (u.ctx t).g = (s.ctx t).g ∧ u.mem = s.mem ∧ u.tillers = s.tillers))) ∧
  (∀ (s : State) t (m : VMem), s.clear t 4 = true →
      (∀ p ∈ ([(.vld t m, m.rb = 0, .unit), (.vst t m, m.rb = 0, .unit), (.vlds t m, True, .stride), (.vsts t m, True, .stride), (.vgath t m, 32 ≤ elemBits m.et, .index),
          (.vscat t m, 32 ≤ elemBits m.et, .index)] : List (Instr × Prop × VAddr)),
        (¬ p.2.1 → ((s.illegal t).ctx t).trapDue = none → exec p.1 s = .next ((s.illegal t).settleDebug t)) ∧
        (p.2.1 → ∀ i off l, s.velems t m p.2.2 = (i, off) :: l → off.toNat % (elemBits m.et / 8) ≠ 0 → ((s.fault t 8 0 off).ctx t).trapDue = none → exec p.1 s = .next ((s.fault t 8 0 off).settleDebug t))))

/-- An MMA whose encoding, ownership and tags pass joins the queue with the thread's FPM and retires, or with TINV waits for D;
a failed check raises TILE_SHAPE with register and reason, and a full engine makes it wait. MMA_ACCEPT takes a thread that waits
for room, MMA_START moves the oldest MMA to a free array, for a gang in every member at once, and MMA_COMPLETE writes D and
nothing else of the tiles: the exact wrapped sum for the integer formats, for the others the passes' result with candidates that
are free (log entry 1); MXS and FPS take the thread's report. The last member's MMA.G enters every member's queue. MMA.G of a
thread in no gang raises GANG. What passes the checks is owned, shaped for its role and does not overlap D. (R168, R169, R171,
R172, R173, R177, R178, R180, R194, R195, R197, R199) -/
def Obligations.MatrixEngine : Prop :=
  (∀ (s : State) t m, s.clearCompute t = true → (∀ x ∈ (s.core t.unit).accepted, x.empties = []) →
      (∀ f, mmaFmt m.fmt.toNat = some f → (s.core t.unit).mmaFault t.ctx m f false = none →
        ((s.core t.unit).accepted.length < 4 → Ends (exec (.mma t m) s) (fun u => (u.core t.unit).mmaQueue = (s.core t.unit).mmaQueue ++ [⟨m, t.ctx, (s.ctx t).fpm, [], false, [], (s.ctx t).step⟩] ∧
          (fpmTinv (s.ctx t).fpm = false → s.retires (u.modCore t.unit (fun x => { x with mmaQueue := (s.core t.unit).mmaQueue })) t 4 ∧ (u.ctx t).g = (s.ctx t).g ∧ (u.ctx t).v = (s.ctx t).v) ∧
          (fpmTinv (s.ctx t).fpm = true → (u.ctx t).st = .waiting ∧ (u.ctx t).wait = some ⟨.mmaDone, .mma t m⟩ ∧ (u.ctx t).pc = (s.ctx t).pc) ∧ (u.core t.unit).tiles = (s.core t.unit).tiles ∧ u.mem = s.mem)) ∧
        (4 ≤ (s.core t.unit).accepted.length → Ends (exec (.mma t m) s) (fun u => ((u.ctx t).st = .waiting ∧ (u.ctx t).wait = some ⟨.mmaRoom, .mma t m⟩ ∨ u = { s with freeCtr := s.freeCtr + 1 }) ∧ (u.ctx t).pc = (s.ctx t).pc ∧
          (u.core t.unit).mmaQueue = (s.core t.unit).mmaQueue))) ∧
      (∀ f r why, mmaFmt m.fmt.toNat = some f → (s.core t.unit).mmaFault t.ctx m f false = some (r, why) → ((s.fault t 0xE (r * 16 + why) 0).ctx t).trapDue = none →
        exec (.mma t m) s = .next ((s.fault t 0xE (r * 16 + why) 0).settleDebug t)) ∧
      (mmaFmt m.fmt.toNat = none → ((s.illegal t).ctx t).trapDue = none → exec (.mma t m) s = .next ((s.illegal t).settleDebug t) ∧ exec (.mmaG t m) s = .next ((s.illegal t).settleDebug t)) ∧
      (mmaFmt m.fmt.toNat ≠ none → (∀ mask, (s.core t.unit).gang ≠ some (mask, t.ctx)) → ((s.fault t 0xF 1 0).ctx t).trapDue = none → exec (.mmaG t m) s = .next ((s.fault t 0xF 1 0).settleDebug t))) ∧
  (∀ (c : Core) k m f, c.mmaFault k m f false = none → (∀ i ∈ m.td.toNat :: (mmaAs m ++ mmaBs m), c.owns k i = true) ∧ m.td.toNat ∉ mmaAs m ++ mmaBs m ∧
      (c.tile m.td.toNat).efmt = f.acc ∧ (c.tile m.td.toNat).rows = (mmaMnk m f).1 ∧ (c.tile m.td.toNat).cols = (mmaMnk m f).2.1 ∧
      (∀ i ∈ mmaAs m, (c.tile i).efmt = f.a ∧ (c.tile i).rows = (mmaMnk m f).1 ∧ (c.tile i).cols = (mmaMnk m f).2.2 ∧ (c.tile i).part = false) ∧
      (∀ i ∈ mmaBs m, (c.tile i).efmt = f.b ∧ (c.tile i).rows = (mmaMnk m f).2.2 ∧ (c.tile i).cols = (mmaMnk m f).2.1 ∧ (c.tile i).part = false)) ∧
  (∀ (s : State) t m f (op : Tid → MmaOp), s.clearCompute t = true → mmaFmt m.fmt.toNat = some f → (∃ mask, (s.core t.unit).gang = some (mask, t.ctx)) → t ∈ s.gangMembers t.unit → op t = m →
      (∀ x ∈ s.gangMembers t.unit, (x ≠ t → s.gangWaits x = some (op x)) ∧ ((op x).td, (op x).ta, (op x).tb, (op x).shape, (op x).fmt) = (m.td, m.ta, m.tb, m.shape, m.fmt) ∧ (s.core x.unit).mmaOpen = true) →
      (∀ p ∈ (s.gangMembers t.unit).zipIdx, (s.core p.1.unit).mmaFault p.1.ctx (op p.1) f ((s.gangMembers t.unit).length = 2 && p.2 = 1) = none) →
      Ends (exec (.mmaG t m) s) (fun u => ∀ x ∈ s.gangMembers t.unit,
        (u.core x.unit).mmaQueue = (s.core x.unit).mmaQueue ++ [⟨op x, x.ctx, (s.ctx x).fpm, (s.gangMembers t.unit).map Tid.unit, false, [], (s.ctx x).step⟩] ∧
        (u.core x.unit).tiles = (s.core x.unit).tiles ∧ (u.ctx x).g = (s.ctx x).g ∧ (fpmTinv (s.ctx x).fpm = false → (u.ctx x).pc = (s.ctx x).pc + 4) ∧ (fpmTinv (s.ctx x).fpm = true → (u.ctx x).st = .waiting))) ∧
  (∀ (s : State) core, core < 1024 → s.up = true → s.coreOpen core = true →
      ((s.core core).mmaOpen = true → (s.core core).roomWaiters ≠ [] → ∃ w ∈ (s.core core).roomWaiters, Ends (exec (.mmaAccept core) s) (fun u =>
        (u.core core).mmaQueue = (s.core core).mmaQueue ++ [⟨w.2.1, w.1, (s.ctx ⟨core, w.1⟩).fpm, [], false, [], (s.ctx ⟨core, w.1⟩).step⟩] ∧
        (u.ctx ⟨core, w.1⟩).pc = (if fpmTinv (s.ctx ⟨core, w.1⟩).fpm then (s.ctx ⟨core, w.1⟩).pc else (s.ctx ⟨core, w.1⟩).pc + 4) ∧ (u.core core).tiles = (s.core core).tiles ∧ u.mem = s.mem ∧
        ∀ c, c ≠ core → u.core c = s.core c)) ∧
      (∀ m q, (s.core core).mmaArray = none → (s.core core).mmaQueue = m :: q → m.gang = [] →
        exec (.mmaStart core) s = .next (s.modCore core (fun c => { c with mmaArray := some m, mmaQueue := q }))) ∧
      (∀ m q, (s.core core).mmaQueue = m :: q → m.gang ≠ [] → m.gang.Nodup → (∀ c ∈ m.gang, (s.core c).startable m.gang = true) → Ends (exec (.mmaStart core) s) (fun u =>
        (∀ c ∈ m.gang, (u.core c).mmaArray = (s.core c).mmaQueue.head? ∧ (u.core c).mmaQueue = (s.core c).mmaQueue.tail ∧ (u.core c).tiles = (s.core c).tiles ∧ (u.core c).ctx = (s.core c).ctx) ∧
        (∀ c, c ∉ m.gang → u.core c = s.core c) ∧ u.mem = s.mem))) ∧
  (∀ (s : State) core sentinel l f (m : Nat → AccMma), core < 1024 → s.up = true → s.clockOn (tillerHalf (core / 16)) = true → l = (if (m core).gang.isEmpty then [core] else (m core).gang) → core ∈ l → l.Nodup →
      (∀ c ∈ l, (s.core c).mmaArray = some (m c) ∧ (m c).dead = false ∧ mmaFmt (m c).op.fmt.toNat = some f ∧ ((s.core c).tile (m c).op.td.toNat).cols = (mmaMnk (m c).op f).2.1 ∧
        ((s.core c).tile (m c).op.td.toNat).efmt = f.acc) → (f.acc = 1 ∨ f.acc = 2) →
      Ends (exec (.mmaComplete core sentinel) s) (fun u => (∀ c, c ∉ l → u.core c = s.core c) ∧ u.mem = s.mem ∧ ∀ c ∈ l, (u.core c).mmaArray = none ∧ (u.core c).mmaQueue = (s.core c).mmaQueue ∧
        (∀ n, n ≠ (m c).op.td.toNat → (u.core c).tile n = (s.core c).tile n) ∧
        ∃ cand o, o = mmaPassesRun (f.acc = 2) (fpmFtz (m c).fpm) (mmaMnk (m c).op f).1 (mmaMnk (m c).op f).2.1 (mmaMnk (m c).op f).2.2 cand (s.mmaPairs c (m c)) 0
            { d := (List.range ((mmaMnk (m c).op f).1 * (mmaMnk (m c).op f).2.1)).map (fun i => ((s.core c).tile (m c).op.td.toNat).elem (i / (mmaMnk (m c).op f).2.1) (i % (mmaMnk (m c).op f).2.1)), checked := false } ∧
          (∀ i, i < (mmaMnk (m c).op f).1 * (mmaMnk (m c).op f).2.1 → ((u.core c).tile (m c).op.td.toNat).elem (i / (mmaMnk (m c).op f).2.1) (i % (mmaMnk (m c).op f).2.1) = o.d.getD i 0 % 2 ^ 32) ∧
          (u.ctx ⟨c, (m c).ctx⟩).mxs = mxsReport (s.ctx ⟨c, (m c).ctx⟩).mxs (m c).op.td.toNat o ∧
          (u.ctx ⟨c, (m c).ctx⟩).fps = (if o.invalidAt.isSome then (s.ctx ⟨c, (m c).ctx⟩).fps ||| 1 else (s.ctx ⟨c, (m c).ctx⟩).fps) ∧
          (u.core c).teSent = (if sentinel ∧ c = core ∧ o.checked then satAdd 32 (s.core c).teSent 1 else (s.core c).teSent) ∧
          (f.acc = 2 → (m c).gang = [] → ∀ i, i < (mmaMnk (m c).op f).1 * (mmaMnk (m c).op f).2.1 → o.d.getD i 0 =
            wrap 32 ((((s.core c).tile (m c).op.td.toNat).elem (i / (mmaMnk (m c).op f).2.1) (i % (mmaMnk (m c).op f).2.1) : Int) + ((List.range (mmaMnk (m c).op f).2.2).map (fun k =>
              tileInt ((s.core c).tile (m c).op.ta.toNat).efmt (((s.core c).tile (m c).op.ta.toNat).elem (i / (mmaMnk (m c).op f).2.1) k) *
              tileInt ((s.core c).tile (m c).op.tb.toNat).efmt (((s.core c).tile (m c).op.tb.toNat).elem k (i % (mmaMnk (m c).op f).2.1)))).foldl (· + ·) 0))))

/-- On a tile that the thread owns and no accepted MMA holds back: TZERO gives a zeroed tile of a valid layout, TCAST a new tag
over the same data, TRDV copies a row to a vector register, TWRV a vector register to a row, TLD loads the rows of a layout from
near stores and sets the tag, TLDX the scales of an MX tile, TST and TSTX store them to the core's own stores, a row elsewhere
being posted. TSYNC retires when no MMA of the thread is left; an access to a tile that an accepted MMA writes changes nothing
of the tiles and does not retire. A gang forms when its last core joins and UNGANG dissolves it. A tile of another thread raises
TILE_SHAPE with reason 1 and an invalid layout reason 8. (R165, R166, R169, R170, R172, R174, R176, R178) -/
def Obligations.TileData : Prop :=
  (∀ (s : State) t (n : TReg) rt, s.clearCompute t = true → rt = (s.core t.unit).tile n.toNat → (s.core t.unit).owns t.ctx n.toNat = true → (∀ x ∈ (s.core t.unit).accepted, n.toNat ∉ x.empties) →
      ((s.core t.unit).tileBusy n.toNat true = false →
        (∀ rb r c e, layoutOf (s.reg t rb) = some (r, c, e) →
          Ends (exec (.tzero t n rb) s) (fun u => s.retires (u.modCore t.unit (fun x => { x with tiles := (s.core t.unit).tiles })) t 4 ∧ (u.ctx t).g = (s.ctx t).g ∧ (u.ctx t).v = (s.ctx t).v ∧
            (∀ k, k ≠ n.toNat → (u.core t.unit).tile k = (s.core t.unit).tile k) ∧
            (u.core t.unit).tile n.toNat = { data := [], scale := if efmtMx e then [] else rt.scale, rows := r, cols := c, efmt := e, part := false, hasScale := efmtMx e, nextRow := 0 }) ∧
          (rt.isEmpty = false → rt.part = false → Ends (exec (.tcast t n rb) s) (fun u => s.retires (u.modCore t.unit (fun x => { x with tiles := (s.core t.unit).tiles })) t 4 ∧ (u.ctx t).g = (s.ctx t).g ∧
            (u.ctx t).v = (s.ctx t).v ∧ (∀ k, k ≠ n.toNat → (u.core t.unit).tile k = (s.core t.unit).tile k) ∧
            (u.core t.unit).tile n.toNat = { data := rt.data, scale := rt.scale, rows := r, cols := c, efmt := e, part := false, hasScale := rt.hasScale && efmtMx rt.efmt && efmtMx e, nextRow := 0 }))) ∧
        (∀ rb, layoutOf (s.reg t rb) = none → ((s.fault t 0xE (n.toNat * 16 + 8) 0).ctx t).trapDue = none → exec (.tzero t n rb) s = .next ((s.fault t 0xE (n.toNat * 16 + 8) 0).settleDebug t)) ∧
        (∀ ra v, rt.isEmpty = false → rt.part = false → (s.reg t ra).toNat < rt.rows → Ends (exec (.twrv t n ra v) s) (fun u =>
          s.retires (u.modCore t.unit (fun x => { x with tiles := (s.core t.unit).tiles })) t 4 ∧ (u.ctx t).g = (s.ctx t).g ∧ (u.ctx t).v = (s.ctx t).v ∧
          (∀ k, k ≠ n.toNat → (u.core t.unit).tile k = (s.core t.unit).tile k) ∧ { (u.core t.unit).tile n.toNat with data := rt.data } = rt ∧
          ∀ i, sget 0 ((u.core t.unit).tile n.toNat).data i = if (s.reg t ra).toNat * rt.rowBytes ≤ i ∧ i < (s.reg t ra).toNat * rt.rowBytes + rt.rowBytes
            then BitVec.ofNat 8 ((s.vreg t v).toNat / 2 ^ (8 * (i - (s.reg t ra).toNat * rt.rowBytes))) else sget 0 rt.data i)) ∧
        (∀ (seg : BitVec 2) ra rb r c e nb base stride, layoutOf (word ((s.reg t rb).toNat % 2 ^ 32)) = some (r, c, e) → nb = c * efmtBits e / 8 → stride = (s.reg t rb).toNat / 2 ^ 32 → seg ≠ 3 → s.noReqs t = true →
          (s.ctx t).prog = 0 → base = (segGet (s.ctx t).segs seg.toNat).base.toNat → (s.reg t ra).toNat % 8 = 0 → stride % 8 = 0 →
          (∀ k, k < r → (s.reg t ra + word (k * stride)).toNat + nb ≤ (segGet (s.ctx t).segs seg.toNat).bound.toNat ∧
            (s.ctx t).watchpoint (base + (s.reg t ra + word (k * stride)).toNat) nb false = none) →
          ((∀ k, k < r → isNear t (base + (s.reg t ra + word (k * stride)).toNat) = true ∧ s.good (tidHalf t) (base + (s.reg t ra + word (k * stride)).toNat) nb = true) →
            Ends (exec (.tld t n seg ra rb) s) (fun u => s.retires (u.modCore t.unit (fun x => { x with tiles := (s.core t.unit).tiles })) t 4 ∧ (u.ctx t).g = (s.ctx t).g ∧ (u.ctx t).v = (s.ctx t).v ∧
              (∀ k, k ≠ n.toNat → (u.core t.unit).tile k = (s.core t.unit).tile k) ∧
              { (u.core t.unit).tile n.toNat with data := [] } = { data := [], scale := rt.scale, rows := r, cols := c, efmt := e, part := false, hasScale := false, nextRow := 0 } ∧
              ∀ k, k < r → bytesFrom ((u.core t.unit).tile n.toNat).data (k * nb) nb = s.peek (base + (s.reg t ra + word (k * stride)).toNat) nb)) ∧
          (isNear t (base + (s.reg t ra).toNat) = false → Ends (exec (.tld t n seg ra rb) s) (fun u => (u.ctx t).st = .waiting ∧ (u.ctx t).wait = some ⟨.data, .tld t n seg ra rb⟩ ∧ (u.ctx t).pc = (s.ctx t).pc ∧
            (u.core t.unit).tiles = (s.core t.unit).tiles ∧ u.mem = s.mem))) ∧
        (∀ seg ra a, rt.isEmpty = false → rt.part = false → efmtMx rt.efmt = true → s.noReqs t = true → s.access t seg.toNat (s.reg t ra) rt.scaleBytes 1 false = .go (.at' a false) s → isNear t a = true →
          s.good (tidHalf t) a rt.scaleBytes = true → Ends (exec (.tldx t n seg ra) s) (fun u => s.retires (u.modCore t.unit (fun x => { x with tiles := (s.core t.unit).tiles })) t 4 ∧ (u.ctx t).g = (s.ctx t).g ∧
            (u.ctx t).v = (s.ctx t).v ∧ (∀ k, k ≠ n.toNat → (u.core t.unit).tile k = (s.core t.unit).tile k) ∧ { (u.core t.unit).tile n.toNat with scale := rt.scale } = { rt with hasScale := true } ∧
            bytesFrom ((u.core t.unit).tile n.toNat).scale 0 rt.scaleBytes = s.peek a rt.scaleBytes))) ∧
      ((s.core t.unit).tileBusy n.toNat false = false → rt.isEmpty = false → rt.part = false →
        (∀ ra v, (s.reg t ra).toNat < rt.rows → Ends (exec (.trdv t n ra v) s) (fun u => s.setsVreg u t v (BitVec.ofNat 1024 (leNat (bytesFrom rt.data ((s.reg t ra).toNat * rt.rowBytes) rt.rowBytes))))) ∧
        (∀ (seg : BitVec 2) ra rb base stride ad, stride = (s.reg t rb).toNat / 2 ^ 32 → seg ≠ 3 → s.noReqs t = true → (s.ctx t).twin = false → (s.ctx t).prog = 0 →
          base = (segGet (s.ctx t).segs seg.toNat).base.toNat → (s.reg t ra).toNat % 8 = 0 → stride % 8 = 0 → ad = (fun k : Nat => base + (s.reg t ra + word (k * stride)).toNat) → 0 < rt.rows →
          (∀ k, k < rt.rows → (s.reg t ra + word (k * stride)).toNat + rt.rowBytes ≤ (segGet (s.ctx t).segs seg.toNat).bound.toNat ∧ (s.ctx t).watchpoint (ad k) rt.rowBytes true = none) →
          ((∀ k, k < rt.rows → isOwn t (ad k) = true ∧ s.good (tidHalf t) (ad k) rt.rowBytes = true) → Ends (exec (.tst t n seg ra rb) s) (fun u => (u.ctx t).pc = (s.ctx t).pc + 4 ∧ (u.ctx t).prog = 0 ∧
            (u.ctx t).g = (s.ctx t).g ∧ (u.ctx t).v = (s.ctx t).v ∧ (u.core t.unit).tiles = (s.core t.unit).tiles ∧ u.reqs = s.reqs ∧
            (∀ k j, k < rt.rows → j < rt.rowBytes → (∀ k' j', k' < rt.rows → j' < rt.rowBytes → k < k' ∨ k = k' ∧ j < j' → s.cellOf (ad k' + j') ≠ s.cellOf (ad k + j)) →
              u.byteAt (ad k + j) = sget 0 rt.data (k * rt.rowBytes + j)) ∧
            (∀ b, (∀ k j, k < rt.rows → j < rt.rowBytes → s.cellOf b ≠ s.cellOf (ad k + j)) → u.byteAt b = s.byteAt b))) ∧
          (rt.rows ≤ 16 → (∀ k, k < rt.rows → isOwn t (ad k) = false ∧ s.creditStep t (ad k) rt.rowBytes = .plain) → Ends (exec (.tst t n seg ra rb) s) (fun u => (u.ctx t).pc = (s.ctx t).pc + 4 ∧
            (u.ctx t).g = (s.ctx t).g ∧ (u.core t.unit).tiles = (s.core t.unit).tiles ∧ u.mem = s.mem ∧ ∃ rs, u.reqs = s.reqs ++ rs ∧ (∀ q ∈ rs, q.src = t) ∧
            rs.map (fun q => (q.addr, q.kind)) = (List.range rt.rows).map (fun k => (word (ad k), .store (bytesFrom rt.data (k * rt.rowBytes) rt.rowBytes)))))) ∧
        (∀ seg ra a, rt.hasScale = true → s.noReqs t = true → (s.ctx t).twin = false → s.access t seg.toNat (s.reg t ra) rt.scaleBytes 1 true = .go (.at' a false) s → isOwn t a = true →
          s.good (tidHalf t) a rt.scaleBytes = true → (∀ i j, i < j → j < rt.scaleBytes → s.cellOf (a + i) ≠ s.cellOf (a + j)) → Ends (exec (.tstx t n seg ra) s) (fun u =>
            s.stores u a (bytesFrom rt.scale 0 rt.scaleBytes) ∧ (u.ctx t).pc = (s.ctx t).pc + 4 ∧ (u.ctx t).g = (s.ctx t).g ∧ (u.ctx t).v = (s.ctx t).v ∧ (u.core t.unit).tiles = (s.core t.unit).tiles))) ∧
      ((s.core t.unit).accepted.any (fun x => x.op.td = n) = true → rt.isEmpty = false → rt.part = false → ∀ ra v, (s.reg t ra).toNat < rt.rows → ∀ c ∈ [Instr.trdv t n ra v, Instr.twrv t n ra v], Ends (exec c s) (fun u =>
        (u.ctx t).pc = (s.ctx t).pc ∧ (u.ctx t).v = (s.ctx t).v ∧ (u.core t.unit).tiles = (s.core t.unit).tiles))) ∧
  (∀ (s : State) t (n : TReg), s.clearCompute t = true → (s.core t.unit).owns t.ctx n.toNat = false → ((s.fault t 0xE (n.toNat * 16 + 1) 0).ctx t).trapDue = none → ∀ seg ra rb v,
      ∀ c ∈ [Instr.tld t n seg ra rb, Instr.tst t n seg ra rb, Instr.tldx t n seg ra, Instr.tstx t n seg ra, Instr.tzero t n rb, Instr.tcast t n rb, Instr.trdv t n ra v, Instr.twrv t n ra v],
        exec c s = .next ((s.fault t 0xE (n.toNat * 16 + 1) 0).settleDebug t)) ∧
  (∀ (s : State) t, s.clearCompute t = true →
      ((s.core t.unit).mmasOf t.ctx = [] → Ends (exec (.tsync t) s) (fun u => s.retires u t 4 ∧ (u.ctx t).g = (s.ctx t).g ∧ (u.ctx t).v = (s.ctx t).v)) ∧
      ((s.core t.unit).mmasOf t.ctx ≠ [] → Ends (exec (.tsync t) s) (fun u => (u.ctx t).pc = (s.ctx t).pc ∧ ((u.ctx t).st = .waiting ∧ (u.ctx t).wait = some ⟨.mmaDone, .tsync t⟩ ∨ u = { s with freeCtr := s.freeCtr + 1 }))) ∧
      (∀ ra, (s.reg t ra).toNat ∈ [3, 5, 6, 9, 10, 12, 15] → (s.reg t ra).toNat.testBit (t.unit % 4) = true → (s.core t.unit).gangWaiter (s.reg t ra).toNat = none →
        (∀ i, i < 4 → (s.reg t ra).toNat.testBit i = true → (s.core (t.unit / 4 * 4 + i)).gang = none ∧ (i ≠ t.unit % 4 → ∃ k, (s.core (t.unit / 4 * 4 + i)).gangWaiter (s.reg t ra).toNat = some k)) →
        Ends (exec (.gang t ra) s) (fun u => (u.core t.unit).gang = some ((s.reg t ra).toNat, t.ctx) ∧ (u.ctx t).pc = (s.ctx t).pc + 4 ∧ (∀ r, u.reg t r = s.reg t r) ∧
          ∀ i k, i < 4 → i ≠ t.unit % 4 → (s.reg t ra).toNat.testBit i = true → (s.core (t.unit / 4 * 4 + i)).gangWaiter (s.reg t ra).toNat = some k →
            (u.core (t.unit / 4 * 4 + i)).gang = some ((s.reg t ra).toNat, k) ∧ (u.ctx ⟨t.unit / 4 * 4 + i, k⟩).pc = (s.ctx ⟨t.unit / 4 * 4 + i, k⟩).pc + 4)) ∧
      (∀ ra, (s.reg t ra).toNat ∉ [3, 5, 6, 9, 10, 12, 15] → ((s.fault t 0xF 4 0).ctx t).trapDue = none → exec (.gang t ra) s = .next ((s.fault t 0xF 4 0).settleDebug t)) ∧
      ((∀ i mask, i < 4 → (s.core (t.unit / 4 * 4 + i)).gangWaiter mask = none) → Ends (exec (.ungang t) s) (fun u => (u.ctx t).pc = (s.ctx t).pc + 4 ∧ (u.ctx t).g = (s.ctx t).g ∧ (u.ctx t).v = (s.ctx t).v ∧
        ∀ x ∈ s.gangMembers t.unit, (s.core t.unit).gang = some (((s.core t.unit).gang.getD (0, 0)).1, t.ctx) → (u.core x.unit).gang = none)))

/-- An AOW whose access passes is sent as a posted write with its operation and operand, with a credit of the slot that covers
its address where that slot has one, and memory is unchanged until a bank performs it; without a credit it waits, asking for
more where nothing is asked, and a failing credit step raises CREDIT. Performing a write in flight (an AOW at its bank, a
credited store at its store, an HBM write at its controller) that is the first of its thread to that destination changes exactly
its bytes and answers it OK; an AOW writes the operation of the word and its operand, and counts a floating one's events. An AOW
outside the four on-die stores and a write whose credit does not match its inbox are answered DENIED with memory unchanged; with
AUTO a credit comes back. (R86, R217, R219, R220, R222, R223, R229, R230) -/
def Obligations.AccumulationAndCreditedWrites : Prop :=
  (∀ (s : State) t op rs ra (seg : BitVec 2) (disp : BitVec 9) a, s.clearCompute t = true → s.access t seg.toNat (s.reg t ra + disp.signExtend 64 * 8) 8 8 true = .go (.at' a false) s → (s.ctx t).twin = false →
      (s.postedCount t < 16 →
        (∀ cr, (s.creditStep t a 8 = .plain ∧ cr = none ∨ ∃ k, s.creditStep t a 8 = .held k ∧ cr = some (((s.ctx t).slot k).tiller * 64 + ((s.ctx t).slot k).inbox, ((s.ctx t).slot k).gen)) →
          Ends (exec (.aow t op rs ra seg disp) s) (fun u => (∃ r, u.reqs = s.reqs ++ [r] ∧ r.kind = .aow op (s.reg t rs) ∧ r.addr = word a ∧ r.src = t ∧ r.resp = none ∧ r.credit = cr) ∧
            (∀ k, ((u.ctx t).slot k).held = if s.creditStep t a 8 = .held k then ((s.ctx t).slot k).held - 1 else ((s.ctx t).slot k).held) ∧
            (u.ctx t).pc = (s.ctx t).pc + 4 ∧ (u.ctx t).g = (s.ctx t).g ∧ (u.ctx t).v = (s.ctx t).v ∧ u.mem = s.mem ∧ u.tillers = s.tillers)) ∧
        (∀ k ask, s.creditStep t a 8 = .wait k ask → Ends (exec (.aow t op rs ra seg disp) s) (fun u => (u.ctx t).st = .waiting ∧ (u.ctx t).wait = some ⟨.credit k (word a), .aow t op rs ra seg disp⟩ ∧ (u.ctx t).pc = (s.ctx t).pc ∧
          u.reqs = s.reqs ∧ u.mem = s.mem ∧ (ask = true → ((u.ctx t).slot k).pending = true ∧ ∃ m, u.creditMsgs = s.creditMsgs ++ [m] ∧ m.t = t ∧ m.slot = k ∧ m.body = .request ((s.ctx t).slot k).n))) ∧
        (∀ d, s.creditStep t a 8 = .exc d → ((s.fault t 0x12 d (word a)).ctx t).trapDue = none → exec (.aow t op rs ra seg disp) s = .next ((s.fault t 0x12 d (word a)).settleDebug t))) ∧
      (16 ≤ s.postedCount t → Ends (exec (.aow t op rs ra seg disp) s) (fun u => (u.ctx t).st = .waiting ∧ (u.ctx t).wait = some ⟨.postedRoom, .aow t op rs ra seg disp⟩ ∧ u.reqs = s.reqs ∧ u.mem = s.mem))) ∧
  (∀ (s : State) t a n, (inboxTiller a = none → s.creditStep t a n = .plain) ∧ (∀ T, inboxTiller a = some (T, some t.unit) → s.creditStep t a n = .plain) ∧
      (∀ T own, inboxTiller a = some (T, own) → own ≠ some t.unit → (∀ k, k < 4 → ((s.ctx t).slot k).valid = false) → s.creditStep t a n = if own.isSome then .exc 3 else .plain)) ∧
  (∀ (s : State) (r : Req) a h src, s.up = true → s.reqs.find? (fun q => q.id = r.id) = some r → s.reqsUpTo r = [r] → r.resp = none → r.session = none → a = r.addr.toNat → isCtl a = false → h = tidHalf r.src →
      src = (if r.src.unit < 1024 then some r.src.unit else none) → s.routeErr h a = none →
      ∀ c, c = .aowBankPerform r.id ∨ c = .creditedWriteArrive r.id ∨ c = .hbmWrite r.id ∧ (∃ o, locOf a = .hbm o) →
      (∀ op x, r.kind = .aow op x → (s.needsCredit src a 8 = false) →
        (inStore a = true → s.unitBad a = false → (∀ i j, i < j → j < 8 → s.cellOf (a + i) ≠ s.cellOf (a + j)) → Ends (exec c s) (fun u => s.stores u a (leBytes 8 (aowOp op (leNat (s.peek a 8)) x.toNat).1) ∧
          u.reqs = s.reqs.map (fun (q : Req) => if q.id = r.id then { q with resp := some (0, r.addr) } else q) ∧ u.cores = s.cores ∧
          ∀ T, (s.destNode a).bind nodeTiller = some T → (u.tiller T).aowInv = satAdd 32 (s.tiller T).aowInv (if (aowOp op (leNat (s.peek a 8)) x.toNat).2 &&& 1 = 0 then 0 else 1) ∧
            (u.tiller T).aowOvf = satAdd 31 (s.tiller T).aowOvf (if (aowOp op (leNat (s.peek a 8)) x.toNat).2 &&& 4 = 0 then 0 else 1))) ∧
        (inStore a = false → exec c s = .next ({ s with reqs := s.reqs.map (fun (q : Req) => if q.id = r.id then { q with resp := some (4, r.addr) } else q) } : State))) ∧
      (∀ d, r.kind = .store d → d ≠ [] → s.good h a d.length = true → (∀ i, i < d.length → s.unitBad (a + i) = false) → (∀ i j, i < j → j < d.length → s.cellOf (a + i) ≠ s.cellOf (a + j)) →
        (s.needsCredit src a d.length = false → Ends (exec c s) (fun u => s.stores u a d ∧ u.reqs = s.reqs.map (fun (q : Req) => if q.id = r.id then { q with resp := some (0, r.addr) } else q) ∧ u.cores = s.cores)) ∧
        (∀ T i own, s.needsCredit src a d.length = true → inboxTiller a = some (T, own) →
          (s.inboxesOver T a d.length).find? (fun i => ((s.inbox T i).range T).1 ≤ a && a + d.length ≤ ((s.inbox T i).range T).2) = some i → r.credit.map Prod.snd = some (s.inbox T i).gen → (s.inbox T i).waiters = [] →
          Ends (exec c s) (fun u => s.stores u a d ∧ u.reqs = s.reqs.map (fun (q : Req) => if q.id = r.id then { q with resp := some (0, r.addr) } else q) ∧
            (u.inbox T i).avail = if (s.inbox T i).auto then min ((s.inbox T i).avail + 1) 65535 else (s.inbox T i).avail)) ∧
        (s.needsCredit src a d.length = true → (∀ T i, i ∈ s.inboxesOver T a d.length → r.credit.map Prod.snd ≠ some (s.inbox T i).gen) →
          exec c s = .next ({ s with reqs := s.reqs.map (fun (q : Req) => if q.id = r.id then { q with resp := some (4, r.addr) } else q) } : State)))) ∧
  (∀ w x, aowOp .add64 w x = ((w + x) % 2 ^ 64, 0) ∧ aowOp .max64 w x = (if (word w).toInt < (word x).toInt then x else w, 0) ∧ aowOp .min64 w x = (if (word x).toInt < (word w).toInt then x else w, 0))

/-- CRQ takes the slot that names the inbox or the lowest free one, marks it PENDING with its count, sends the request and
answers the slot number, or -1 and sends nothing; CRRET and CRREL give credits back to AVAIL, at most 65,535; CRSTAT answers
HELD or -1. A request that reaches an inbox with credits is granted the smaller of its count and AVAIL; without credits it joins
the list and is told the range; at an inbox that is not declared it is answered DENIED. A grant to a slot that still asks adds
to HELD, the credits of another generation being dropped, and clears PENDING; an error frees a slot without credits. Level 1
sets AVAIL. A bad handle and a count of 0 raise CREDIT in that order; CRRET also checks the inbox and its owner. (R223, R224,
R226, R227, R228, R230, R232) -/
def Obligations.CreditsMoveBetweenSlotsAndInboxes : Prop :=
  (∀ (s : State) t (ra rd : Reg) T i, s.clearCompute t = true → inboxHandle (s.reg t ra) = some (T, i) →
      (∀ (n : BitVec 11), n ≠ 0 →
        (∀ k, (s.ctx t).slotOf T i = some k ∨ (s.ctx t).slotOf T i = none ∧ k < 4 ∧ ((s.ctx t).slot k).valid = false ∧ (∀ j, j < k → ((s.ctx t).slot j).valid = true) → Ends (exec (.crq t rd ra n) s) (fun u =>
          (u.ctx t).slot k = { (s.ctx t).slot k with valid := true, tiller := T, inbox := i, pending := true, n := n.toNat } ∧ (∀ j, j ≠ k → (u.ctx t).slot j = (s.ctx t).slot j) ∧
          u.creditMsgs = s.creditMsgs ++ [{ t := t, slot := k, seq := ((s.ctx t).slot k).seq, inbox := i, tiller := T, body := .request n.toNat }] ∧
          (u.ctx t).pc = (s.ctx t).pc + 4 ∧ (rd ≠ 0 → u.reg t rd = word k) ∧ (∀ r, r ≠ rd → u.reg t r = s.reg t r) ∧ u.mem = s.mem ∧ u.reqs = s.reqs ∧ u.tillers = s.tillers)) ∧
        ((s.ctx t).slotOf T i = none → (∀ k, k < 4 → ((s.ctx t).slot k).valid = true) → Ends (exec (.crq t rd ra n) s) (fun u => s.setsReg u t 4 rd (-1))) ∧
        (T = tidTiller t → (s.inbox T i).valid = true → (s.inbox T i).core = t.unit % 16 → (s.inbox T i).waiters = [] → Ends (exec (.crret t ra n) s) (fun u =>
          u.inbox T i = { s.inbox T i with avail := min ((s.inbox T i).avail + n.toNat) 65535, overrun := (s.inbox T i).overrun || decide (65535 < (s.inbox T i).avail + n.toNat) } ∧
          (∀ T' j, (T', j) ≠ (T, i) → u.inbox T' j = s.inbox T' j) ∧ (u.ctx t).pc = (s.ctx t).pc + 4 ∧ (u.ctx t).g = (s.ctx t).g ∧ u.mem = s.mem)) ∧
        (T ≠ tidTiller t → ((s.fault t 0x12 5 (s.reg t ra)).ctx t).trapDue = none → exec (.crret t ra n) s = .next ((s.fault t 0x12 5 (s.reg t ra)).settleDebug t)) ∧
        (T = tidTiller t → (s.inbox T i).valid = false → ((s.fault t 0x12 2 (s.reg t ra)).ctx t).trapDue = none → exec (.crret t ra n) s = .next ((s.fault t 0x12 2 (s.reg t ra)).settleDebug t))) ∧
      (((s.fault t 0x12 6 (s.reg t ra)).ctx t).trapDue = none → exec (.crq t rd ra 0) s = .next ((s.fault t 0x12 6 (s.reg t ra)).settleDebug t) ∧ exec (.crret t ra 0) s = .next ((s.fault t 0x12 6 (s.reg t ra)).settleDebug t)) ∧
      (∀ k, (s.ctx t).slotOf T i = some k → Ends (exec (.crstat t rd ra) s) (fun u => s.setsReg u t 4 rd (word ((s.ctx t).slot k).held)) ∧
        ((s.inbox T i).valid = true → ((s.ctx t).slot k).gen = (s.inbox T i).gen → (s.inbox T i).waiters = [] → Ends (exec (.crrel t ra) s) (fun u =>
          (u.ctx t).slot k = { seq := ((s.ctx t).slot k).seq + 1 } ∧ (∀ j, j ≠ k → (u.ctx t).slot j = (s.ctx t).slot j) ∧ (u.inbox T i).avail = (if ((s.ctx t).slot k).held = 0 then (s.inbox T i).avail else min ((s.inbox T i).avail + ((s.ctx t).slot k).held) 65535) ∧
          (u.ctx t).pc = (s.ctx t).pc + 4 ∧ (u.ctx t).g = (s.ctx t).g ∧ u.mem = s.mem)) ∧
        ((s.inbox T i).valid = false ∨ ((s.ctx t).slot k).gen ≠ (s.inbox T i).gen → Ends (exec (.crrel t ra) s) (fun u =>
          (u.ctx t).slot k = { seq := ((s.ctx t).slot k).seq + 1 } ∧ u.tillers = s.tillers ∧ (u.ctx t).pc = (s.ctx t).pc + 4 ∧ (u.ctx t).g = (s.ctx t).g))) ∧
      ((s.ctx t).slotOf T i = none → Ends (exec (.crstat t rd ra) s) (fun u => s.setsReg u t 4 rd (-1)) ∧ Ends (exec (.crrel t ra) s) (fun u => s.retires u t 4 ∧ (u.ctx t).g = (s.ctx t).g ∧ (u.ctx t).v = (s.ctx t).v))) ∧
  (∀ (s : State) t (ra rd : Reg) n, s.clearCompute t = true → 2 ^ 12 ≤ (s.reg t ra).toNat → ((s.fault t 0x12 1 (s.reg t ra)).ctx t).trapDue = none →
      ∀ c ∈ [Instr.crq t rd ra n, .crret t ra n, .crrel t ra, .crstat t rd ra], exec c s = .next ((s.fault t 0x12 1 (s.reg t ra)).settleDebug t)) ∧
  (∀ (s : State) t (k : BitVec 2) m n, tidOk t = true → s.up = true → s.creditMsgs.find? (fun m => m.t = t && m.slot = k.toNat && m.body.isRequest) = some m → m.body = .request n → s.routeErr (tidHalf t) (tmAddr m.tiller 0) = none →
      ((s.inbox m.tiller m.inbox).valid = true → (s.inbox m.tiller m.inbox).avail ≠ 0 → Ends (exec (.inboxCreditRequest t k) s) (fun u =>
        u.inbox m.tiller m.inbox = { s.inbox m.tiller m.inbox with avail := (s.inbox m.tiller m.inbox).avail - min n (s.inbox m.tiller m.inbox).avail } ∧
        u.creditMsgs = s.creditMsgs.erase m ++ [{ m with body := .grant (min n (s.inbox m.tiller m.inbox).avail) (s.inbox m.tiller m.inbox).gen (some ((s.inbox m.tiller m.inbox).range m.tiller)) }] ∧ u.cores = s.cores ∧ u.mem = s.mem)) ∧
      ((s.inbox m.tiller m.inbox).valid = true → (s.inbox m.tiller m.inbox).avail = 0 → Ends (exec (.inboxCreditRequest t k) s) (fun u =>
        u.inbox m.tiller m.inbox = { s.inbox m.tiller m.inbox with waiters := (s.inbox m.tiller m.inbox).waiters ++ [(.slot t k.toNat m.seq, n)] } ∧
        u.creditMsgs = s.creditMsgs.erase m ++ [{ m with body := .notice ((s.inbox m.tiller m.inbox).range m.tiller) }] ∧ u.cores = s.cores ∧ u.mem = s.mem)) ∧
      ((s.inbox m.tiller m.inbox).valid = false → exec (.inboxCreditRequest t k) s = .next ({ s with creditMsgs := s.creditMsgs.erase m ++ [{ m with body := .error 4 }] } : State))) ∧
  (∀ (s : State) t (k : BitVec 2) m, tidOk t = true → t.unit < 1024 → s.up = true → s.creditMsgs.find? (fun m => m.t = t && m.slot = k.toNat && !m.body.isRequest) = some m → ((s.ctx t).slot k.toNat).valid = true → ((s.ctx t).slot k.toNat).seq = m.seq →
      (∀ n gen r, m.body = .grant n gen r → Ends (exec (.inboxCreditGrant t k) s) (fun u => ((u.ctx t).slot k.toNat).pending = false ∧ ((u.ctx t).slot k.toNat).gen = gen ∧
        ((u.ctx t).slot k.toNat).held = satAdd 16 (if ((s.ctx t).slot k.toNat).gen = gen then ((s.ctx t).slot k.toNat).held else 0) n ∧ u.creditMsgs = s.creditMsgs.erase m ∧
        (∀ a i, (s.ctx t).wait = some ⟨.credit k.toNat a, i⟩ → (u.ctx t).wait = none ∧ ((u.ctx t).st = .ready ∨ (u.ctx t).st = .running)) ∧ (u.ctx t).g = (s.ctx t).g ∧ (u.ctx t).pc = (s.ctx t).pc ∧ u.mem = s.mem)) ∧
      (∀ d, m.body = .error d → (s.ctx t).wait = none → Ends (exec (.inboxCreditGrant t k) s) (fun u => (u.ctx t).slot k.toNat = (if ((s.ctx t).slot k.toNat).held = 0 ∧ d = 4 then { seq := m.seq + 1 } else { (s.ctx t).slot k.toNat with pending := false }) ∧
        (u.ctx t).g = (s.ctx t).g ∧ (u.ctx t).pc = (s.ctx t).pc ∧ u.mem = s.mem))) ∧
  (∀ (s : State) T i (w : Word), T < 64 → i < 64 → s.reachable (tillerNode T) = true → (s.inbox T i).waiters = [] → Ends (exec (.crgAvailWrite T i w) s) (fun u =>
      u.inbox T i = { s.inbox T i with avail := w.toNat / 2 ^ 40 % 2 ^ 16, overrun := (s.inbox T i).overrun && !w.getLsbD 63 } ∧ (∀ T' j, (T', j) ≠ (T, i) → u.inbox T' j = s.inbox T' j) ∧ u.cores = s.cores ∧ u.mem = s.mem))

/-- DMSTART and DMARM on a descriptor in near stores that passes the checks put the channel to work on it, or arm it, with the
segments of a level-2 thread captured; the first check that fails raises DMA_ISSUE with its DETAIL, a descriptor elsewhere makes
the thread wait, and neither changes a register or memory. DMSTAT reads DCH. DMEN and a register write with EN = 0 disable a
channel: ERR reads 0x0A, no chain goes on, no credit is kept, and it drains while a burst is outstanding; 1 enables it unless it
drains. A register write starts a SUPERVISOR channel in the same way, and a failing check only sets ERR. The reclaim of a
draining channel's tags removes exactly its tags. (R239, R240, R241, R242, R243, R244, R249, R255) -/
def Obligations.DmaCommands : Prop :=
  (∀ (s : State) t ra rb c a g, s.clearCompute t = true → (s.ctx t).twin = false → chSelect t (s.reg t rb) = some c → a = (s.reg t ra).toNat → g = (if (s.ctx t).level = 2 then some (s.ctx t).segs else none) →
      (isNear t a = true → s.good (tidHalf t) a 64 = true → s.noReqs t = true →
        (s.chMine t c = true → (s.chan c).st = .idle → (s.chan c).en = true → a % 64 = 0 → s.descCheck c g a (descOf (s.peek a 64)) = none →
          (∀ x, x = { s.chan c with st := .running, err := 0, descs := 0, addr := a, captured := g, step := none, serial := (s.chan c).serial + 1, nextDesc := if (descOf (s.peek a 64)).chain then some (descOf (s.peek a 64)).next else none, runs := [{ serial := (s.chan c).serial, desc := descOf (s.peek a 64) }] } →
            (s.chan c).runs = [] → (∀ r ∈ x.runs, ∀ us, r.units = some us → 0 < r.desc.halfUnits us) →
            Ends (exec (.dmstart t ra rb) s) (fun u => u.chan c = x ∧ (∀ c', chOk c' = true → c' ≠ c → u.chan c' = s.chan c') ∧ (u.ctx t).pc = (s.ctx t).pc + 4 ∧ (u.ctx t).g = (s.ctx t).g ∧ (u.ctx t).v = (s.ctx t).v ∧ u.mem = s.mem)) ∧
          Ends (exec (.dmarm t ra rb) s) (fun u => u.chan c = { s.chan c with st := .armed, addr := a, captured := g } ∧ (∀ c', chOk c' = true → c' ≠ c → u.chan c' = s.chan c') ∧ (u.ctx t).pc = (s.ctx t).pc + 4 ∧
            (u.ctx t).g = (s.ctx t).g ∧ (u.ctx t).v = (s.ctx t).v ∧ u.mem = s.mem)) ∧
        (∀ i ∈ [Instr.dmstart t ra rb, .dmarm t ra rb], ∀ k, ((s.fault t 0x13 k (s.reg t ra)).ctx t).trapDue = none →
          (s.chMine t c = false ∧ k = 2 ∨ s.chMine t c = true ∧ (s.chan c).st ≠ .idle ∧ k = 3 ∨ s.chMine t c = true ∧ (s.chan c).st = .idle ∧ (s.chan c).en = false ∧ k = 4 ∨
            s.chMine t c = true ∧ (s.chan c).st = .idle ∧ (s.chan c).en = true ∧ a % 64 ≠ 0 ∧ k = 7 ∨
            s.chMine t c = true ∧ (s.chan c).st = .idle ∧ (s.chan c).en = true ∧ a % 64 = 0 ∧ s.descCheck c g a (descOf (s.peek a 64)) = some k) →
          exec i s = .next ((s.fault t 0x13 k (s.reg t ra)).settleDebug t))) ∧
      (isNear t a = false → locOf a ≠ .reserved → ∀ i ∈ [Instr.dmstart t ra rb, .dmarm t ra rb], Ends (exec i s) (fun u => (u.ctx t).st = .waiting ∧ (u.ctx t).wait = some ⟨.data, i⟩ ∧ (u.ctx t).pc = (s.ctx t).pc ∧ u.chan c = s.chan c ∧ u.mem = s.mem)) ∧
      (∀ rd, Ends (exec (.dmstat t rd rb) s) (fun u => s.setsReg u t 4 rd (s.chan c).read)) ∧
      (s.chMine t c = true → a = 1 → Ends (exec (.dmen t ra rb) s) (fun u => u.chan c = (if (s.chan c).st = .draining then s.chan c else { s.chan c with en := true }) ∧ (u.ctx t).pc = (s.ctx t).pc + 4 ∧ (u.ctx t).g = (s.ctx t).g ∧ u.mem = s.mem)) ∧
      (s.chMine t c = true → a = 0 → (s.chan c).st ≠ .draining → Ends (exec (.dmen t ra rb) s) (fun u => (u.chan c).en = false ∧ (u.chan c).err = 0x0A ∧ (u.chan c).nextDesc = none ∧ (u.chan c).held = 0 ∧ (u.chan c).box = none ∧
        (u.chan c).st = (if (s.chan c).bursts.any (fun b => b.left || !b.read) then .draining else .idle) ∧ (∀ b ∈ (u.chan c).bursts, b.dead = true) ∧ (u.ctx t).pc = (s.ctx t).pc + 4 ∧ (u.ctx t).g = (s.ctx t).g ∧ u.mem = s.mem)) ∧
      (1 < a → ((s.illegal t).ctx t).trapDue = none → exec (.dmen t ra rb) s = .next ((s.illegal t).settleDebug t))) ∧
  (∀ (s : State) t ra rb, s.clearCompute t = true → (s.ctx t).twin = false → 2 ^ 6 ≤ (s.reg t rb).toNat ∨ 8 ≤ (s.reg t rb).toNat ∧ (s.reg t rb).toNat < 32 → isNear t (s.reg t ra).toNat = true → ((s.fault t 0x13 1 (s.reg t ra)).ctx t).trapDue = none →
      exec (.dmstart t ra rb) s = .next ((s.fault t 0x13 1 (s.reg t ra)).settleDebug t) ∧ exec (.dmarm t ra rb) s = .next ((s.fault t 0x13 1 (s.reg t ra)).settleDebug t)) ∧
  (∀ x : DmaChan, x.read.getLsbD 0 = x.en ∧ x.read.toNat / 2 % 8 = x.st.code ∧ x.read.toNat / 16 % 4 = x.prio % 4 ∧ x.read.toNat / 2 ^ 8 % 2 ^ 8 = x.err % 2 ^ 8 ∧ x.read.toNat / 2 ^ 16 % 2 ^ 16 = x.descs % 2 ^ 16 ∧ x.read.toNat / 2 ^ 32 % 2 ^ 8 = x.lost % 2 ^ 8) ∧
  (∀ (s : State) c (w : Word), chOk c = true → s.reachable (tillerNode (chTiller c)) = true →
      (w.getLsbD 0 = false → (s.chan c).st ≠ .draining → Ends (exec (.dchEnWrite c w) s) (fun u => (u.chan c).en = false ∧ (u.chan c).err = 0x0A ∧ (u.chan c).nextDesc = none ∧ (u.chan c).held = 0 ∧ (u.chan c).prio = w.toNat / 16 % 4 ∧
        (u.chan c).st = (if (s.chan c).bursts.any (fun b => b.left || !b.read) then .draining else .idle) ∧ u.mem = s.mem)) ∧
      (∀ T k a, c = .tiller T k → w.getLsbD 0 = true → a = w.toNat / 2 ^ 6 % 2 ^ 38 * 64 →
        (s.chOwner c = owSup → (s.chan c).st = .idle → (s.chan c).en = true → (s.chan c).runs = [] → s.good (chHalf c) a 64 = true → s.descCheck c none a (descOf (s.peek a 64)) = none → Ends (exec (.dchDescStart T k w) s) (fun u =>
          (u.chan c).addr = a ∧ (u.chan c).captured = none ∧ (u.chan c).serial = (s.chan c).serial + 1 ∧ u.mem = s.mem ∧
          ((∀ us, ({ desc := descOf (s.peek a 64) } : DescRun).units = some us → 0 < (descOf (s.peek a 64)).halfUnits us) →
            (u.chan c).st = .running ∧ (u.chan c).err = 0 ∧ (u.chan c).runs = [{ serial := (s.chan c).serial, desc := descOf (s.peek a 64) }] ∧ u.cores = s.cores))) ∧
        ((s.chan c).st = .idle → (s.chOwner c ≠ owSup → exec (.dchDescStart T k w) s = .next (s.modChan c (fun x => { x with addr := a, err := 2 }))) ∧
          (s.chOwner c = owSup → (s.chan c).en = false → exec (.dchDescStart T k w) s = .next (s.modChan c (fun x => { x with addr := a, err := 0x0A })))) ∧
        ((s.chan c).st ≠ .idle → exec (.dchDescStart T k w) s = .next s))) ∧
  (∀ (s : State) c, chOk c = true → s.up = true → (s.chan c).st = .draining → Ends (exec (.disabledChannelTagReclaim c) s) (fun u =>
      (∀ h, h < 16 → (u.portNode h).tags = (s.portNode h).tags.filter (fun p => match p.2 with | some x => (match x.req with | .dma k _ => k ≠ c | _ => true) | none => true)) ∧
      (∀ b ∈ (u.chan c).bursts, b ∈ (s.chan c).bursts ∧ s.readsAway b = false ∧ ∀ p ∈ b.dst, (s.dmaLocal p.1).isSome = true) ∧ (u.chan c).st = .draining ∧ u.mem = s.mem))

/-- Where one channel of an engine is running and has a next burst whose bytes it reaches, whose tags are free and whose credits
it holds, DMA_BURST_ISSUE puts that burst in flight, counts it issued and spends its credits; without the credits it asks and
waits. DMA_READ_RETURN fills the oldest burst still to be read with the bytes at its sources in order, or drops it after a
disable. DMA_WRITE_ACK stores the oldest burst that left at its destinations and nowhere else; when it is the last of the last
descriptor the channel is IDLE, and a full point sets its bit in DINT_PEND or counts the loss. A drained channel becomes IDLE
with EN still 0, and a credit grant adds to HELD. (R245, R247, R248, R249, R250, R252, R253, R255) -/
def Obligations.DmaEngine : Prop :=
  (∀ (s : State) e c r u0, engOk e = true → chOk c = true → c ∈ engChans e → s.engOn c = true → (∀ n, e = .core n → s.coreOpen n = true) → (∀ c' ∈ engChans e, c' ≠ c → (s.chan c').st ≠ .running) → (s.chan c).nextUnit = some (r, u0) →
      ((s.chan c).runs = [r] → r.left = 0 → r.arrived = 0 → r.doneFired = false → u0.src.any (fun p => p.1.isSome) = true → (s.chan c).prio < 4 →
        (s.chan c).bursts.all (fun b => !b.left && !b.read) = true → s.dmaReady c = true → (r.desc.credits = 0 ∨ (s.chan c).box = some r.desc.inbox ∧ creditNeed u0.dst ≤ (s.chan c).held) →
        (∀ p ∈ u0.src, ∀ a, p.1 = some a → s.reaches c r.desc.session (s.chan c).captured a p.2 = true) → (r.desc.mcast = false → ∀ p ∈ u0.dst, s.reaches c r.desc.session (s.chan c).captured p.1 p.2 = true) →
        Ends (exec (.dmaBurstIssue e) s) (fun u => (∃ b, (u.chan c).bursts = (s.chan c).bursts ++ [b] ∧ b.id = (s.chan c).serial ∧ b.desc = r.serial ∧ b.src = u0.src ∧ b.dst = u0.dst ∧ b.read = false ∧ b.left = false ∧
            b.credit = (if r.desc.credits = 0 ∨ creditNeed u0.dst = 0 then none else some (r.desc.inbox, (s.chan c).heldGen, creditNeed u0.dst))) ∧
          (∃ r', (u.chan c).runOf r.serial = some r' ∧ r'.issued = r.issued + 1 ∧ r'.desc = r.desc) ∧ (u.chan c).held = (s.chan c).held - (if r.desc.credits = 0 then 0 else creditNeed u0.dst) ∧ u.engLast e = chNum c ∧ u.mem = s.mem)) ∧
      (r.desc.credits ≠ 0 → (s.chan c).box = some r.desc.inbox → (s.chan c).held < creditNeed u0.dst → Ends (exec (.dmaBurstIssue e) s) (fun u => (u.chan c).st = .waitCredit ∧ (u.chan c).bursts = (s.chan c).bursts ∧
        ((u.chan c).creditAsked = true) ∧ u.mem = s.mem))) ∧
  (∀ (s : State) c b, chOk c = true → s.engOn c = true → (s.chan c).bursts.find? (fun b => !b.read) = some b →
      (s.readBack b = true → b.dead = false → b.err = 0 → (∀ p ∈ b.src, ∃ a k, p.1 = some a ∧ s.dmaLocal a = some k ∧ s.good (chHalf c) k p.2 = true) → Ends (exec (.dmaReadReturn c) s) (fun u =>
        (∃ b', b' ∈ (u.chan c).bursts ∧ b'.id = b.id ∧ b'.read = true ∧ b'.dst = b.dst ∧ b'.data = b.src.flatMap (fun p => s.peek ((p.1.bind s.dmaLocal).getD 0) p.2)) ∧ ((∀ n k, c ≠ .core n k) → u.mem = s.mem))) ∧
      (s.readBack b = true → b.dead = true → (s.chan c).runs = [] → Ends (exec (.dmaReadReturn c) s) (fun u => (u.chan c).bursts = (s.chan c).bursts.filter (fun y => y.id ≠ b.id) ∧ u.mem = s.mem))) ∧
  (∀ (s : State) c b r l, chOk c = true → s.engOn c = true → (s.chan c).bursts.find? Burst.left = some b → (s.chan c).runOf b.desc = some r → b.performed = false → b.credit = none → r.desc.aow = false → r.desc.mcast = false → r.failed = false →
      (∀ p ∈ b.dst, s.dmaLocal p.1 = some p.1 ∧ s.good (chHalf c) p.1 p.2 = true ∧ ∀ q ∈ cutAt 128 p.1 p.2, s.needsCredit (chCore c) q.1 q.2 = false) →
      l = b.dst.flatMap (fun p => (List.range p.2).map (p.1 + ·)) → l.length = b.data.length → (l.map s.cellOf).Nodup → (∀ a ∈ l, s.unitBad a = false ∧ s.routeErr (chHalf c) a = none) → (∀ b' ∈ (s.chan c).bursts, b'.left = true ∨ b'.read = false) →
      Ends (exec (.dmaWriteAck c) s) (fun u => (∀ i, i < l.length → u.byteAt (l.getD i 0) = b.data.getD i 0) ∧ (∀ x, (∀ a ∈ l, s.cellOf x ≠ s.cellOf a) → u.byteAt x = s.byteAt x) ∧
        (∀ us T k, c = .tiller T k → (s.chan c).runs = [r] → (s.chan c).bursts = [b] → (s.chan c).nextDesc = none → (s.chan c).step = none → r.step = none → ((s.chan c).st = .running ∨ (s.chan c).st = .waitCredit) → r.units = some us → r.arrived + 1 = us.length →
          r.left = us.length → r.halfDone = true → r.doneFired = false → r.evcFired = false → r.desc.fence = true → r.desc.evcEn = false → r.desc.done.toNat / 2 ^ 10 % 4 = 0 → r.desc.fullInt = true → r.desc.intSeq = false →
          (u.chan c).st = .idle ∧ (u.chan c).runs = [] ∧ (u.chan c).bursts = [] ∧ (u.chan c).descs = satAdd 16 (s.chan c).descs 1 ∧ (u.chan c).held = 0 ∧
          ∀ t : Tid, t = ⟨T * 16 + r.desc.done.toNat / 2 ^ 20 % 16, r.desc.done.toNat / 2 ^ 17 % 8⟩ → (u.ctx t).dintPend.getLsbD (32 + k) = true ∧
            (u.ctx t).dintOver = (if (s.ctx t).dintPend.getLsbD (32 + k) then satAdd 32 (s.ctx t).dintOver 1 else (s.ctx t).dintOver)))) ∧
  (∀ (s : State) c, chOk c = true → s.engOn c = true →
      ((s.chan c).st = .draining → (s.chan c).bursts = [] → (s.chan c).runs = [] → Ends (exec (.dmaDrainEnd c) s) (fun u => (u.chan c).st = .idle ∧ (u.chan c).en = (s.chan c).en ∧ (u.chan c).err = (s.chan c).err ∧ u.mem = s.mem)) ∧
      (∀ box k gen rest, (s.chan c).creditMsg = (box, k, gen, 0) :: rest → (s.chan c).box = some box → (s.chan c).creditAsked = true → Ends (exec (.dmaCreditGrant c) s) (fun u => u.mem = s.mem ∧ u.chan c =
        { s.chan c with creditMsg := rest, creditAsked := false, held := min ((if (s.chan c).heldGen = gen then (s.chan c).held else 0) + k) 65535, heldGen := gen, st := if (s.chan c).st = .waitCredit then .running else (s.chan c).st })))

/-- STEP_ISSUE of the context whose turn it is, with a record that reads valid: the step joins the steps in flight with private
copies of its arguments, commit list and chain, one thread starts on each named core that has a free context, with the record's
PC and sp, the arguments in g1 to g8 and the core's segments, the other forks wait, and the next record and ITER follow LOOP and
END. A DMA record starts its chain, or stops the context with ERR 8. A bad record stops it with the error. STEP_COMMIT of the
oldest step, complete and with nothing to watch or mirror, flips the live halves its list names, sends its INC, and takes the
step out of flight, the context being DONE after an END record; a refused INC stops the context with ERR 9. A FLIP from another
tiller flips a declared pair, an increment adds modulo 2^32, and level 1 sets a counter. (R260, R263, R266, R267, R268, R269,
R272, R273, R274, R275, R277, R278) -/
def Obligations.StepsIssueAndCommit : Prop :=
  (∀ (s : State) T k r s0, T < 64 → k < 8 → s.sqOn T = true → s.sqTurn T = some k → (s.modTiller T (fun x => { x with sqLast := k })).nextRec T k = .ok r → s0 = (s.modTiller T (fun x => { x with sqLast := k })).zeroLocal T k r →
      (∀ a b ch n, s0.readArgs T k r = .ok a → s0.readCommit T r = .ok b → s0.readChain T r = .ok ch → n = (s.tiller T).sqSerial →
        (r.dma = false → r.pregrant = 0 → r.dup = false → (∀ j, ∀ y ∈ (s.sq T j).steps, y.forksLeft = []) → (∀ y ∈ (s.sq T k).steps, y.serial ≠ n) → Ends (exec (.stepIssue T k) s) (fun u =>
          (∃ x, (u.sq T k).steps = (s.sq T k).steps ++ [x] ∧ x.serial = n ∧ x.rec' = r ∧ x.index = (s.sq T k).next ∧ x.iter = (s.sq T k).iter ∧ x.args = a ∧ x.commit = b ∧ x.chain = ch ∧ x.replayDue = false ∧ x.failed = false ∧
            x.dmaDone = true ∧ (∀ c, c < 16 → r.thread = true → r.cores.getLsbD c = true →
              (∀ j, s0.coreOpen (T * 16 + c) = true → s0.freeCtx (T * 16 + c) r.ctx = some j → ⟨T * 16 + c, j⟩ ∈ x.live ∧ (u.ctx ⟨T * 16 + c, j⟩).step = some ⟨T, k, n⟩ ∧ (u.ctx ⟨T * 16 + c, j⟩).level = 2 ∧
                (u.ctx ⟨T * 16 + c, j⟩).pc = word r.pc ∧ u.sp ⟨T * 16 + c, j⟩ = word r.sp ∧ (∀ q : Reg, 1 ≤ q.toNat → q.toNat ≤ 8 → u.reg ⟨T * 16 + c, j⟩ q = a.getD (q.toNat - 1) 0) ∧ (∀ q, u.vreg ⟨T * 16 + c, j⟩ q = 0) ∧
                (u.ctx ⟨T * 16 + c, j⟩).segs = (s.core (T * 16 + c)).tseg ∧ (u.ctx ⟨T * 16 + c, j⟩).fpm = 0 ∧ ((u.ctx ⟨T * 16 + c, j⟩).st = .ready ∨ (u.ctx ⟨T * 16 + c, j⟩).st = .running)) ∧
              (s0.coreOpen (T * 16 + c) = false ∨ s0.freeCtx (T * 16 + c) r.ctx = none → (c, false) ∈ x.forksLeft))) ∧
          (u.tiller T).sqSerial = n + 1 ∧ (u.tiller T).sqLast = k ∧ (r.isLocal = true → u.evc T (248 + k) = 0) ∧ (u.sq T k).ended = ((s.sq T k).ended || r.isEnd) ∧
          (r.isLoop = true ∧ (r.count = 0 ∨ (s.sq T k).iter + 1 < r.count) → (u.sq T k).next = r.target ∧ (u.sq T k).iter = ((s.sq T k).iter + 1) % 2 ^ 32) ∧
          (¬ (r.isLoop = true ∧ (r.count = 0 ∨ (s.sq T k).iter + 1 < r.count)) → (u.sq T k).next = ((s.sq T k).next + 1) % 2 ^ 16 ∧ (u.sq T k).iter = (s.sq T k).iter) ∧ u.mem = s.mem)) ∧
        (r.dma = true → s0.chOwner (.tiller T r.dmaCh) ≠ owSeq → Ends (exec (.stepIssue T k) s) (fun u => (u.sq T k).st = .aborting ∧ (u.sq T k).err = 8 ∧ u.mem = s.mem)) ∧
        (∀ d, r.dma = true → r.thread = false → r.pregrant = 0 → (s.chan (.tiller T r.dmaCh)).runs = [] → s0.chOwner (.tiller T r.dmaCh) = owSeq →
          s0.startCheck (.tiller T r.dmaCh) ch none (s0.readDesc (tillerHalf T) ch) = .ok d → (∀ us, ({ desc := d } : DescRun).units = some us → 0 < d.halfUnits us) → Ends (exec (.stepIssue T k) s) (fun u =>
            (u.chan (.tiller T r.dmaCh)).st = .running ∧ (u.chan (.tiller T r.dmaCh)).addr = ch ∧ (u.chan (.tiller T r.dmaCh)).step = some ⟨T, k, n⟩ ∧ (u.chan (.tiller T r.dmaCh)).captured = none ∧ u.mem = s.mem))) ∧
      (∀ e, s0.readArgs T k r = .error e → Ends (exec (.stepIssue T k) s) (fun u => (u.sq T k).st = .aborting ∧ (u.sq T k).err = e ∧ u.mem = s.mem))) ∧
  (∀ (s : State) T k e, T < 64 → k < 8 → s.sqOn T = true → s.sqTurn T = some k → (s.modTiller T (fun x => { x with sqLast := k })).nextRec T k = .error e → Ends (exec (.stepIssue T k) s) (fun u =>
      (u.sq T k).st = .aborting ∧ (u.sq T k).err = e ∧ (∀ x ∈ (u.sq T k).steps, x.replayDue = false) ∧ u.mem = s.mem)) ∧
  (∀ (s : State) T k x rest, T < 64 → k < 8 → s.sqOn T = true → (s.sq T k).steps = x :: rest → s.mayCommit ⟨T, k, x.serial⟩ = true → x.watched = false → x.watchLeft = [] → x.mirrored = false → x.mirrorLeft = [] → (∀ y ∈ rest, y.serial ≠ x.serial) →
      s.watchMatch T x.rec'.stepId x.iter = [] → s.mirrorPairs T x.commit = [] →
      (∀ ps : List Nat, x.commit = ps.map (CommitEntry.flip T) → ps.Nodup → Ends (exec (.stepCommit T k) s) (fun u => (u.sq T k).steps = rest ∧ (u.sq T k).st = (if x.rec'.isEnd then .done else (s.sq T k).st) ∧
        (∀ p, (u.pair T p).live = (if p ∈ ps ∧ (s.pair T p).valid then !(s.pair T p).live else (s.pair T p).live) ∧ (u.pair T p).base = (s.pair T p).base ∧ (u.pair T p).size = (s.pair T p).size) ∧ u.cores = s.cores ∧ u.mem = s.mem)) ∧
      (∀ t0 c amt, x.commit = [.inc (0x3FFF * 2 ^ 14 + t0 * 2 ^ 8 + c) amt] → t0 < 64 → c < 256 →
        ((s.node (tillerNode T)).permits (tillerNode t0) = true → (s.node (tillerNode T)).waiting = [] → (s.node (tillerNode T)).admits (planeOf (tillerNode T) (tillerNode t0)) = true →
          ¬ (nodeHalf (tillerNode T) ≠ nodeHalf (tillerNode t0) ∧ s.blocked (nodeHalf (tillerNode t0)) = true) → Ends (exec (.stepCommit T k) s) (fun u => (u.sq T k).steps = rest ∧ (u.tiller t0).c0 = (s.tiller t0).c0 ++ [.inc c amt] ∧
            (u.sq T k).st = (if x.rec'.isEnd then .done else (s.sq T k).st) ∧ u.mem = s.mem)) ∧
        ((s.node (tillerNode T)).permits (tillerNode t0) = false → Ends (exec (.stepCommit T k) s) (fun u => (u.sq T k).st = .aborting ∧ (u.sq T k).err = 9 ∧ (u.tiller t0).c0 = (s.tiller t0).c0 ∧ u.mem = s.mem)))) ∧
  (∀ (s : State) T p, T < 64 → p < 64 → s.up = true → (s.tiller T).c0.any (fun m => m = .flip p) = true → s.loading T = false → Ends (exec (.commitFlipArrive T p) s) (fun u => (u.tiller T).c0 = (s.tiller T).c0.erase (.flip p) ∧
      (u.pair T p).live = (if (s.pair T p).valid then !(s.pair T p).live else (s.pair T p).live) ∧ (∀ q, q ≠ p → u.pair T q = s.pair T q) ∧ u.cores = s.cores ∧ u.mem = s.mem)) ∧
  (∀ (s : State) T c n, T < 64 → c < 256 →
      (s.up = true → (s.tiller T).c0.find? (C0Msg.isInc c) = some (.inc c n) → (s.loading T = false → Ends (exec (.evcIncrement T c) s) (fun u => u.evc T c = (s.evc T c + n) % 2 ^ 32 ∧ (u.tiller T).c0 = (s.tiller T).c0.erase (.inc c n) ∧
          (∀ i, i ≠ c → u.evc T i = s.evc T i) ∧ u.mem = s.mem)) ∧
        (s.loading T = true → Ends (exec (.evcIncrement T c) s) (fun u => u.evc T c = s.evc T c ∧ (u.tiller T).c0 = (s.tiller T).c0.erase (.inc c n) ∧ u.cores = s.cores ∧ u.mem = s.mem))) ∧
      (s.reachable (tillerNode T) = true → ∀ w : Word, Ends (exec (.evcWrite T c w) s) (fun u => u.evc T c = w.toNat % 2 ^ 32 ∧ (∀ i, i ≠ c → u.evc T i = s.evc T i) ∧ (u.tiller T).c0 = (s.tiller T).c0 ∧ u.mem = s.mem)))

/-- START from IDLE, DONE or ABORTED runs the context from record 0 with ITER, REPLAYS and ERR zero and MAXFLIGHT of 1 to 4;
STOP, RESUME and ABORT act from the states named and are ignored in others; an aborting context with nothing in flight is
ABORTED. LIVE is written only while no context of the tiller is RUNNING or ABORTING. A fault of a step of CLASS NONE stops the
context with ERR 4, the 4th fault with ERR 3; before that, a SAME or SPARE step loses its threads and waits for its replay,
which issues the same record again with the same ITER, arguments and chain and counts in REPLAYS. A fault of no step changes no
schedule. (R270, R271, R276, R280, R281, R284, R285, R286) -/
def Obligations.SchedulesCommandsAndFaults : Prop :=
  (∀ (s : State) T k q, T < 64 → k < 8 → s.reachable (tillerNode T) = true → q = s.sq T k →
      (∀ w : Word, w.toNat % 8 = 1 →
        (q.st = .idle ∨ q.st = .done ∨ q.st = .aborted → Ends (exec (.sqStart T k w) s) (fun u => (u.sq T k).st = .running ∧ (u.sq T k).next = 0 ∧ (u.sq T k).iter = 0 ∧ (u.sq T k).replays = 0 ∧ (u.sq T k).err = 0 ∧ (u.sq T k).ended = false ∧
          (u.sq T k).baseNow = q.base ∧ (u.sq T k).maxflight = w.toNat / 256 % 8 ∧ (u.sq T k).maxNow = (if w.toNat / 256 % 8 = 0 then 1 else min (w.toNat / 256 % 8) 4) ∧ (∀ j, j ≠ k → u.sq T j = s.sq T j) ∧ u.cores = s.cores ∧ u.mem = s.mem)) ∧
        (q.st = .running ∨ q.st = .stopped ∨ q.st = .aborting → Ends (exec (.sqStart T k w) s) (fun u => u.sq T k = { q with op := 1, maxflight := w.toNat / 256 % 8 } ∧ u.mem = s.mem))) ∧
      Ends (exec (.sqStop T k) s) (fun u => u.sq T k = { q with op := 2, maxflight := q.maxflight % 8, st := if q.st = .running then .stopped else q.st } ∧ (∀ j, j ≠ k → u.sq T j = s.sq T j) ∧ u.cores = s.cores ∧ u.mem = s.mem) ∧
      Ends (exec (.sqResume T k) s) (fun u => u.sq T k = { q with op := 3, maxflight := q.maxflight % 8, st := if q.st = .stopped then .running else q.st } ∧ (∀ j, j ≠ k → u.sq T j = s.sq T j) ∧ u.cores = s.cores ∧ u.mem = s.mem) ∧
      (q.st = .running ∨ q.st = .stopped → Ends (exec (.sqAbort T k) s) (fun u => u.sq T k = { q with op := 4, maxflight := q.maxflight % 8, st := .aborting, err := 6, steps := q.steps.filter (fun x => !x.replayDue) } ∧ u.cores = s.cores ∧ u.mem = s.mem)) ∧
      (q.st ≠ .running → q.st ≠ .stopped → Ends (exec (.sqAbort T k) s) (fun u => u.sq T k = { q with op := 4, maxflight := q.maxflight % 8 } ∧ u.mem = s.mem)) ∧
      (q.st = .aborting → q.steps.all Step.quiet = true → exec (.sqAborted T k) s = .next (s.modSq T k (fun q => { q with st := .aborted, steps := [] }))) ∧
      (q.steps.all Step.quiet = false → exec (.sqAborted T k) s = .next s)) ∧
  (∀ (s : State) T p (w : Word), T < 64 → p < 64 → s.reachable (tillerNode T) = true →
      ((∀ k, k < 8 → (s.sq T k).st ≠ .running ∧ (s.sq T k).st ≠ .aborting) → (s.pair T p).valid = true → Ends (exec (.sqBufLiveWrite T p w) s) (fun u => (u.pair T p).live = w.getLsbD 1 ∧ (u.pair T p).base = (s.pair T p).base ∧
        (u.pair T p).size = (s.pair T p).size ∧ (u.pair T p).valid = true ∧ (∀ q, q ≠ p → u.pair T q = s.pair T q) ∧ u.mem = s.mem)) ∧
      ((∃ k, k < 8 ∧ ((s.sq T k).st = .running ∨ (s.sq T k).st = .aborting)) ∨ (s.pair T p).valid = false → exec (.sqBufLiveWrite T p w) s = .next s)) ∧
  (∀ (s : State) T k f x, T < 64 → k < 8 → s.up = true → (∀ c, f = .sentinel c ∨ f = .coreFault c → c / 16 = T) → s.findReport T k f = none → (s.tiller T).spareLost = false →
      (s.attributed T k f none = [] → Ends (exec (.stepFault T k f) s) (fun u => (∀ j, u.sq T j = s.sq T j) ∧ u.cores = s.cores ∧ u.mem = s.mem)) ∧
      (s.attributed T k f none = [x] → ((s.sq T k).st = .running ∨ (s.sq T k).st = .stopped) →
        (x.rec'.cls = 0 → Ends (exec (.stepFault T k f) s) (fun u => (u.sq T k).st = .aborting ∧ (u.sq T k).err = 4 ∧ (u.sq T k).faultStep = x.rec'.stepId ∧ (u.sq T k).faultCause = faultCause f ∧ (u.sq T k).faultCore = (faultCore f).getD 0xF ∧
          u.cores = s.cores ∧ u.mem = s.mem)) ∧
        (x.rec'.cls ≠ 0 → 3 ≤ x.faults → (s.spareFree T = true ∨ faultCore f = none) → Ends (exec (.stepFault T k f) s) (fun u => (u.sq T k).st = .aborting ∧ (u.sq T k).err = 3 ∧ (u.sq T k).faultStep = x.rec'.stepId ∧ u.cores = s.cores ∧ u.mem = s.mem)) ∧
        (x.rec'.cls ≠ 0 → x.faults < 3 → x.rec'.dma = false → (∀ c, faultCore f = some c → s.wantsSpare T x c = false) → (∀ j, ∀ y ∈ (s.sq T j).steps, y.forksLeft = []) → x ∈ (s.sq T k).steps → (∀ y ∈ (s.sq T k).steps, y.serial = x.serial → y = x) →
          (∀ t ∈ x.live, t.unit / 16 = T ∧ t.ctx ≠ 0 ∧ t.ctx < 8) → Ends (exec (.stepFault T k f) s) (fun u => (u.sq T k).st = (s.sq T k).st ∧ (∀ t ∈ x.live, (u.ctx t).st = .free) ∧ (u.sq T k).faultStep = x.rec'.stepId ∧
            (∃ y ∈ (u.sq T k).steps, y.serial = x.serial ∧ y.replayDue = true ∧ y.killed = x.live ∧ y.live = [] ∧ y.faults = x.faults + 1 ∧ y.iter = x.iter ∧ y.args = x.args ∧ y.commit = x.commit ∧ y.chain = x.chain))))) ∧
  (∀ (s : State) T k x, T < 64 → k < 8 → s.sqOn T = true → (s.sq T k).steps.find? Step.replayDue = some x → x.testDue = false → s.replayQuiet T x = true → x.rec'.dma = false → x.rec'.pregrant = 0 → x.rec'.isLocal = false → (∀ y ∈ (s.sq T k).steps, y.serial = x.serial → y = x) →
      Ends (exec (.stepReplayIssue T k) s) (fun u => (u.sq T k).replays = satAdd 8 (s.sq T k).replays 1 ∧ (u.sq T k).st = (s.sq T k).st ∧ (u.sq T k).next = (s.sq T k).next ∧ u.mem = s.mem ∧
        ∃ y ∈ (u.sq T k).steps, y.serial = x.serial ∧ y.rec' = x.rec' ∧ y.replayDue = false ∧ y.replayed = true ∧ y.iter = x.iter ∧ y.args = x.args ∧ y.commit = x.commit ∧ y.chain = x.chain ∧ y.faults = x.faults ∧ y.dmaDone = true))

/-- WAVE_START of a running controller with room for a wave, its counters reached and a wave left starts the next wave number in
every tiller of the region and changes nothing else; with one of these missing it changes nothing. START from IDLE, DONE or
ABORTED runs from wave 0 with every unit afresh, STOP and RESUME exchange RUNNING and STOPPED, ABORT of a live array purges it
under ABORTING with ERR 6, and each is kept in THS_WCTL. The last acknowledgement of a purge, with no token of an older epoch in
transit, gives every tiller of the region the next epoch, empties its queues, counts their tokens, gives producers their credits
back and every unit its initial state; ABORTING becomes ABORTED with no wave in flight, and a replay runs again from the oldest
wave. A complete oldest wave commits: its list flips the live halves it names, the wave leaves flight, and after the last wave
the array is DONE. A fault is recorded and goes to the oldest wave: by CLASS NONE the array stops with ERR 4, at the fourth
fault with ERR 3, else it purges to replay, by the spare where SPARE or a second blame asks for it; with no wave in flight it is
only logged. Another access error n stops it with ERR 0x10 + n, a wave beyond its limit with ERR 0xC. (R302, R303, R306, R307,
R308, R309, R311, R312) -/
def Obligations.ThallusWaves : Prop :=
  (∀ (s : State) r h T th, r < 16 → h = s.arr r → T = arrCtrl h → th = s.th T → h ≠ [] →
      (s.thOn T = true → th.st = .running → th.inflight.length < arrMax h → (∀ i, i < 2 → (fld h 14 1).testBit i = true → reached (s.evc T (fld h (8 + i) 1)) ((fld h (16 + 4 * i) 4 + th.wave * fld h (10 + 2 * i) 2) % 2 ^ 32) = true) →
        (arrWaves h = 0 ∨ th.wave < arrWaves h) → Ends (exec (.waveStart r) s) (fun u => u.th T = { th with wave := th.wave + 1, inflight := th.inflight ++ [(th.wave, 0, [])] } ∧
          (∀ T', T' ≠ T → u.th T' = s.th T') ∧ u.units = s.units ∧ u.cores = s.cores ∧ u.mem = s.mem)) ∧
      (th.st ≠ .running ∨ arrMax h ≤ th.inflight.length ∨ (arrWaves h ≠ 0 ∧ arrWaves h ≤ th.wave) ∨
        (∃ i, i < 2 ∧ (fld h 14 1).testBit i = true ∧ reached (s.evc T (fld h (8 + i) 1)) ((fld h (16 + 4 * i) 4 + th.wave * fld h (10 + 2 * i) 2) % 2 ^ 32) = false) → exec (.waveStart r) s = .next s) ∧
      (s.reachable (tillerNode T) = true → s.regionOf T = some r →
        (th.st = .idle ∨ th.st = .done ∨ th.st = .aborted → Ends (exec (.thsStart r) s) (fun u =>
          u.th T = { th with wctl := 1, st := .running, wave := 0, replays := 0, err := 0, inflight := [], stopAfter := false, watched := false, mirrored := false } ∧
          (∀ n, u.unitOf n = if n ∈ s.regionUnits r then (s.unitOf n).afresh 0 else s.unitOf n) ∧ u.cores = s.cores ∧ u.mem = s.mem)) ∧
        (th.st ≠ .idle → th.st ≠ .done → th.st ≠ .aborted → Ends (exec (.thsStart r) s) (fun u => u.th T = { th with wctl := 1 } ∧ u.units = s.units ∧ u.mem = s.mem)) ∧
        Ends (exec (.thsStop r) s) (fun u => u.th T = { th with wctl := 2, st := if th.st = .running then .stopped else th.st } ∧ u.units = s.units ∧ u.cores = s.cores ∧ u.mem = s.mem) ∧
        Ends (exec (.thsResume r) s) (fun u => u.th T = { th with wctl := 3, st := if th.st = .stopped then .running else th.st } ∧ u.units = s.units ∧ u.cores = s.cores ∧ u.mem = s.mem) ∧
        (th.st = .running ∨ th.st = .stopped ∨ th.st = .replaying → Ends (exec (.thsAbort r) s) (fun u => (u.th T).st = .aborting ∧ (u.th T).err = 6 ∧ (u.th T).wctl = 4 ∧ (u.th T).inflight = th.inflight ∧
          (∀ T' ∈ s.regionTillers r, (u.th T').purging = true) ∧ u.units = s.units ∧ u.cores = s.cores ∧ u.mem = s.mem)) ∧
        (th.st ≠ .running → th.st ≠ .stopped → th.st ≠ .replaying → Ends (exec (.thsAbort r) s) (fun u => u.th T = { th with wctl := 4 } ∧ u.units = s.units ∧ u.mem = s.mem))) ∧
      (s.reachable (tillerNode T) = false → exec (.thsStart r) s = .next s ∧ exec (.thsStop r) s = .next s ∧ exec (.thsResume r) s = .next s ∧ exec (.thsAbort r) s = .next s)) ∧
  (∀ (s : State) r T th, r < 16 → T = arrCtrl (s.arr r) → th = s.th T →
      (s.up = true → (∃ t ∈ s.regionTillers r, (s.th t).purging = true) → (∀ t ∈ s.regionTillers r, ∀ e ∈ (s.th t).queues, ∀ k ∈ e.2.transit, k.epoch = (s.th t).epoch) → th.spareFor = none → Ends (exec (.arrayPurgeEpochAck r) s) (fun u =>
        (∀ t ∈ s.regionTillers r, (u.th t).epoch = ((s.th t).epoch + 1) % 16 ∧ (u.th t).purging = false ∧ (u.th t).purged = satAdd 32 (s.th t).purged (((s.th t).queues.map (fun e => e.2.tokens.length)).sum) ∧
          ∀ q, (u.queue t q).tokens = [] ∧ (u.queue t q).credits = (u.queue t q).depth ∧ (swf {} (s.th t).queues = true → (u.queue t q).depth = (s.queue t q).depth ∧ (u.queue t q).transit = (s.queue t q).transit)) ∧
        (∀ n ∈ s.regionUnits r, u.unitOf n = (s.unitOf n).afresh (if th.st = .replaying then (th.inflight.headD (th.wave, 0, [])).1 else th.wave)) ∧
        (th.st = .aborting → (u.th T).st = .aborted ∧ (u.th T).inflight = []) ∧ (th.st = .replaying → (u.th T).st = (if th.stopAfter then .stopped else .running) ∧ (u.th T).inflight = th.inflight) ∧ u.cores = s.cores ∧ u.mem = s.mem)) ∧
      ((∀ t ∈ s.regionTillers r, (s.th t).purging = false) ∨ (∃ t ∈ s.regionTillers r, ∃ e ∈ (s.th t).queues, ∃ k ∈ e.2.transit, k.epoch ≠ (s.th t).epoch) → exec (.arrayPurgeEpochAck r) s = .next s)) ∧
  (∀ (s : State) r T th w (ps : List Nat), r < 16 → T = arrCtrl (s.arr r) → th = s.th T →
      (s.thOn T = true → s.waveReady r = some w → th.watched = false → th.watchLeft = [] → th.mirrored = false → th.mirrorLeft = [] → s.watchMatch T 0xFFFFFFFF w = [] →
        s.waveList r = some (ps.map (CommitEntry.flip T)) → s.mirrorPairs T (ps.map (CommitEntry.flip T)) = [] → ps.Nodup → Ends (exec (.waveCommit r) s) (fun u =>
          (u.th T).inflight = th.inflight.drop 1 ∧ (u.th T).st = (if arrWaves (s.arr r) = w + 1 then .done else th.st) ∧ (u.th T).wave = th.wave ∧
          (∀ p, (u.pair T p).live = (if p ∈ ps ∧ (s.pair T p).valid then !(s.pair T p).live else (s.pair T p).live) ∧ (u.pair T p).base = (s.pair T p).base) ∧ u.units = s.units ∧ u.cores = s.cores ∧ u.mem = s.mem)) ∧
      (s.waveReady r = none → exec (.waveCommit r) s = .next s)) ∧
  (∀ (s : State) r h T th f, r < 16 → h = s.arr r → T = arrCtrl h → th = s.th T → h ≠ [] → s.up = true →
      (th.inflight = [] → Ends (exec (.waveFault r f) s) (fun u => (∀ T', u.th T' = s.th T') ∧ u.units = s.units ∧ u.cores = s.cores ∧ u.mem = s.mem)) ∧
      (th.inflight ≠ [] → (th.st = .running ∨ th.st = .stopped ∨ th.st = .replaying) → ∀ n, f = .access n → Ends (exec (.waveFault r f) s) (fun u => (u.th T).st = .aborting ∧ (u.th T).err = 0x10 + n ∧
        (∀ T' ∈ s.regionTillers r, (u.th T').purging = true) ∧ u.units = s.units ∧ u.cores = s.cores ∧ u.mem = s.mem)) ∧
      (∀ w n blamed rest, th.inflight = (w, n, blamed) :: rest → (th.st = .running ∨ th.st = .stopped ∨ th.st = .replaying) → (∀ d, f ≠ .access d) → (∀ c, waveFaultCore f = some c → (s.tiller (c / 16)).spareLost = false) →
        (arrClass h = 0 → Ends (exec (.waveFault r f) s) (fun u => (u.th T).st = .aborting ∧ (u.th T).err = 4 ∧ (u.th T).faultWave = w ∧ (u.th T).faultCause = waveFaultCause f ∧ (u.th T).faultUnit = waveFaultUnit f ∧
          (∀ T' ∈ s.regionTillers r, (u.th T').purging = true) ∧ u.units = s.units ∧ u.cores = s.cores ∧ u.mem = s.mem)) ∧
        (arrClass h ≠ 0 → 3 ≤ n → (∀ c, waveFaultCore f = some c → s.spareFree (c / 16) = true) → Ends (exec (.waveFault r f) s) (fun u => (u.th T).st = .aborting ∧ (u.th T).err = 3 ∧ (u.th T).faultWave = w ∧
          (u.th T).faultCause = waveFaultCause f ∧ u.units = s.units ∧ u.cores = s.cores ∧ u.mem = s.mem)) ∧
        (arrClass h ≠ 0 → n < 3 → (∀ c, waveFaultCore f = some c → ¬ (s.spareFree (c / 16) = true ∧ (arrClass h = 2 ∨ blamed.contains (c / 16, s.physOf (c / 16) (c % 16)) = true))) → Ends (exec (.waveFault r f) s) (fun u =>
          (u.th T).st = .replaying ∧ (u.th T).replays = (if th.st = .replaying then th.replays else satAdd 8 th.replays 1) ∧ (u.th T).faultWave = w ∧ (u.th T).faultCause = waveFaultCause f ∧ (u.th T).faultUnit = waveFaultUnit f ∧
          (u.th T).faultSpare = false ∧ (∃ b, (u.th T).inflight = (w, n + 1, b) :: rest ∧ ∀ x ∈ blamed, x ∈ b) ∧ (th.st ≠ .replaying → ∀ T' ∈ s.regionTillers r, (u.th T').purging = true) ∧ u.units = s.units ∧ u.cores = s.cores ∧ u.mem = s.mem)) ∧
        (∀ c, waveFaultCore f = some c → c < 1024 → arrClass h ≠ 0 → n < 3 → s.spareFree (c / 16) = true → (arrClass h = 2 ∨ blamed.contains (c / 16, s.physOf (c / 16) (c % 16)) = true) → (∀ k, k < 8 → ∀ x ∈ (s.sq (c / 16) k).steps, x.live = []) →
          Ends (exec (.waveFault r f) s) (fun u => (u.th T).st = .replaying ∧ (u.th T).spareFor = some c ∧ (u.th T).faultSpare = true ∧ (u.tiller (c / 16)).takeover = some (c % 16) ∧ u.mem = s.mem)))) ∧
  (∀ (s : State) r T, r < 16 → T = arrCtrl (s.arr r) →
      (s.up = true → s.arr r ≠ [] → arrLimit (s.arr r) ≠ 0 → (s.th T).inflight ≠ [] → ((s.th T).st = .running ∨ (s.th T).st = .stopped) → Ends (exec (.waveTimeout r) s) (fun u => (u.th T).st = .aborting ∧ (u.th T).err = 0xC ∧
        (∀ T' ∈ s.regionTillers r, (u.th T').purging = true) ∧ u.units = s.units ∧ u.cores = s.cores ∧ u.mem = s.mem)) ∧
      (arrLimit (s.arr r) = 0 ∨ (s.th T).inflight = [] → exec (.waveTimeout r) s = .next s))

/-- The oldest token on its way to a queue joins it if its epoch is the tiller's, else it is dropped and counted in THS.STALE;
the oldest credit on its way back reaches its producer's count if its epoch is current. A unit whose inputs hold the tokens of a
firing, none NULL, and whose outputs have credits fires: it pops the tokens, whose credits return, sends its output tokens with
its epoch and LAST after the last of a wave, and counts on. An F-unit sends the low bytes of R after its operations on X, Y, Z,
r0 to r2 and CONST, keeps r0 to r2 and sets THS_FLAGS; an M-unit without residency, C or groups sends the rows of its MMA; an
S-unit reads, writes, combines or gathers blocks of its store, an index beyond it stopping the array with ERR 0xA; a P-unit
reads or writes local blocks, writes every member of its multicast group, or works under its session; BRANCH, MERGE, SELECT and
LOOP send what Table 3 states. Without a token or a credit nothing changes; inputs all NULL give one NULL with LAST; LAST on a
firing that is not the last stops the array with ERR 0xB. Where an operation leaves a value open, some value makes the statement
true. (R292, R293, R295, R296, R297, R298, R299, R300, R301, R307) -/
def Obligations.ThallusUnitsFire : Prop :=
  (∀ (s : State) T q, T < 64 → q < 512 → s.up = true →
      (∀ k rest, (s.queue T q).transit = k :: rest →
        ((s.th T).on = true → k.epoch = (s.th T).epoch → Ends (exec (.tokenArrive T q) s) (fun u => u.queue T q = { s.queue T q with transit := rest, tokens := (s.queue T q).tokens ++ [k] } ∧ (u.th T).stale = (s.th T).stale ∧ (∀ T', T' ≠ T → u.th T' = s.th T') ∧ u.units = s.units ∧ u.mem = s.mem)) ∧
        ((s.th T).on = false ∨ k.epoch ≠ (s.th T).epoch → Ends (exec (.tokenArrive T q) s) (fun u => u.queue T q = { s.queue T q with transit := rest } ∧ (u.th T).stale = satAdd 16 (s.th T).stale 1 ∧ u.units = s.units ∧ u.mem = s.mem))) ∧
      ((s.queue T q).transit = [] → exec (.tokenArrive T q) s = .next s) ∧
      (∀ e rest, (s.queue T q).returning = e :: rest → Ends (exec (.tokenCreditReturn T q) s) (fun u =>
        u.queue T q = { s.queue T q with returning := rest, credits := if (s.th (uTiller (s.queue T q).producer)).epoch = e then (s.queue T q).credits + 1 else (s.queue T q).credits } ∧ (∀ q', q' ≠ q → u.queue T q' = s.queue T q') ∧
        (∀ T', T' ≠ T → u.th T' = s.th T') ∧ u.units = s.units ∧ u.mem = s.mem)) ∧
      ((s.queue T q).returning = [] → exec (.tokenCreditReturn T q) s = .next s)) ∧
  (∀ (s : State) (n : BitVec 16) u r x ends, u = n.toNat → s.unitLive u r = true → x = (s.unitBegin u).unitOf u →
      (∀ (ins : List (Nat × Nat)) (width : Nat → Nat) (reg : Nat → VecReg), uKind u = 1 → (∀ k, width k = x.rec'.width / 4 ^ k % 4) → ins = ((List.range 3).map (fun k => (k, width k))).filter (fun p => p.2 ≠ 0) →
        (∀ k, reg k = if width k = 0 then 0 else (BitVec.ofNat 1024 (leNat (s.tokenData u k (width k))) : VecReg)) →
        (s.fireable u ins (width 3) ends → Ends (exec (.unitFire n) s) (fun v => ∃ a : State, ∃ o, o = (a.fRun x (reg 0) (reg 1) (reg 2) (x.rec'.ops.take x.rec'.nops) (x.r0, x.r1, x.r2, 0, 0)).1 ∧
          s.hasFired v u ins ((List.range (width 3)).map (fun i => leBytes 64 (o.2.2.2.1.toNat / 2 ^ (512 * i)))) ends ∧ (v.unitOf u).r0 = o.1 ∧ (v.unitOf u).r1 = o.2.1 ∧ (v.unitOf u).r2 = o.2.2.1 ∧
          (∃ b, b ≤ 1 ∧ (b = 1 → o.2.2.2.2.testBit 6 = true) ∧ (v.th (uTiller u)).flags = (s.th (uTiller u)).flags ||| (o.2.2.2.2 % 64 ||| b)) ∧ v.cores = s.cores ∧ v.mem = s.mem)) ∧
        ((∃ p ∈ ins, (s.tokensAt u p.1).length < p.2 ∧ ∀ k ∈ s.tokensAt u p.1, k.null = false) → exec (.unitFire n) s = .next s) ∧
        (s.fireable u ins 0 ends → s.creditsAt u 0 (width 3) = false → exec (.unitFire n) s = .next s) ∧
        (ins ≠ [] → (s.unitOf u).fired + 1 = (s.unitOf u).rec'.fires → 0 < width 3 → s.creditsAt u 0 (width 3) = true → (∀ p ∈ ins, ∃ k, (s.tokensAt u p.1).head? = some k ∧ k.null = true ∧ k.last = true) → Ends (exec (.unitFire n) s) (fun v =>
          s.counted v u true ∧ (∀ p ∈ ins, s.popped v u p.1 1) ∧ s.sent v u 0 [s.sends u (List.replicate 64 0) true true] ∧ v.cores = s.cores ∧ v.mem = s.mem)) ∧
        ((s.th (arrCtrl (s.arr r))).st = .running → (s.unitOf u).rec'.fires ≠ 0 → (s.unitOf u).fired + 1 ≠ (s.unitOf u).rec'.fires → (∀ p ∈ ins, p.2 ≤ (s.tokensAt u p.1).length ∧ ∀ k ∈ s.tokensAt u p.1, k.null = false) →
          (∃ p ∈ ins, ∃ k ∈ (s.tokensAt u p.1).take p.2, k.last = true) → Ends (exec (.unitFire n) s) (fun v => (v.th (arrCtrl (s.arr r))).st = .aborting ∧ (v.th (arrCtrl (s.arr r))).err = 0xB ∧ v.units = s.units ∧ v.mem = s.mem))) ∧
      (∀ f M N K nA nB, uKind u = 0 → mmaFmt x.rec'.fmt = some f → (M, N, K) = mmaMnk x.mma f → nA = mTokens f.a (M * K) → nB = mTokens f.b (K * N) → 0 < nA → 0 < nB → x.rec'.opt % 8 = 0 → x.rec'.kgroup ≤ 1 → x.out = [] → (∀ p, sget [] x.stage p = []) →
        s.inQueue u 2 = none → (s.tokensAt u 0).length = nA → (s.tokensAt u 1).length = nB → s.fireable u [(0, nA), (1, nB)] (M * N / 16) ends → Ends (exec (.unitFire n) s) (fun v => ∃ cand : Nat, ∃ A B o, ∃ dA dB : Nat,
          dA = (M * K * efmtBits f.a + 511) / 512 ∧ dB = (K * N * efmtBits f.b + 511) / 512 ∧
          A = ({ data := bytesTo [] 0 (s.tokenData u 0 dA), scale := bytesTo [] 0 (((s.tokensAt u 0).drop dA).flatMap Token.data), rows := M, cols := K, efmt := f.a } : Tile) ∧
          B = ({ data := bytesTo [] 0 (s.tokenData u 1 dB), scale := bytesTo [] 0 (((s.tokensAt u 1).drop dB).flatMap Token.data), rows := K, cols := N, efmt := f.b } : Tile) ∧
          o = mmaPass (f.acc = 2) x.rec'.ftz M N K (List.replicate (M * N) 0) A B cand ∧
          s.hasFired v u [(0, nA), (1, nB)] ((List.range (M * N / 16)).map (fun i => ((List.range 16).map (fun j => o.d.getD (16 * i + j) 0)).flatMap (leBytes 4))) ends ∧
          (v.th (uTiller u)).flags = (s.th (uTiller u)).flags ||| (b2n o.invalidAt.isSome * 256 + b2n (o.flushes != 0) * 512 + b2n o.ovf * 1024) ∧ v.cores = s.cores ∧ v.mem = s.mem)) ∧
      (∀ a h, a = s.unitAddr u x → h = tillerHalf (uTiller u) →
        ((uKind u = 2 ∨ (uKind u = 3 ∧ x.rec'.session = 0xFFFF)) → x.rec'.mode = 0 → s.waveOpen r u = true → s.fireable u [] 1 ends → s.good h a 64 = true → Ends (exec (.unitFire n) s) (fun v =>
          s.hasFired v u [] [s.peek a 64] ends ∧ (v.unitOf u).pos = x.pos + 1 ∧ v.cores = s.cores ∧ v.mem = s.mem)) ∧
        (s.waveOpen r u = false → (uKind u = 2 ∨ uKind u = 3) → x.rec'.mode = 0 → exec (.unitFire n) s = .next s) ∧
        ((uKind u = 2 ∨ (uKind u = 3 ∧ x.rec'.session = 0xFFFF ∧ x.rec'.mcast = none)) → x.rec'.mode = 1 → s.fireable u [(0, 1)] 0 ends → (s.tokenData u 0 1).length = 64 → s.good h a 64 = true → (∀ i j, i < j → j < 64 → s.cellOf (a + i) ≠ s.cellOf (a + j)) →
          Ends (exec (.unitFire n) s) (fun v => s.hasFired v u [(0, 1)] [] ends ∧ s.stores v a (s.tokenData u 0 1) ∧ (v.unitOf u).pos = x.pos + 1 ∧ v.cores = s.cores)) ∧
        (∀ g, uKind u = 3 → x.rec'.session = 0xFFFF → x.rec'.mcast = some g → x.rec'.mode = 1 → s.fireable u [(0, 1)] 0 ends → (s.tokenData u 0 1).length = 64 → a + 64 ≤ 0x400000 → (∀ d ∈ s.mcastAddrs g a, s.good h d 64 = true) →
          Ends (exec (.unitFire n) s) (fun v => s.hasFired v u [(0, 1)] [] ends ∧ (∀ d ∈ s.mcastAddrs g a, ∀ i, i < 64 → v.byteAt (d + i) = (s.tokenData u 0 1).getD i 0) ∧
            (∀ b, (∀ d ∈ s.mcastAddrs g a, ∀ i, i < 64 → s.cellOf b ≠ s.cellOf (d + i)) → v.byteAt b = s.byteAt b) ∧ (v.unitOf u).pos = x.pos + 1 ∧ v.cores = s.cores)) ∧
        (∀ base lo, uKind u = 2 → x.rec'.mode = 2 → base = s.unitBase u x → lo = (match locOf base with | .clm _ o => base - o | _ => base) → (s.tokenData u 0 1).length = 64 →
          (s.fireable u [(0, 1)] 1 ends → (∀ k, k < 16 → fld (s.tokenData u 0 1) (4 * k) 4 = 0xFFFFFFFF ∨ (base + 4 * fld (s.tokenData u 0 1) (4 * k) 4 + 4 ≤ lo + 0x80000 ∧ s.good h (base + 4 * fld (s.tokenData u 0 1) (4 * k) 4) 4 = true)) →
            Ends (exec (.unitFire n) s) (fun v => s.hasFired v u [(0, 1)] [(List.range 16).flatMap (fun k => if fld (s.tokenData u 0 1) (4 * k) 4 = 0xFFFFFFFF then leBytes 4 0 else s.peek (base + 4 * fld (s.tokenData u 0 1) (4 * k) 4) 4)] ends ∧
              v.cores = s.cores ∧ v.mem = s.mem)) ∧
          ((s.th (arrCtrl (s.arr r))).st = .running → (∃ k, (s.tokensAt u 0).head? = some k ∧ k.null = false) → (∃ k, k < 16 ∧ fld (s.tokenData u 0 1) (4 * k) 4 ≠ 0xFFFFFFFF ∧ lo + 0x80000 < base + 4 * fld (s.tokenData u 0 1) (4 * k) 4 + 4) →
            Ends (exec (.unitFire n) s) (fun v => (v.th (arrCtrl (s.arr r))).st = .aborting ∧ (v.th (arrCtrl (s.arr r))).err = 0xA ∧ v.units = s.units ∧ v.mem = s.mem))) ∧
        (∀ op, uKind u = 2 → x.rec'.mode = 3 → aowOpOf x.rec'.aowop = some op → s.fireable u [(0, 1)] 0 ends → s.good h a 64 = true → (∀ k, k < 8 → inStore (a + 8 * k) = true) → a % 8 = 0 → (∀ i j, i < j → j < 64 → s.cellOf (a + i) ≠ s.cellOf (a + j)) →
          Ends (exec (.unitFire n) s) (fun v => s.hasFired v u [(0, 1)] [] ends ∧
            s.stores v a ((List.range 8).flatMap (fun k => leBytes 8 (aowOp op (leNat (s.peek (a + 8 * k) 8)) (fld (s.tokenData u 0 1) (8 * k) 8)).1)) ∧ (v.unitOf u).pos = x.pos + 1 ∧ v.cores = s.cores)) ∧
        (uKind u = 3 → x.rec'.session ≠ 0xFFFF →
          (∀ d, x.rec'.mode = 0 → s.waveOpen r u = true → s.fireable u [] 1 ends → x.fetched.find? (fun p => p.1 = x.wave && p.2.1 = x.pos) = some (x.wave, x.pos, d) → Ends (exec (.unitFire n) s) (fun v => s.hasFired v u [] [d] ends ∧
            (v.unitOf u).pos = x.pos + 1 ∧ (v.unitOf u).fetched = x.fetched.erase (x.wave, x.pos, d) ∧ v.cores = s.cores ∧ v.mem = s.mem)) ∧
          (x.rec'.mode = 1 → s.fireable u [(0, 1)] 0 ends → Ends (exec (.unitFire n) s) (fun v => s.hasFired v u [(0, 1)] [] ends ∧ (v.unitOf u).pos = x.pos + 1 ∧
            (v.unitOf u).outbox = x.outbox ++ [(x.wave, x.pos, a, s.tokenData u 0 1, false)] ∧ v.cores = s.cores ∧ v.mem = s.mem)))) ∧
      (uKind u = 4 → (x.rec'.fires ≠ 0 → ends = decide (x.fired + 1 = x.rec'.fires)) → (x.rec'.fires = 0 → x.seen = []) →
        (∀ d k o, x.rec'.mode = 0 → (s.tokensAt u 0).head? = some d → (s.tokensAt u 2).head? = some k → d.null = false → k.null = false → d.last = ends → k.last = ends → o = (if k.cond then 1 else 0) → s.creditsAt u o 1 = true → (ends = true → s.creditsAt u (1 - o) 1 = true) →
          Ends (exec (.unitFire n) s) (fun v => s.counted v u ends ∧ s.popped v u 0 1 ∧ s.popped v u 2 1 ∧ s.sent v u o [s.sends u d.data ends false] ∧ s.sent v u (1 - o) (if ends then [s.sends u (List.replicate 64 0) true true] else []) ∧
            v.cores = s.cores ∧ v.mem = s.mem)) ∧
        (∀ d k p, x.rec'.mode = 1 → p = (if k.cond then 1 else 0) → (s.tokensAt u p).head? = some d → (s.tokensAt u 2).head? = some k → d.null = false → k.null = false → k.last = ends → (x.rec'.fires = 0 → d.last = ends) → s.creditsAt u 0 1 = true →
          (ends = true → ∃ e, (s.tokensAt u (1 - p)).head? = some e ∧ e.last = true) → Ends (exec (.unitFire n) s) (fun v => s.counted v u ends ∧ s.popped v u 2 1 ∧ s.popped v u p 1 ∧ s.popped v u (1 - p) (if ends then 1 else 0) ∧
            s.sent v u 0 [s.sends u d.data ends false] ∧ v.cores = s.cores ∧ v.mem = s.mem)) ∧
        (∀ d e k, x.rec'.mode = 2 → (s.tokensAt u 0).head? = some d → (s.tokensAt u 1).head? = some e → (s.tokensAt u 2).head? = some k → d.null = false → e.null = false → k.null = false → d.last = ends → e.last = ends → k.last = ends → s.creditsAt u 0 1 = true →
          Ends (exec (.unitFire n) s) (fun v => s.counted v u ends ∧ s.popped v u 0 1 ∧ s.popped v u 1 1 ∧ s.popped v u 2 1 ∧ s.sent v u 0 [s.sends u (if k.cond then e else d).data ends false] ∧ v.cores = s.cores ∧ v.mem = s.mem)) ∧
        (∀ d c, x.rec'.mode = 3 → x.loopLeft = none → (s.tokensAt u 0).head? = some d → d.null = false → d.last = ends → c = (if x.rec'.count ≠ 0 then x.rec'.count else fld d.data 0 4) → c < 512 → s.creditsAt u 0 (c + 1) = true → s.creditsAt u 1 1 = true →
          Ends (exec (.unitFire n) s) (fun v => s.counted v u ends ∧ s.popped v u 0 1 ∧ s.sent v u 0 (List.replicate c (s.sends u (leBytes 64 1) false false) ++ [s.sends u (leBytes 64 0) ends false]) ∧
            s.sent v u 1 [s.sends u d.data ends false] ∧ (v.unitOf u).loopLeft = none ∧ v.cores = s.cores ∧ v.mem = s.mem))))

/-- Setting EN trains the port and sends its IDENT; a cleared EN hands an UP link over and disables any other; RETRAIN trains
again; a refused port retrains. A peer's IDENT is refused with the code R343 gives, makes the port MISWIRED where another peer
is expected, else UP, with the destinations that now choose it held. A good flit with the expected SEQ is accepted, a packet in
it for another module leaving with HOPS counted by the first choice that is UP, an ACK going out with the 64th; any other is
discarded with one NAK; a protocol error, the eighth NAK of one SEQ, a stalled ACK, the last lane's loss and a peer's withdrawal
hand the port over. A NAK resends from its SEQ, an ACK frees the buffer and lets waiting packets go, a lost lane leaves the
rest. In HANDOVER the port keeps its replay buffer and a LINK_STATE goes to the peer by another port; the peer's LINK_STATE
discards what it received and sends the rest by the new choices, a time-out counts the rest as lost, and the port is DOWN or
trains again. A restored destination's hold ends. None of these changes memory or a core. Where packets wait at the port, none
of them is a multicast. (R339, R340, R341, R343, R344, R345, R347, R348, R417) -/
def Obligations.StolonLink : Prop :=
  (∀ (s : State) p x, p < 32 → x = s.port p →
      (s.portReach p = false → exec (.stpEnable p) s = .next s ∧ exec (.stpDisable p) s = .next s ∧ exec (.stpRetrain p) s = .next s) ∧
      (s.portReach p = true →
        (x.en = false → s.linkPort p = true → x.st ≠ .handover → Ends (exec (.stpEnable p) s) (fun u => u.port p = { x with en := true, st := .training, lanes := s.fullLanes p, lanesDropped := [], refusal := 0, retrain := false, ctlOut := x.ctlOut ++ [.ident] } ∧
          (∀ q, q ≠ p → u.port q = s.port q) ∧ u.cores = s.cores ∧ u.mem = s.mem)) ∧
        (x.en = false → s.linkPort p = true → x.st = .handover → Ends (exec (.stpEnable p) s) (fun u => u.port p = { x with en := true, retrain := true } ∧ u.mem = s.mem)) ∧
        (x.en = true ∨ s.linkPort p = false → Ends (exec (.stpEnable p) s) (fun u => u.port p = { x with en := true } ∧ u.mem = s.mem)) ∧
        (x.en = true → s.linkPort p = true → x.st = .up → (∀ k ∈ x.txWait, k.mcTag = none) → Ends (exec (.stpDisable p) s) (fun u => s.handsOver u p false ∧ (u.port p).en = false ∧
          ∀ q, (s.choices x.peerId).find? (fun r => decide (r ≠ p) && s.portUp r) = some q → (s.port q).txWait = [] → (s.port q).kept.length < s.replayRoom q → (s.port q).c0Sent < (s.port q).c0Allot →
            (u.port q).out = (s.port q).out ++ [{ dest := x.peerId, cls := .control, hops := 1, body := .linkState p ((x.rxSeq + 4095) % 4096) }])) ∧
        (x.en = true → s.linkPort p = true → x.st ≠ .up → x.st ≠ .handover → Ends (exec (.stpDisable p) s) (fun u =>
          u.port p = { x with en := false, st := .disabled, lanes := 0, kept := [], txSeq := 0, rxSeq := 0, naks := 0, discarding := false, sinceAck := 0 } ∧ (∀ q, q ≠ p → u.port q = s.port q) ∧ u.mem = s.mem)) ∧
        (x.en = false ∨ s.linkPort p = false ∨ x.st = .handover → Ends (exec (.stpDisable p) s) (fun u => u.port p = { x with en := false } ∧ u.mem = s.mem)) ∧
        (x.en = true → s.linkPort p = true → x.st ≠ .handover → Ends (exec (.stpRetrain p) s) (fun u => u.port p = { x with st := .training, lanes := s.fullLanes p, lanesDropped := [], refusal := 0, retrain := false, ctlOut := x.ctlOut ++ [.ident] } ∧ u.mem = s.mem)) ∧
        (x.en = true → s.linkPort p = true → x.st = .handover → Ends (exec (.stpRetrain p) s) (fun u => u.port p = { x with retrain := true } ∧ u.mem = s.mem)) ∧
        (x.en = false ∨ s.linkPort p = false → exec (.stpRetrain p) s = .next s)) ∧
      (s.up = true →
        (x.st = .training →
          (∀ (id : Ident) c y, c = (if field id.ident 48 16 ≠ 0x53A1 then 1 else if field id.ident 28 4 = 0 then 2 else if id.module.toNat = s.moduleId then 3 else if id.bond ≠ s.bonded p then 4 else 0) →
            y = { x with peerId := id.module.toNat, peerPort := id.port.toNat, peerIdent := id.ident } →
            (c ≠ 0 → Ends (exec (.identReceive p id) s) (fun u => u.port p = { y with st := .refused, refusal := c } ∧ u.mem = s.mem)) ∧
            (c = 0 → sget 0xFFFF s.loader.peers p ≠ 0xFFFF → sget 0xFFFF s.loader.peers p ≠ id.module.toNat → Ends (exec (.identReceive p id) s) (fun u => u.port p = { y with st := .miswired } ∧ u.mem = s.mem)) ∧
            (c = 0 → sget 0xFFFF s.loader.peers p = 0xFFFF ∨ sget 0xFFFF s.loader.peers p = id.module.toNat → Ends (exec (.identReceive p id) s) (fun u => u.port p = { y with st := .up, proto := min 1 (field id.ident 28 4) } ∧
              (∀ q, q ≠ p → u.port q = s.port q) ∧ (∃ h ∈ u.holds, h.port = p ∧ h.restore = true ∧ h.before = s.upPorts ∧ h.packets = [] ∧ h.done = []) ∧ u.cores = s.cores ∧ u.mem = s.mem))) ∧
          Ends (exec (.identTimeout p) s) (fun u => u.port p = { x with st := .refused, refusal := 5 } ∧ u.mem = s.mem)) ∧
        (x.st ≠ .training → exec (.identTimeout p) s = .next s ∧ ∀ id, exec (.identReceive p id) s = .next s) ∧
        (x.st = .refused → x.en = true → Ends (exec (.refusedRetrain p) s) (fun u => u.port p = { x with st := .training, lanes := s.fullLanes p, lanesDropped := [], refusal := 0, retrain := false, ctlOut := x.ctlOut ++ [.ident] } ∧ u.mem = s.mem)) ∧
        (x.st ≠ .refused ∨ x.en = false → exec (.refusedRetrain p) s = .next s) ∧
        (x.st ≠ .up → exec (.ackTimer p) s = .next s ∧ (∀ f, exec (.dataFlitReceive p f) s = .next s) ∧ (∀ n, exec (.nakReceive p n) s = .next s) ∧ (∀ n, exec (.ackReceive p n) s = .next s) ∧ exec (.withdrawFlitReceive p) s = .next s ∧ exec (.ackStallTimeout p) s = .next s) ∧
        (x.st = .up →
          (∀ (f : FlitIn), f.good = false ∨ (f.seq.toNat ≠ x.rxSeq ∧ x.discarding = false) → Ends (exec (.dataFlitReceive p f) s) (fun u => u.port p = { x with ctlOut := x.ctlOut ++ [.nak x.rxSeq], discarding := true } ∧ (∀ q, q ≠ p → u.port q = s.port q) ∧ u.mem = s.mem)) ∧
          (∀ (f : FlitIn), f.good = true → f.seq.toNat ≠ x.rxSeq → x.discarding = true → exec (.dataFlitReceive p f) s = .next s) ∧
          (∀ (f : FlitIn), f.good = true → f.seq.toNat = x.rxSeq → f.protocolError = false →
            ((∀ k ∈ f.packets, k.dest.toNat = s.moduleId) → Ends (exec (.dataFlitReceive p f) s) (fun u => (u.port p = if x.sinceAck + 1 < 64 then { x with rxSeq := (x.rxSeq + 1) % 4096, discarding := false, sinceAck := x.sinceAck + 1 }
              else { x with rxSeq := (x.rxSeq + 1) % 4096, discarding := false, sinceAck := 0, ackSent := x.rxSeq, ctlOut := x.ctlOut ++ [.ack x.rxSeq] }) ∧ (∀ q, q ≠ p → u.port q = s.port q) ∧ u.cores = s.cores ∧ u.mem = s.mem)) ∧
            (∀ k q, f.packets = [k] → k.dest.toNat ≠ s.moduleId → k.hops.toNat < 31 → q ≠ p → s.wayOpen k.dest.toNat q = true → Ends (exec (.dataFlitReceive p f) s) (fun u => (u.port p).rxSeq = (x.rxSeq + 1) % 4096 ∧
              (u.port q).out = (s.port q).out ++ [{ dest := k.dest.toNat, cls := k.cls, hops := k.hops.toNat + 1, body := .transit k.origin.toNat k.tag k.type.toNat }] ∧ (∀ r, r ≠ p → r ≠ q → u.port r = s.port r) ∧ u.cores = s.cores ∧ u.mem = s.mem))) ∧
          (∀ n y, y = (if x.naks ≠ 0 ∧ x.nakSeq = BitVec.toNat n then x.naks + 1 else 1) → y < 8 → Ends (exec (.nakReceive p n) s) (fun u => u.port p = { x with nakSeq := BitVec.toNat n, naks := y, replays := satAdd 32 x.replays (x.kept.dropWhile (fun k => k.seq ≠ BitVec.toNat n)).length, out := x.out ++ (x.kept.dropWhile (fun k => k.seq ≠ BitVec.toNat n)).map (fun k => { k.packet with hops := k.packet.hops + 1 }) } ∧ (∀ q, q ≠ p → u.port q = s.port q) ∧ u.cores = s.cores ∧ u.mem = s.mem)) ∧
          (∀ n m, x.kept.any (fun k => k.seq = BitVec.toNat n) = true → m = min x.txWait.length (s.replayRoom p - (afterSeq x.kept (BitVec.toNat n)).length) → Ends (exec (.ackReceive p n) s) (fun u => (u.port p).naks = 0 ∧ (u.port p).txWait = x.txWait.drop m ∧
            (u.port p).kept.take (afterSeq x.kept (BitVec.toNat n)).length = afterSeq x.kept (BitVec.toNat n) ∧ (u.port p).kept.length = (afterSeq x.kept (BitVec.toNat n)).length + m ∧
            (u.port p).out = x.out ++ (x.txWait.take m).map (fun k => { k with hops := k.hops + 1 }) ∧ (∀ q, q ≠ p → u.port q = s.port q) ∧ u.cores = s.cores ∧ u.mem = s.mem)) ∧
          (∀ n, x.kept.any (fun k => k.seq = BitVec.toNat n) = false → exec (.ackReceive p n) s = .next s) ∧
          Ends (exec (.ackTimer p) s) (fun u => u.port p = { x with ctlOut := x.ctlOut ++ [.ack ((x.rxSeq + 4095) % 4096)], sinceAck := 0, ackSent := (x.rxSeq + 4095) % 4096 } ∧ (∀ q, q ≠ p → u.port q = s.port q) ∧ u.mem = s.mem) ∧
          ((∀ k ∈ x.txWait, k.mcTag = none) →
            (∀ (f : FlitIn), f.good = true → f.seq.toNat = x.rxSeq → f.protocolError = true → Ends (exec (.dataFlitReceive p f) s) (fun u => s.handsOver u p true)) ∧
            (∀ n, 7 ≤ x.naks → x.nakSeq = BitVec.toNat n → Ends (exec (.nakReceive p n) s) (fun u => s.handsOver u p false)) ∧
            (x.kept ≠ [] → Ends (exec (.ackStallTimeout p) s) (fun u => s.handsOver u p false)) ∧
            (∀ l, x.lanes = 1 → l < s.fullLanes p → x.lanesDropped.contains l = false → Ends (exec (.laneDrop p l) s) (fun u => s.handsOver u p false ∧ (u.port p).lanes = 0)) ∧
            Ends (exec (.withdrawFlitReceive p) s) (fun u => s.handsOver u p false)) ∧
          (∀ l, 2 ≤ x.lanes → l < s.fullLanes p → x.lanesDropped.contains l = false → Ends (exec (.laneDrop p l) s) (fun u => u.port p = { x with lanes := x.lanes - 1, laneDrops := satAdd 8 x.laneDrops 1, lanesDropped := nins l x.lanesDropped, ctlOut := x.ctlOut ++ [.lanes (x.lanes - 1)] } ∧
            (∀ q, q ≠ p → u.port q = s.port q) ∧ u.cores = s.cores ∧ u.mem = s.mem))) ∧
        (x.st = .handover → (∀ h ∈ s.holds, h.port = p → h.restore = true ∨ h.packets = []) →
          (∀ (n : BitVec 12), (∀ k ∈ afterSeq x.kept n.toNat, k.packet.mcTag = none ∧ (s.routeOf k.packet.dest).isSome ∧ k.packet.hops < 31) → Ends (exec (.linkStateReceive p n) s) (fun u => (u.port p).st = (if x.retrain && x.en then .training else .down) ∧
            (u.port p).kept = [] ∧ (u.port p).txSeq = 0 ∧ (u.port p).rxSeq = 0 ∧ (u.port p).retrain = false ∧ (∀ h ∈ u.holds, h.port = p → h.restore = true) ∧ u.cores = s.cores ∧ u.mem = s.mem ∧
            ∀ k q, afterSeq x.kept n.toNat = [k] → s.routeOf k.packet.dest = some q → (s.port q).txWait = [] → (s.port q).kept.length < s.replayRoom q → (u.port q).out = (s.port q).out ++ [{ k.packet with hops := k.packet.hops + 1 }])) ∧
          ((∀ k ∈ x.kept, k.packet.mcTag = none) → Ends (exec (.linkStateTimeout p) s) (fun u => (u.port p).st = (if x.retrain && x.en then .training else .down) ∧ (u.port p).kept = [] ∧ (u.port p).txSeq = 0 ∧ (u.port p).rxSeq = 0 ∧
            (u.portNode (p / 2)).lost = satAdd 16 (s.portNode (p / 2)).lost x.kept.length ∧ (∀ q, q ≠ p → u.port q = s.port q) ∧ (∀ h ∈ u.holds, h.port = p → h.restore = true) ∧ u.cores = s.cores ∧ u.mem = s.mem))) ∧
        (x.st ≠ .handover → exec (.linkStateTimeout p) s = .next s ∧ ∀ n, exec (.linkStateReceive p n) s = .next s))) ∧
  (∀ (s : State) dest, s.up = true →
      (s.holds.findIdx? (fun h => h.restore && s.covers h dest) = none → exec (.routeHoldExpire dest) s = .next s) ∧
      (∀ i h s1, s.holds.findIdx? (fun h => h.restore && s.covers h dest) = some i → s.holds[i]? = some h → s1 = s.modHold i (fun h => { h with done := nins dest h.done, packets := h.packets.filter (fun k => k.1.dest ≠ dest) }) →
        (h.packets.filter (fun k => k.1.dest = dest) = [] → exec (.routeHoldExpire dest) s = .next s1) ∧
        (∀ k q, h.packets.filter (fun k => k.1.dest = dest) = [(k, false)] → s1.wayOpen dest q = true → k.hops < 31 → Ends (exec (.routeHoldExpire dest) s) (fun u => s.leftBy u q k ∧ u.holds = s1.holds ∧ u.cores = s.cores ∧ u.mem = s.mem))))

/-- A request of a requester that waits to make it is checked at its session's home: the first failing check answers it, an
access with REMOTE, and counts in the session's entry; a home in a parked half answers PARKED. A request that passes takes the
lowest free tag and its credits and leaves by its route; with no share or tag left it waits, without credits a CREDIT_REQ asks
for the session's N, with no route it is answered UNREACHABLE. A response frees its tag and answers the requester with its data
or code; a tag that times out is reclaimed with TIMEOUT, and a response for it counts in LATE. OPEN refuses with R350's codes or
copies the template into the entry, counters zero; CLOSE closes at once or once no tag is held, its credits going back, and its
time-out reclaims every tag. A grant adds to HELD, credits of another generation being dropped; CREDIT_BUSY is asked again
later; a grant no longer wanted goes back. MC_ACKs complete a multicast's tag, or this module's own MC_ACK. Memory and every
other port stay as they were. (R349, R350, R351, R352, R353, R354, R355, R358, R360, R363) -/
def Obligations.StolonSessions : Prop :=
  (∀ (s : State) (r : SessReq) h e, r.sess < 16384 → h = sessHome r.sess → e = s.session r.sess →
      (s.up = false ∨ s.wantsReq r = false ∨ s.inHand r = true → exec (.sessionRequest r) s = .next s) ∧
      (s.up = true → s.wantsReq r = true → s.inHand r = false →
        (s.blocked (nodeHalf (portNodeNode (2 * h))) = true → ∀ id, r.from' = .access id → Ends (exec (.sessionRequest r) s) (fun u => u.reqs = s.answered id dParked [] ∧ (∀ k, u.session k = s.session k) ∧ (∀ q, u.port q = s.port q) ∧ u.mem = s.mem)) ∧
        (s.blocked (nodeHalf (portNodeNode (2 * h))) = false →
          (∀ c, c = (if e.st ≠ 1 ∨ e.module ≠ r.dest.toNat then 1 else if (match r.kind with | .read => e.rights.testBit 0 | .write _ => e.rights.testBit 1 | .aow _ _ => e.rights.testBit 2) = false then 2
              else if r.offset < e.base ∨ e.base + e.length < r.offset + r.length then 3 else 0) →
            (c ≠ 0 → Ends (exec (.sessionRequest r) s) (fun u => (u.session r.sess).lastErr = c ∧ (u.session r.sess).errors = satAdd 32 e.errors 1 ∧ (u.session r.sess).outstanding = e.outstanding ∧ (u.portNode h).tags = (s.portNode h).tags ∧
              (u.portNode h).waiting = (s.portNode h).waiting ∧ (∀ id, r.from' = .access id → u.reqs = s.answered id dRemote []) ∧ (∀ q, u.port q = s.port q) ∧ u.mem = s.mem)) ∧
            (c = 0 → (s.portNode h).waiting = [] →
              (∀ n q, (s.portNode h).freeTag = some n → s.mayLeave r = true → s.wayOpen e.module q = true → Ends (exec (.sessionRequest r) s) (fun u => u.session r.sess = { e with held := e.held - s.creditsOf r, outstanding := e.outstanding + 1 } ∧
                sget none (u.portNode h).tags n = some { sess := some r.sess, req := r.from', write := reqWrites r, branches := [], failed := false } ∧ (u.portNode h).waiting = [] ∧
                s.leftBy u q { dest := e.module, cls := e.cls r, hops := 0, body := .sess ⟨h, n⟩ r.offset r.length (if s.creditsOf r = 0 then 0 else e.heldGen) r.kind } ∧ u.reqs = s.reqs ∧ u.mem = s.mem)) ∧
              (∀ n, (s.portNode h).freeTag = some n → s.mayLeave r = true → (∀ x ∈ s.holds, s.covers x e.module = false) → s.routeOf e.module = none → Ends (exec (.sessionRequest r) s) (fun u => (u.session r.sess).lastErr = 5 ∧
                (u.session r.sess).errors = satAdd 32 e.errors 1 ∧ (u.session r.sess).outstanding = e.outstanding ∧ (u.session r.sess).held = e.held ∧ (u.portNode h).tags = (s.portNode h).tags ∧ (u.portNode h).waiting = [] ∧
                (∀ id, r.from' = .access id → u.reqs = s.answered id dRemote []) ∧ (∀ q, u.port q = s.port q) ∧ u.mem = s.mem)) ∧
              (s.lacksCredit r = false → s.mayLeave r = false ∨ (s.portNode h).freeTag = none → Ends (exec (.sessionRequest r) s) (fun u => (u.portNode h).waiting = [r] ∧ (u.portNode h).tags = (s.portNode h).tags ∧ u.session r.sess = e ∧
                (∀ q, u.port q = s.port q) ∧ u.mem = s.mem)) ∧
              (∀ q, s.lacksCredit r = true → e.asked = false → s.wayOpen e.module q = true → Ends (exec (.sessionRequest r) s) (fun u => (u.portNode h).waiting = [r] ∧ u.session r.sess = { e with asked := true, busyRetry := false } ∧
                s.leftBy u q { dest := e.module, cls := .request, hops := 0, body := .creditReq r.sess e.handle e.credits } ∧ u.mem = s.mem))))))) ∧
  (∀ (s : State) (t : Tag) u0 k e, t.node < 16 → t.num < 8192 → s.up = true → e = s.session k → (s.portNode t.node).waiting = [] → s.loader.closing.contains k = false →
      (sget none (s.portNode t.node).tags t.num = some u0 → u0.sess = some k → ∀ (c : Instr) (code : Nat) (data : List Byte) (late : Bool),
        (c = .tagTimeout t ∧ code = 4 ∧ data = [] ∧ late = true) ∨ (∃ st, c = .rdRspReceive t st data ∧ code = BitVec.toNat st ∧ late = false) ∨ (∃ st, c = .wrAckReceive t st ∧ code = BitVec.toNat st ∧ data = [] ∧ late = false) → Ends (exec c s) (fun u =>
          sget none (u.portNode t.node).tags t.num = none ∧ (late = true → sget none (u.portNode t.node).reclaimed t.num = some k) ∧ (u.session k).outstanding = e.outstanding - 1 ∧
          (u.session k).st = (if e.st = 2 ∧ e.outstanding - 1 = 0 then 0 else e.st) ∧ (u.session k).lastErr = (if code = 0 ∨ code = 0xC ∨ code = 0xD then e.lastErr else code) ∧
          (u.session k).errors = (if code = 0 ∨ code = 0xC ∨ code = 0xD then e.errors else satAdd 32 e.errors 1) ∧ (∀ id, u0.req = .access id → u.reqs = s.answered id (if code = 0 then 0 else dRemote) data) ∧
          (∀ q, u.port q = s.port q) ∧ u.mem = s.mem)) ∧
      (sget none (s.portNode t.node).tags t.num = none → exec (.tagTimeout t) s = .next s ∧
        (∀ c : Instr, (∃ st d, c = .rdRspReceive t st d) ∨ (∃ st, c = .wrAckReceive t st) →
          (sget none (s.portNode t.node).reclaimed t.num = some k → Ends (exec c s) (fun u => u.session k = { e with late := satAdd 32 e.late 1 } ∧ sget none (u.portNode t.node).reclaimed t.num = none ∧ u.reqs = s.reqs ∧ (∀ q, u.port q = s.port q) ∧ u.mem = s.mem)) ∧
          (sget none (s.portNode t.node).reclaimed t.num = none → exec c s = .next s)))) ∧
  (∀ (s : State) n (w : Word) k m tp, n < 16 → k = field w 4 14 → m = field w 18 14 → tp = field w 32 10 →
      (s.portReach (2 * n) = false ∨ (s.portNode n).busy = true → exec (.sessOpen n w) s = .next s ∧ exec (.sessClose n w) s = .next s) ∧
      (field w 0 3 ≠ 1 → exec (.sessOpen n w) s = .next s) ∧ (field w 0 3 ≠ 2 → exec (.sessClose n w) s = .next s) ∧
      (s.portReach (2 * n) = true → (s.portNode n).busy = false →
        (field w 0 3 = 1 → ∀ c, c = (if sessHome k ≠ n then 1 else if (s.session k).st ≠ 0 then 2 else if (sget {} s.loader.templates tp).valid = false then 3 else if m = s.moduleId ∨ m = 0x3FFF ∨ 16382 < m then 4 else 0) → Ends (exec (.sessOpen n w) s) (fun u =>
          (u.portNode n).result = c ∧ (∀ j, j ≠ k ∨ c ≠ 0 → u.session j = s.session j) ∧ (c = 0 → ∃ st, u.session k = { s.session k with st := 1, rights := (sget {} s.loader.templates tp).rights, template := tp, module := m, tagShare := (sget {} s.loader.templates tp).tagShare, base := (sget {} s.loader.templates tp).base, length := (sget {} s.loader.templates tp).length, credit := (sget {} s.loader.templates tp).credit, held := 0, outstanding := 0, errors := 0, late := 0, opened := st, asked := false, busyRetry := false }) ∧
          (∀ q, u.port q = s.port q) ∧ u.mem = s.mem)) ∧
        (field w 0 3 = 2 → (sessHome k ≠ n → Ends (exec (.sessClose n w) s) (fun u => (u.portNode n).result = 1 ∧ (∀ j, u.session j = s.session j) ∧ u.mem = s.mem)) ∧
          (sessHome k = n → (s.session k).st ≠ 1 → Ends (exec (.sessClose n w) s) (fun u => (u.portNode n).result = 0 ∧ (u.portNode n).busy = false ∧ (∀ j, u.session j = s.session j) ∧ u.mem = s.mem)) ∧
          (sessHome k = n → (s.session k).st = 1 → (∀ r ∈ (s.portNode n).waiting, r.sess ≠ k) → s.loader.closing.contains k = false → (s.session k).held = 0 ∨ (∃ q, s.wayOpen (s.session k).module q = true) → Ends (exec (.sessClose n w) s) (fun u =>
            (u.portNode n).result = 0 ∧ (u.session k).held = 0 ∧ (u.session k).st = (if (s.session k).outstanding = 0 then 0 else 2) ∧ (u.portNode n).busy = decide ((s.session k).outstanding ≠ 0) ∧ (u.portNode n).tags = (s.portNode n).tags ∧
            (∀ j, j ≠ k → u.session j = s.session j) ∧ ((s.session k).held = 0 → ∀ q, u.port q = s.port q) ∧
            (∀ q, (s.session k).held ≠ 0 → s.wayOpen (s.session k).module q = true → s.leftBy u q { dest := (s.session k).module, cls := .request, hops := 0, body := .creditRet (s.session k).handle (s.session k).held (s.session k).heldGen }) ∧ u.mem = s.mem))))) ∧
  (∀ (s : State) k e, k < 16384 → e = s.session k →
      (e.st = 2 → s.up = true → s.sessTags k ≠ [] → e.outstanding = (s.sessTags k).length → swf none (s.portNode (sessHome k)).tags = true → (s.portNode (sessHome k)).waiting = [] → s.loader.closing.contains k = false → Ends (exec (.sessCloseTimeout k) s) (fun u =>
        (u.session k).st = 0 ∧ (u.session k).outstanding = 0 ∧ (u.session k).lastErr = 4 ∧ (∀ t ∈ s.sessTags k, sget none (u.portNode t.node).tags t.num = none ∧ sget none (u.portNode t.node).reclaimed t.num = some k) ∧ (∀ q, u.port q = s.port q) ∧ u.mem = s.mem)) ∧
      (e.st ≠ 2 → exec (.sessCloseTimeout k) s = .next s) ∧
      (∀ q, s.up = true → e.st = 1 → e.busyRetry = true → s.wayOpen e.module q = true → Ends (exec (.creditBusyRetry k) s) (fun u => u.session k = { e with asked := true, busyRetry := false } ∧
        s.leftBy u q { dest := e.module, cls := .request, hops := 0, body := .creditReq k e.handle e.credits } ∧ u.mem = s.mem)) ∧
      (e.st ≠ 1 ∨ e.busyRetry = false → exec (.creditBusyRetry k) s = .next s) ∧
      (∀ (st : BitVec 8) n (gen : BitVec 4), s.up = true →
        (e.st = 1 → e.asked = true → (s.portNode (sessHome k)).waiting = [] →
          (st = 0 → Ends (exec (.creditGrantReceive k st n gen) s) (fun u => u.session k = { e with asked := false, heldGen := gen.toNat, held := min ((if e.heldGen = gen.toNat then e.held else 0) + n) 65535 } ∧ (∀ q, u.port q = s.port q) ∧ u.mem = s.mem)) ∧
          (st = 0xD → Ends (exec (.creditGrantReceive k st n gen) s) (fun u => u.session k = { e with busyRetry := true } ∧ (∀ q, u.port q = s.port q) ∧ u.mem = s.mem)) ∧
          (st ≠ 0 → st ≠ 0xD → Ends (exec (.creditGrantReceive k st n gen) s) (fun u => u.session k = { e with asked := false, busyRetry := false } ∧ (∀ q, u.port q = s.port q) ∧ u.mem = s.mem))) ∧
        (e.st ≠ 1 ∨ e.asked = false → (∀ q, st = 0 → n ≠ 0 → s.wayOpen e.module q = true → Ends (exec (.creditGrantReceive k st n gen) s) (fun u => u.session k = e ∧ s.leftBy u q { dest := e.module, cls := .request, hops := 0, body := .creditRet e.handle n gen.toNat } ∧ u.mem = s.mem)) ∧
          (st ≠ 0 ∨ n = 0 → exec (.creditGrantReceive k st n gen) s = .next s)))) ∧
  (∀ (s : State) p (t : Tag) (f : Bool), p < 32 → t.node < 16 → t.num < 8192 → s.receives p = true →
      (∀ u0, sget none (s.portNode t.node).tags t.num = some u0 → u0.sess = none → u0.branches.contains p = true →
        (u0.branches.erase p ≠ [] → Ends (exec (.mcAckReceive p t f) s) (fun u => sget none (u.portNode t.node).tags t.num = some { u0 with branches := u0.branches.erase p, failed := u0.failed || f } ∧ u.reqs = s.reqs ∧ u.mem = s.mem)) ∧
        (u0.branches.erase p = [] → (s.portNode t.node).waiting = [] → Ends (exec (.mcAckReceive p t f) s) (fun u => sget none (u.portNode t.node).tags t.num = none ∧ (∀ q, u.port q = s.port q) ∧
          (∀ c b, u0.req = .dma c b → u.chan c = (s.answerDma c b (if u0.failed || f then 0xC else 0) []).chan c) ∧ u.mem = s.mem))) ∧
      (∀ m, sget none (s.portNode t.node).tags t.num = none → s.mcPending = [m] → m.tag = t → m.left.contains p = true →
        (m.left.erase p ≠ [] → Ends (exec (.mcAckReceive p t f) s) (fun u => u.mcPending = [{ m with left := m.left.erase p, failed := m.failed || f }] ∧ (∀ q, u.port q = s.port q) ∧ u.mem = s.mem)) ∧
        (m.left.erase p = [] → s.portUp m.port = true → (s.port m.port).txWait = [] → (s.port m.port).kept.length < s.replayRoom m.port → Ends (exec (.mcAckReceive p t f) s) (fun u => u.mcPending = [] ∧
          s.leftBy u m.port { dest := m.origin, cls := .response, hops := 0, body := .mcAck t (m.failed || f) } ∧ u.mem = s.mem))))

/-- On a port that receives, with the way back open: a request in the withdrawing module is answered WITHDRAWN, one that no
EXPOSE record allows or that touches the control space TARGET_DENIED, with memory as it was; a read of readable bytes is
answered with them and one that meets an error with its fabric code; a write stores its bytes under the inbox rules with the
packet's GEN and an AOW does its operation, each answered with WR_ACK, a refused credit included. An increment that a COUNTERS
record allows goes to its tiller in class 0 and one that none allows is counted in C0_DENY. A multicast through an invalid group
is answered PARTIAL; else its bytes are stored at each member of the local group, it goes on by the other members' ports with
HOPS counted, and its MC_ACK leaves once both are done. CREDIT_REQ is granted the smaller of its count and AVAIL, joins the
list, or is refused; CREDIT_RET gives credits of the current generation back. Each microsecond up to C0_ALLOT held class-0
packets leave. (R217, R223, R228, R230, R353, R359, R360, R361, R362, R363, R417) -/
def Obligations.StolonPackets : Prop :=
  (∀ (s : State) p q (k : RemoteReq), p < 32 → s.receives p = true → s.wayOpen k.origin q = true →
      (∀ c, (s.rel.st ≠ 0 ∧ c = 0xB) ∨ (s.rel.st = 0 ∧ c = 6 ∧ touchesCtl k.offset k.length = true) ∨ (s.rel.st = 0 ∧ c = 6 ∧ s.exposed 0 k.origin k.offset k.length = false) → Ends (exec (.rdReceive p k) s) (fun u =>
        s.leftBy u q { dest := k.origin, cls := .response, hops := 0, body := .rdRsp k.tag c [] } ∧ u.cores = s.cores ∧ u.mem = s.mem)) ∧
      (s.rel.st = 0 → s.exposed 0 k.origin k.offset k.length = true → touchesCtl k.offset k.length = false →
        (s.good (portHalf p) k.offset k.length = true → Ends (exec (.rdReceive p k) s) (fun u => s.leftBy u q { dest := k.origin, cls := .response, hops := 0, body := .rdRsp k.tag 0 (s.peek k.offset k.length) } ∧ u.cores = s.cores ∧ u.mem = s.mem)) ∧
        (∀ e, s.readAcc (portHalf p) k.offset k.length = .error e → Ends (exec (.rdReceive p k) s) (fun u => s.leftBy u q { dest := k.origin, cls := .response, hops := 0, body := .rdRsp k.tag (fabricCode e) [] } ∧ u.cores = s.cores ∧ u.mem = s.mem))) ∧
      (∀ c op, (s.rel.st ≠ 0 ∧ c = 0xB) ∨ (s.rel.st = 0 ∧ c = 6 ∧ touchesCtl k.offset k.data.length = true) →
        Ends (exec (.wrReceive p k) s) (fun u => s.leftBy u q { dest := k.origin, cls := .response, hops := 0, body := .wrAck k.tag c } ∧ u.tillers = s.tillers ∧ u.cores = s.cores ∧ u.mem = s.mem) ∧
        Ends (exec (.aowPacketReceive p op k) s) (fun u => s.leftBy u q { dest := k.origin, cls := .response, hops := 0, body := .wrAck k.tag c } ∧ u.tillers = s.tillers ∧ u.cores = s.cores ∧ u.mem = s.mem)) ∧
      (s.rel.st = 0 → s.exposed 1 k.origin k.offset k.data.length = false → Ends (exec (.wrReceive p k) s) (fun u => s.leftBy u q { dest := k.origin, cls := .response, hops := 0, body := .wrAck k.tag 6 } ∧ u.tillers = s.tillers ∧ u.cores = s.cores ∧ u.mem = s.mem)) ∧
      (∀ op, s.rel.st = 0 → s.exposed 2 k.origin k.offset k.data.length = false ∨ k.offset % 8 ≠ 0 ∨ k.data.length % 8 ≠ 0 → Ends (exec (.aowPacketReceive p op k) s) (fun u =>
        s.leftBy u q { dest := k.origin, cls := .response, hops := 0, body := .wrAck k.tag 6 } ∧ u.tillers = s.tillers ∧ u.cores = s.cores ∧ u.mem = s.mem)) ∧
      (s.rel.st = 0 → s.exposed 1 k.origin k.offset k.data.length = true → touchesCtl k.offset k.data.length = false → s.good (portHalf p) k.offset k.data.length = true → (∀ i j, i < j → j < k.data.length → s.cellOf (k.offset + i) ≠ s.cellOf (k.offset + j)) →
        ((∀ y ∈ cutAt 128 k.offset k.data.length, s.routeErr (portHalf p) y.1 = none ∧ s.creditCheck none y.1 y.2 (some k.gen) = .ok none) → Ends (exec (.wrReceive p k) s) (fun u => s.stores u k.offset k.data ∧
          s.leftBy u q { dest := k.origin, cls := .response, hops := 0, body := .wrAck k.tag 0 } ∧ u.tillers = s.tillers ∧ u.cores = s.cores)) ∧
        (∀ T i, cutAt 128 k.offset k.data.length = [(k.offset, k.data.length)] → s.routeErr (portHalf p) k.offset = none → s.creditCheck none k.offset k.data.length (some k.gen) = .ok (some (T, i)) → (s.inbox T i).valid = true → (s.inbox T i).waiters = [] →
          Ends (exec (.wrReceive p k) s) (fun u => s.stores u k.offset k.data ∧ (u.inbox T i).avail = (if (s.inbox T i).auto then min ((s.inbox T i).avail + 1) 65535 else (s.inbox T i).avail) ∧
            s.leftBy u q { dest := k.origin, cls := .response, hops := 0, body := .wrAck k.tag 0 } ∧ u.cores = s.cores)) ∧
        (∀ e, e ≠ dUncorrectable → cutAt 128 k.offset k.data.length = [(k.offset, k.data.length)] → s.routeErr (portHalf p) k.offset = none → s.creditCheck none k.offset k.data.length (some k.gen) = .error e → Ends (exec (.wrReceive p k) s) (fun u =>
          s.leftBy u q { dest := k.origin, cls := .response, hops := 0, body := .wrAck k.tag (fabricCode e) } ∧ u.tillers = s.tillers ∧ u.cores = s.cores ∧ u.mem = s.mem))) ∧
      (∀ op, s.rel.st = 0 → s.exposed 2 k.origin k.offset 8 = true → touchesCtl k.offset 8 = false → k.data.length = 8 → k.offset % 8 = 0 → inStore k.offset = true → s.unitBad k.offset = false → s.routeErr (portHalf p) k.offset = none → s.creditCheck none k.offset 8 (some k.gen) = .ok none →
        (∀ i j, i < j → j < 8 → s.cellOf (k.offset + i) ≠ s.cellOf (k.offset + j)) → Ends (exec (.aowPacketReceive p op k) s) (fun u => s.stores u k.offset (leBytes 8 (aowOp op (leNat (s.peek k.offset 8)) (leNat k.data)).1) ∧
          s.leftBy u q { dest := k.origin, cls := .response, hops := 0, body := .wrAck k.tag 0 } ∧ u.cores = s.cores))) ∧
  (∀ (s : State) p o T c (n : BitVec 32), p < 32 → T < 64 → s.receives p = true → s.rel.st = 0 →
      (s.counterOpen o T c = true → ¬ (nodeHalf (portNodeNode p) ≠ nodeHalf (tillerNode T) ∧ s.blocked (nodeHalf (tillerNode T)) = true) → Ends (exec (.evincPacketReceive p o T c n) s) (fun u => (u.tiller T).c0 = (s.tiller T).c0 ++ [.inc c n.toNat] ∧
        (∀ T', T' ≠ T → u.tiller T' = s.tiller T') ∧ (∀ i, u.evc T i = s.evc T i) ∧ u.cores = s.cores ∧ u.mem = s.mem)) ∧
      (s.counterOpen o T c = false → Ends (exec (.evincPacketReceive p o T c n) s) (fun u => (u.portNode (p / 2)).c0Deny = satAdd 16 (s.portNode (p / 2)).c0Deny 1 ∧ u.tillers = s.tillers ∧ u.cores = s.cores ∧ u.mem = s.mem))) ∧
  (∀ (s : State) p o T c (n : BitVec 32), p < 32 → s.receives p = false ∨ s.rel.st ≠ 0 → exec (.evincPacketReceive p o T c n) s = .next s) ∧
  (∀ (s : State) p g (k : RemoteReq) x, p < 32 → s.receives p = true → x = sget {} s.loader.stolonGroups g → (s.port p).txWait = [] → (s.port p).kept.length < s.replayRoom p →
      (s.rel.st ≠ 0 ∨ x.valid = false → Ends (exec (.mcastWrReceive p g k) s) (fun u => s.leftBy u p { dest := k.origin, cls := .response, hops := 0, body := .mcAck k.tag true } ∧
        (u.portNode (p / 2)).mcPartial = satAdd 15 (s.portNode (p / 2)).mcPartial 1 ∧ u.cores = s.cores ∧ u.mem = s.mem)) ∧
      (s.rel.st = 0 → x.valid = true →
        (∀ l, l = s.mcastAddrs x.local' (k.offset % 2 ^ 22) → x.local' ≠ 0xFF → (∀ r, r < 32 → bit x.members r = true → r = p) → 0 < k.data.length → k.offset % 2 ^ 22 + k.data.length ≤ 2 ^ 22 →
          (∀ a ∈ l, s.good (portHalf p) a k.data.length = true ∧ ∀ y ∈ cutAt 128 a k.data.length, s.routeErr (portHalf p) y.1 = none ∧ s.creditCheck none y.1 y.2 none = .ok none) → Ends (exec (.mcastWrReceive p g k) s) (fun u =>
            (∀ a ∈ l, ∀ i, i < k.data.length → u.byteAt (a + i) = k.data.getD i 0) ∧ (∀ b, (∀ a ∈ l, ∀ i, i < k.data.length → s.cellOf b ≠ s.cellOf (a + i)) → u.byteAt b = s.byteAt b) ∧
            s.leftBy u p { dest := k.origin, cls := .response, hops := 0, body := .mcAck k.tag false } ∧ u.tillers = s.tillers ∧ u.cores = s.cores)) ∧
        (∀ q, x.local' = 0xFF → q < 32 → q ≠ p → (∀ r, r < 32 → bit x.members r = true → r = p ∨ r = q) → bit x.members q = true → s.portUp q = true → k.hops < 31 → (s.port q).txWait = [] → (s.port q).kept.length < s.replayRoom q →
          Ends (exec (.mcastWrReceive p g k) s) (fun u => s.leftBy u q { dest := 0, cls := .bulk, hops := k.hops, body := .mcast g k.offset k.data k.tag } ∧
            u.mcPending = s.mcPending ++ [{ port := p, origin := k.origin, tag := k.tag, failed := false, left := [q] }] ∧ u.cores = s.cores ∧ u.mem = s.mem)))) ∧
  (∀ (s : State) p q o (t : Tag) (h : BitVec 12) (n : BitVec 11) T i, p < 32 → s.receives p = true → s.wayOpen o q = true → T = h.toNat / 64 → i = h.toNat % 64 →
      (∀ c, (s.rel.st ≠ 0 ∧ c = 0xB) ∨ (s.rel.st = 0 ∧ ∃ e, s.routeErr (portHalf p) (tmAddr T 0) = some e ∧ c = fabricCode e) ∨
          (s.rel.st = 0 ∧ s.routeErr (portHalf p) (tmAddr T 0) = none ∧ (s.inbox T i).valid = false ∧ c = 6) ∨
          (s.rel.st = 0 ∧ s.routeErr (portHalf p) (tmAddr T 0) = none ∧ (s.inbox T i).valid = true ∧ (s.inbox T i).avail = 0 ∧ 1024 ≤ s.stolonWaiters T ∧ c = 0xD) → Ends (exec (.creditReqReceive p o t h n) s) (fun u =>
            s.leftBy u q { dest := o, cls := .response, hops := 0, body := .creditGrant t c 0 0 } ∧ u.tillers = s.tillers ∧ u.cores = s.cores ∧ u.mem = s.mem)) ∧
      (s.rel.st = 0 → s.routeErr (portHalf p) (tmAddr T 0) = none → (s.inbox T i).valid = true →
        ((s.inbox T i).avail ≠ 0 → Ends (exec (.creditReqReceive p o t h n) s) (fun u => u.inbox T i = { s.inbox T i with avail := (s.inbox T i).avail - min n.toNat (s.inbox T i).avail } ∧
          s.leftBy u q { dest := o, cls := .response, hops := 0, body := .creditGrant t 0 (min n.toNat (s.inbox T i).avail) (s.inbox T i).gen } ∧ u.cores = s.cores ∧ u.mem = s.mem)) ∧
        ((s.inbox T i).avail = 0 → s.stolonWaiters T < 1024 → Ends (exec (.creditReqReceive p o t h n) s) (fun u => u.inbox T i = { s.inbox T i with waiters := (s.inbox T i).waiters ++ [(.stolon p o t, n.toNat)] } ∧
          (∀ r, u.port r = s.port r) ∧ u.cores = s.cores ∧ u.mem = s.mem)))) ∧
  (∀ (s : State) (h : BitVec 12) (n : BitVec 16) (g : BitVec 4) T i, T = h.toNat / 64 → i = h.toNat % 64 →
      (s.reachable (tillerNode T) = true → (s.inbox T i).valid = true → g.toNat = (s.inbox T i).gen → n ≠ 0 → (s.inbox T i).waiters = [] → Ends (exec (.creditRetReceive h n g) s) (fun u =>
        (u.inbox T i).avail = min ((s.inbox T i).avail + n.toNat) 65535 ∧ (∀ T' j, (T', j) ≠ (T, i) → u.inbox T' j = s.inbox T' j) ∧ u.cores = s.cores ∧ u.mem = s.mem)) ∧
      (s.reachable (tillerNode T) = false ∨ (s.inbox T i).valid = false ∨ g.toNat ≠ (s.inbox T i).gen ∨ n = 0 → exec (.creditRetReceive h n g) s = .next s)) ∧
  (∀ (s : State) p x m, p < 32 → x = s.port p → m = min x.c0Wait.length x.c0Allot →
      (s.up = true → x.st = .up → x.txWait = [] → x.kept.length + m ≤ s.replayRoom p → (∀ k ∈ x.c0Wait, k.cls = .control) → Ends (exec (.c0PortRelease p) s) (fun u => (u.port p).c0Wait = x.c0Wait.drop m ∧ (u.port p).c0Sent = m ∧
        (u.port p).out = x.out ++ (x.c0Wait.take m).map (fun k => { k with hops := k.hops + 1 }) ∧ (∀ q, q ≠ p → u.port q = s.port q) ∧ u.cores = s.cores ∧ u.mem = s.mem)) ∧
      (s.up = false ∨ x.st ≠ .up → exec (.c0PortRelease p) s = .next s))

/-- A write at level 2, outside the control space, at no register, not aligned, at a node that takes no traffic, or at level 1
of a register that level 0 alone writes changes nothing; so does a write of a read-only register. A write of a register of plain
fields changes those fields of that register and nothing else: the image address, the drain limit, the power cap, alert bits and
enables, an interrupt target, a node's slot register and destinations, an event counter, a window's staged word 1, counts that a
bit clears, a breakpoint, a refresh period. Writing word 0 of a remote window entry keeps its defined fields and brings word 1
as last written into force, by command and by register alike. (R21, R41, R78, R217, R261, R357, R443, R490, R491) -/
def Obligations.RegisterWrites : Prop :=
  (∀ (s : State) addr (w : Word), exec (.registerWrite .task addr w) s = .next s) ∧
  (∀ (s : State) lvl addr (w : Word), ((∀ n o, locOf addr ≠ .ctl n o) → exec (.registerWrite lvl addr w) s = .next s) ∧
      (∀ n o, locOf addr = .ctl n o → (s.ctlReach n = false ∨ o % 8 ≠ 0 ∨ ctlReg n o = none ∨ (∃ r, ctlReg n o = some r ∧ r.machineOnly = true ∧ lvl = .supervisor)) → exec (.registerWrite lvl addr w) s = .next s)) ∧
  (∀ (s : State) lvl addr (w : Word) n o r T, lvl ≠ .task → locOf addr = .ctl n o → s.ctlReach n = true → o % 8 = 0 → ctlReg n o = some r → (r.machineOnly = true → lvl = .machine) → T = (nodeTiller n).getD 0 →
      (r ∈ [CtlReg.lmIdent, .halfState, .thlStatus, .regionState, .regionMode, .thlLastId, .cnState, .relStat, .hlHead, .hlLost, .pwrStat, .bootStat, .chainStat, .fuseStat, .fuseSerial, .tbOffset, .rachisStat, .tspare, .thsWstat, .thsFault, .twStat, .pciStat] ∨
        (∃ i, r = .lmGeom i ∨ r = .regionBlocks i ∨ r = .healthLog i ∨ r = .sqReg i 2 ∨ (∃ j, r = .meas i j ∨ r = .sessEntry i j ∨ r = .sqBuf i (j + 1))) → exec (.registerWrite lvl addr w) s = .next s) ∧
      (r = .thlSrc → exec (.registerWrite lvl addr w) s = .next { s with loader := { s.loader with src := field w 6 38 * 64 } }) ∧
      (r = .thlDrainLim → exec (.registerWrite lvl addr w) s = .next { s with loader := { s.loader with drainLim := field w 0 24 } }) ∧
      (r = .pwrCap → exec (.registerWrite lvl addr w) s = .next { s with power := { s.power with holridCap := field w 0 12 } }) ∧
      (r = .alertEn → exec (.registerWrite lvl addr w) s = .next { s with power := { s.power with alertEn := field w 0 10 } }) ∧
      (r = .alertSrc → s.power.alertSrc < 1024 → Ends (exec (.registerWrite lvl addr w) s) (fun u => (∀ k, k < 10 → u.power.alertSrc.testBit k = (s.power.alertSrc.testBit k && !w.getLsbD k)) ∧ { u with power := s.power } = s ∧ u.power.carrierAlert = s.power.carrierAlert)) ∧
      (∀ i, r = .xintTgt i → Ends (exec (.registerWrite lvl addr w) s) (fun u => sget 0 u.xintTgt i = field w 0 5 ∧ (∀ j, j ≠ i → sget 0 u.xintTgt j = sget 0 s.xintTgt j) ∧ ({ u with xintTgt := s.xintTgt } : State) = s)) ∧
      (r = .meshSlot → Ends (exec (.registerWrite lvl addr w) s) (fun u => u.node n = { s.node n with slot := (slotFixed w).1, slotfix := (s.node n).slotfix || (slotFixed w).2 } ∧ (∀ m, m ≠ n → u.node m = s.node m) ∧ ({ u with nodes := s.nodes } : State) = s)) ∧
      (r = .meshStat → Ends (exec (.registerWrite lvl addr w) s) (fun u => u.node n = { s.node n with slotfix := (s.node n).slotfix && !w.getLsbD 48 } ∧ (∀ m, m ≠ n → u.node m = s.node m) ∧ ({ u with nodes := s.nodes } : State) = s)) ∧
      (r = .c0DestLo → Ends (exec (.registerWrite lvl addr w) s) (fun u => u.node n = { s.node n with destLo := w } ∧ (∀ m, m ≠ n → u.node m = s.node m) ∧ ({ u with nodes := s.nodes } : State) = s)) ∧
      (r = .cntGrant → Ends (exec (.registerWrite lvl addr w) s) (fun u => u.node n = { s.node n with grantFirst := field w 0 10, grantLast := field w 10 10, grantEn := w.getLsbD 20 } ∧ (∀ m, m ≠ n → u.node m = s.node m) ∧ ({ u with nodes := s.nodes } : State) = s)) ∧
      (∀ i, r = .evc i → Ends (exec (.registerWrite lvl addr w) s) (fun u => u.evc T i = w.toNat % 2 ^ 32 ∧ (∀ j, j ≠ i → u.evc T j = s.evc T j) ∧ u.mem = s.mem)) ∧
      (∀ i, r = .window i 1 → Ends (exec (.registerWrite lvl addr w) s) (fun u => sget {} (u.tiller T).windows i = { sget {} (s.tiller T).windows i with w1Next := windowWord1 w } ∧ (∀ j, j ≠ i → sget {} (u.tiller T).windows j = sget {} (s.tiller T).windows j) ∧
        (∀ T', T' ≠ T → u.tiller T' = s.tiller T') ∧ ({ u with tillers := s.tillers } : State) = s)) ∧
      (∀ i, r = .window i 0 → n = tillerNode T → s.reachable n = true → T < 64 → i < 64 → exec (.registerWrite lvl addr w) s = exec (.remoteWindowWrite T i w) s) ∧
      (r = .aowStat → Ends (exec (.registerWrite lvl addr w) s) (fun u => (u.tiller T).aowInv = (if w.getLsbD 63 then 0 else (s.tiller T).aowInv) ∧ (u.tiller T).aowOvf = (if w.getLsbD 63 then 0 else (s.tiller T).aowOvf) ∧ (u.tiller T).evc = (s.tiller T).evc ∧
        (∀ T', T' ≠ T → u.tiller T' = s.tiller T') ∧ ({ u with tillers := s.tillers } : State) = s)) ∧
      (∀ t j, r = .dbg t (4 + j) → j < 4 → t.unit < 1024 → Ends (exec (.registerWrite lvl addr w) s) (fun u => sget 0 (u.ctx t).dbg.bp j = word (field w 0 48) ∧ (∀ i, i ≠ j → sget 0 (u.ctx t).dbg.bp i = sget 0 (s.ctx t).dbg.bp i) ∧
        (u.ctx t).st = (s.ctx t).st ∧ (u.ctx t).pc = (s.ctx t).pc ∧ (u.ctx t).g = (s.ctx t).g ∧ u.tillers = s.tillers ∧ u.mem = s.mem)) ∧
      (∀ i k, r = .hbm 3 → (List.range 12).find? (fun i => stackNode i = n) = some i → k = (s.stack i).period → Ends (exec (.registerWrite lvl addr w) s) (fun u => (u.stack i).periodNext = field w 0 8 ∧ (u.stack i).period = k ∧
        (∀ j, j ≠ i → u.stack j = s.stack j) ∧ ({ u with hbmStacks := s.hbmStacks } : State) = s))) ∧
  (∀ (s : State) T i (w : Word), T < 64 → i < 64 →
      (s.reachable (tillerNode T) = false → exec (.remoteWindowWrite T i w) s = .next s) ∧
      (s.reachable (tillerNode T) = true → Ends (exec (.remoteWindowWrite T i w) s) (fun u =>
        ((sget {} (u.tiller T).windows i).w0.getLsbD 0 = w.getLsbD 0 ∧ (∀ k, k < 64 → k ≠ 0 → (sget {} (u.tiller T).windows i).w0.getLsbD k = (decide (12 ≤ k ∧ k < 58) && w.getLsbD k))) ∧
        (sget {} (u.tiller T).windows i).w1 = (sget {} (s.tiller T).windows i).w1Next ∧ (sget {} (u.tiller T).windows i).w1Next = (sget {} (s.tiller T).windows i).w1Next ∧
        (∀ j, j ≠ i → sget {} (u.tiller T).windows j = sget {} (s.tiller T).windows j) ∧ (∀ T', T' ≠ T → u.tiller T' = s.tiller T') ∧ ({ u with tillers := s.tillers } : State) = s)))

/-- For every state whose memory is in canonical form, cells strictly rising and none listed that holds what an unlisted cell
reads as, every step that answers a next state answers one whose memory is in that form, whatever the command: so equal memories
are equal lists. An unlisted cell reads zero, as R215 and R331 state of the stores and HBM after boot; before boot it is the
model's choice, log entry 24. (R215, R331) -/
def Obligations.MemoryStaysCanonical : Prop :=
  ∀ s u : State, Memory.wf s.mem = true → Machine.step s = .next u → Memory.wf u.mem = true

end
end

