-- ==== Sys2Proof/Laws/Sparse.lean ====
section
/-! SUPPORT. Sparse arrays: a read after a write, and the canonical form of an array. -/

namespace Sys2Proof.Machine

variable {α : Type}

theorem sget_serase_same (d : α) (m : Sparse α) (k : Nat) : sget d (serase m k) k = d := by
  induction m with
  | nil => rfl
  | cons p m ih =>
    obtain ⟨j, a⟩ := p
    by_cases h : j = k
    · simpa [serase, h] using ih
    · simpa [serase, h, sget] using ih

theorem sget_serase_ne (d : α) (m : Sparse α) {k j : Nat} (hj : j ≠ k) : sget d (serase m k) j = sget d m j := by
  induction m with
  | nil => rfl
  | cons p m ih =>
    obtain ⟨i, a⟩ := p
    by_cases h : i = k
    · subst h
      simpa [serase, sget, hj.symm] using ih
    · by_cases hi : i = j
      · simp [serase, sget, hi, hj]
      · simpa [serase, h, sget, hi] using ih

theorem sget_sinsert_same (d : α) (m : Sparse α) (k : Nat) (a : α) (h : ∀ p ∈ m, p.1 ≠ k) : sget d (sinsert k a m) k = a := by
  induction m with
  | nil => simp [sinsert, sget]
  | cons p m ih =>
    obtain ⟨j, b⟩ := p
    have hj : j ≠ k := h (j, b) (by simp)
    unfold sinsert
    split
    · simp [sget]
    · simpa [sget, hj] using ih (fun q hq => h q (by simp [hq]))

theorem sget_sinsert_ne (d : α) (m : Sparse α) {k j : Nat} (a : α) (hj : j ≠ k) : sget d (sinsert k a m) j = sget d m j := by
  induction m with
  | nil => simp [sinsert, sget, hj.symm]
  | cons p m ih =>
    obtain ⟨i, b⟩ := p
    unfold sinsert
    split
    · simp [sget, hj.symm]
    · simp [sget, ih]

/-- A read of the entry that was written. -/
@[simp] theorem sget_sput_same [DecidableEq α] (d : α) (m : Sparse α) (k : Nat) (a : α) : sget d (sput d m k a) k = a := by
  unfold sput
  split
  · next h => rw [sget_serase_same, h]
  · exact sget_sinsert_same d _ k a (by simp [serase])

/-- A read of another entry. -/
@[simp] theorem sget_sput_ne [DecidableEq α] (d : α) (m : Sparse α) {k j : Nat} (a : α) (hj : j ≠ k) :
    sget d (sput d m k a) j = sget d m j := by
  unfold sput
  split
  · exact sget_serase_ne d m hj
  · rw [sget_sinsert_ne d _ a hj, sget_serase_ne d m hj]

/-- A read after a write, by cases. -/
theorem sget_sput [DecidableEq α] (d : α) (m : Sparse α) (k j : Nat) (a : α) :
    sget d (sput d m k a) j = if j = k then a else sget d m j := by
  by_cases h : j = k
  · simp [h]
  · simp [h, sget_sput_ne]

theorem mem_sinsert {k : Nat} {a : α} {m : Sparse α} {p : Nat × α} : p ∈ sinsert k a m ↔ p = (k, a) ∨ p ∈ m := by
  induction m with
  | nil => simp [sinsert]
  | cons q m ih =>
    obtain ⟨j, b⟩ := q
    unfold sinsert
    split
    · simp
    · simp only [List.mem_cons, ih]
      exact or_left_comm

theorem pairwise_sinsert (k : Nat) (a : α) (m : Sparse α) (h : (m.map Prod.fst).Pairwise (· < ·)) (hk : ∀ p ∈ m, p.1 ≠ k) :
    ((sinsert k a m).map Prod.fst).Pairwise (· < ·) := by
  induction m with
  | nil => simp [sinsert]
  | cons q m ih =>
    obtain ⟨j, b⟩ := q
    simp only [List.map_cons, List.pairwise_cons, List.mem_map, forall_exists_index, and_imp] at h
    unfold sinsert
    split
    · next hlt =>
      simp only [List.map_cons, List.pairwise_cons, List.mem_cons, List.mem_map]
      refine ⟨?_, ⟨fun x hx => ?_, h.2⟩⟩
      · rintro x (rfl | ⟨p, hp, rfl⟩)
        · exact hlt
        · exact Nat.lt_trans hlt (h.1 p.1 p hp rfl)
      · obtain ⟨p, hp, rfl⟩ := hx
        exact h.1 p.1 p hp rfl
    · next hlt =>
      have hj : j ≠ k := hk (j, b) (by simp)
      simp only [List.map_cons, List.pairwise_cons, List.mem_map]
      refine ⟨?_, ih h.2 (fun p hp => hk p (by simp [hp]))⟩
      rintro x ⟨p, hp, rfl⟩
      rcases mem_sinsert.mp hp with rfl | hp
      · show j < k
        omega
      · exact h.1 p.1 p hp rfl

/-- A write keeps the canonical form. -/
theorem swf_sput [DecidableEq α] (d : α) (m : Sparse α) (k : Nat) (a : α) (h : swf d m = true) : swf d (sput d m k a) = true := by
  simp only [swf, Bool.and_eq_true, decide_eq_true_eq, List.all_eq_true] at h ⊢
  have he : ((serase m k).map Prod.fst).Pairwise (· < ·) := by
    have hs : (serase m k).Sublist m := List.filter_sublist
    exact List.Pairwise.sublist (hs.map Prod.fst) h.1
  have hk : ∀ p ∈ serase m k, p.1 ≠ k := by simp [serase]
  have hd : ∀ p ∈ serase m k, p.2 ≠ d := fun p hp => h.2 p ((List.mem_filter.mp hp).1)
  unfold sput
  split
  · exact ⟨he, by simpa using hd⟩
  · next ha =>
    refine ⟨pairwise_sinsert k a _ he hk, ?_⟩
    intro p hp
    rcases mem_sinsert.mp hp with rfl | hp
    · simpa using ha
    · simpa using hd p hp

/-- Leaving entries out keeps the canonical form. -/
theorem swf_filter [DecidableEq α] (d : α) (m : Sparse α) (f : Nat × α → Bool) (h : swf d m = true) : swf d (m.filter f) = true := by
  simp only [swf, Bool.and_eq_true, decide_eq_true_eq, List.all_eq_true] at h ⊢
  exact ⟨List.Pairwise.sublist (List.filter_sublist.map Prod.fst) h.1, fun p hp => h.2 p ((List.mem_filter.mp hp).1)⟩

end Sys2Proof.Machine
end

