-- ==== Sys2Proof/Laws/State.lean ====
section
/-! SUPPORT. The state's units: what a change of one unit is read as, and every field that it leaves as it was. -/

namespace Sys2Proof.Machine

variable (s : State)

@[simp] theorem State.tiller_modTiller_same (n : Nat) (f : Tiller → Tiller) : (s.modTiller n f).tiller n = f (s.tiller n) := by
  simp [State.setTiller, State.tiller, State.modTiller]
@[simp] theorem State.tiller_modTiller_ne {n m : Nat} (f : Tiller → Tiller) (h : m ≠ n) : (s.modTiller n f).tiller m = s.tiller m := by
  simp [State.setTiller, State.tiller, State.modTiller, h]
@[simp] theorem State.pending_modTiller (n : Nat) (f : Tiller → Tiller) : (s.modTiller n f).pending = s.pending := rfl
@[simp] theorem State.cores_modTiller (n : Nat) (f : Tiller → Tiller) : (s.modTiller n f).cores = s.cores := rfl
@[simp] theorem State.nodes_modTiller (n : Nat) (f : Tiller → Tiller) : (s.modTiller n f).nodes = s.nodes := rfl
@[simp] theorem State.west_modTiller (n : Nat) (f : Tiller → Tiller) : (s.modTiller n f).west = s.west := rfl
@[simp] theorem State.east_modTiller (n : Nat) (f : Tiller → Tiller) : (s.modTiller n f).east = s.east := rfl
@[simp] theorem State.parkEn_modTiller (n : Nat) (f : Tiller → Tiller) : (s.modTiller n f).parkEn = s.parkEn := rfl
@[simp] theorem State.lastRefusal_modTiller (n : Nat) (f : Tiller → Tiller) : (s.modTiller n f).lastRefusal = s.lastRefusal := rfl
@[simp] theorem State.halfReq_modTiller (n : Nat) (f : Tiller → Tiller) : (s.modTiller n f).halfReq = s.halfReq := rfl
@[simp] theorem State.halfBusy_modTiller (n : Nat) (f : Tiller → Tiller) : (s.modTiller n f).halfBusy = s.halfBusy := rfl
@[simp] theorem State.time_modTiller (n : Nat) (f : Tiller → Tiller) : (s.modTiller n f).time = s.time := rfl
@[simp] theorem State.mem_modTiller (n : Nat) (f : Tiller → Tiller) : (s.modTiller n f).mem = s.mem := rfl
@[simp] theorem State.badWords_modTiller (n : Nat) (f : Tiller → Tiller) : (s.modTiller n f).badWords = s.badWords := rfl
@[simp] theorem State.ceWords_modTiller (n : Nat) (f : Tiller → Tiller) : (s.modTiller n f).ceWords = s.ceWords := rfl
@[simp] theorem State.repairs_modTiller (n : Nat) (f : Tiller → Tiller) : (s.modTiller n f).repairs = s.repairs := rfl
@[simp] theorem State.reqs_modTiller (n : Nat) (f : Tiller → Tiller) : (s.modTiller n f).reqs = s.reqs := rfl
@[simp] theorem State.nextId_modTiller (n : Nat) (f : Tiller → Tiller) : (s.modTiller n f).nextId = s.nextId := rfl
@[simp] theorem State.creditMsgs_modTiller (n : Nat) (f : Tiller → Tiller) : (s.modTiller n f).creditMsgs = s.creditMsgs := rfl
@[simp] theorem State.chCredits_modTiller (n : Nat) (f : Tiller → Tiller) : (s.modTiller n f).chCredits = s.chCredits := rfl
@[simp] theorem State.chMsgs_modTiller (n : Nat) (f : Tiller → Tiller) : (s.modTiller n f).chMsgs = s.chMsgs := rfl
@[simp] theorem State.faultReports_modTiller (n : Nat) (f : Tiller → Tiller) : (s.modTiller n f).faultReports = s.faultReports := rfl
@[simp] theorem State.units_modTiller (n : Nat) (f : Tiller → Tiller) : (s.modTiller n f).units = s.units := rfl
@[simp] theorem State.regions_modTiller (n : Nat) (f : Tiller → Tiller) : (s.modTiller n f).regions = s.regions := rfl
@[simp] theorem State.loader_modTiller (n : Nat) (f : Tiller → Tiller) : (s.modTiller n f).loader = s.loader := rfl
@[simp] theorem State.hbmStacks_modTiller (n : Nat) (f : Tiller → Tiller) : (s.modTiller n f).hbmStacks = s.hbmStacks := rfl
@[simp] theorem State.ports_modTiller (n : Nat) (f : Tiller → Tiller) : (s.modTiller n f).ports = s.ports := rfl
@[simp] theorem State.portNodes_modTiller (n : Nat) (f : Tiller → Tiller) : (s.modTiller n f).portNodes = s.portNodes := rfl
@[simp] theorem State.sessions_modTiller (n : Nat) (f : Tiller → Tiller) : (s.modTiller n f).sessions = s.sessions := rfl
@[simp] theorem State.mcPending_modTiller (n : Nat) (f : Tiller → Tiller) : (s.modTiller n f).mcPending = s.mcPending := rfl
@[simp] theorem State.holds_modTiller (n : Nat) (f : Tiller → Tiller) : (s.modTiller n f).holds = s.holds := rfl
@[simp] theorem State.culm_modTiller (n : Nat) (f : Tiller → Tiller) : (s.modTiller n f).culm = s.culm := rfl
@[simp] theorem State.culmNodes_modTiller (n : Nat) (f : Tiller → Tiller) : (s.modTiller n f).culmNodes = s.culmNodes := rfl
@[simp] theorem State.cache_modTiller (n : Nat) (f : Tiller → Tiller) : (s.modTiller n f).cache = s.cache := rfl
@[simp] theorem State.cnReq_modTiller (n : Nat) (f : Tiller → Tiller) : (s.modTiller n f).cnReq = s.cnReq := rfl
@[simp] theorem State.xintTgt_modTiller (n : Nat) (f : Tiller → Tiller) : (s.modTiller n f).xintTgt = s.xintTgt := rfl
@[simp] theorem State.eth_modTiller (n : Nat) (f : Tiller → Tiller) : (s.modTiller n f).eth = s.eth := rfl
@[simp] theorem State.pcie_modTiller (n : Nat) (f : Tiller → Tiller) : (s.modTiller n f).pcie = s.pcie := rfl
@[simp] theorem State.pcieMem_modTiller (n : Nat) (f : Tiller → Tiller) : (s.modTiller n f).pcieMem = s.pcieMem := rfl
@[simp] theorem State.power_modTiller (n : Nat) (f : Tiller → Tiller) : (s.modTiller n f).power = s.power := rfl
@[simp] theorem State.fuses_modTiller (n : Nat) (f : Tiller → Tiller) : (s.modTiller n f).fuses = s.fuses := rfl
@[simp] theorem State.boot_modTiller (n : Nat) (f : Tiller → Tiller) : (s.modTiller n f).boot = s.boot := rfl
@[simp] theorem State.flashA_modTiller (n : Nat) (f : Tiller → Tiller) : (s.modTiller n f).flashA = s.flashA := rfl
@[simp] theorem State.flashB_modTiller (n : Nat) (f : Tiller → Tiller) : (s.modTiller n f).flashB = s.flashB := rfl
@[simp] theorem State.rel_modTiller (n : Nat) (f : Tiller → Tiller) : (s.modTiller n f).rel = s.rel := rfl
@[simp] theorem State.samplers_modTiller (n : Nat) (f : Tiller → Tiller) : (s.modTiller n f).samplers = s.samplers := rfl
@[simp] theorem State.tap_modTiller (n : Nat) (f : Tiller → Tiller) : (s.modTiller n f).tap = s.tap := rfl
@[simp] theorem State.freeCtr_modTiller (n : Nat) (f : Tiller → Tiller) : (s.modTiller n f).freeCtr = s.freeCtr := rfl
@[simp] theorem State.node_modNode_same (n : Nat) (f : Node → Node) : (s.modNode n f).node n = f (s.node n) := by
  simp [State.node, State.modNode]
@[simp] theorem State.node_modNode_ne {n m : Nat} (f : Node → Node) (h : m ≠ n) : (s.modNode n f).node m = s.node m := by
  simp [State.node, State.modNode, h]
@[simp] theorem State.pending_modNode (n : Nat) (f : Node → Node) : (s.modNode n f).pending = s.pending := rfl
@[simp] theorem State.cores_modNode (n : Nat) (f : Node → Node) : (s.modNode n f).cores = s.cores := rfl
@[simp] theorem State.tillers_modNode (n : Nat) (f : Node → Node) : (s.modNode n f).tillers = s.tillers := rfl
@[simp] theorem State.west_modNode (n : Nat) (f : Node → Node) : (s.modNode n f).west = s.west := rfl
@[simp] theorem State.east_modNode (n : Nat) (f : Node → Node) : (s.modNode n f).east = s.east := rfl
@[simp] theorem State.parkEn_modNode (n : Nat) (f : Node → Node) : (s.modNode n f).parkEn = s.parkEn := rfl
@[simp] theorem State.lastRefusal_modNode (n : Nat) (f : Node → Node) : (s.modNode n f).lastRefusal = s.lastRefusal := rfl
@[simp] theorem State.halfReq_modNode (n : Nat) (f : Node → Node) : (s.modNode n f).halfReq = s.halfReq := rfl
@[simp] theorem State.halfBusy_modNode (n : Nat) (f : Node → Node) : (s.modNode n f).halfBusy = s.halfBusy := rfl
@[simp] theorem State.time_modNode (n : Nat) (f : Node → Node) : (s.modNode n f).time = s.time := rfl
@[simp] theorem State.mem_modNode (n : Nat) (f : Node → Node) : (s.modNode n f).mem = s.mem := rfl
@[simp] theorem State.badWords_modNode (n : Nat) (f : Node → Node) : (s.modNode n f).badWords = s.badWords := rfl
@[simp] theorem State.ceWords_modNode (n : Nat) (f : Node → Node) : (s.modNode n f).ceWords = s.ceWords := rfl
@[simp] theorem State.repairs_modNode (n : Nat) (f : Node → Node) : (s.modNode n f).repairs = s.repairs := rfl
@[simp] theorem State.reqs_modNode (n : Nat) (f : Node → Node) : (s.modNode n f).reqs = s.reqs := rfl
@[simp] theorem State.nextId_modNode (n : Nat) (f : Node → Node) : (s.modNode n f).nextId = s.nextId := rfl
@[simp] theorem State.creditMsgs_modNode (n : Nat) (f : Node → Node) : (s.modNode n f).creditMsgs = s.creditMsgs := rfl
@[simp] theorem State.chCredits_modNode (n : Nat) (f : Node → Node) : (s.modNode n f).chCredits = s.chCredits := rfl
@[simp] theorem State.chMsgs_modNode (n : Nat) (f : Node → Node) : (s.modNode n f).chMsgs = s.chMsgs := rfl
@[simp] theorem State.faultReports_modNode (n : Nat) (f : Node → Node) : (s.modNode n f).faultReports = s.faultReports := rfl
@[simp] theorem State.units_modNode (n : Nat) (f : Node → Node) : (s.modNode n f).units = s.units := rfl
@[simp] theorem State.regions_modNode (n : Nat) (f : Node → Node) : (s.modNode n f).regions = s.regions := rfl
@[simp] theorem State.loader_modNode (n : Nat) (f : Node → Node) : (s.modNode n f).loader = s.loader := rfl
@[simp] theorem State.hbmStacks_modNode (n : Nat) (f : Node → Node) : (s.modNode n f).hbmStacks = s.hbmStacks := rfl
@[simp] theorem State.ports_modNode (n : Nat) (f : Node → Node) : (s.modNode n f).ports = s.ports := rfl
@[simp] theorem State.portNodes_modNode (n : Nat) (f : Node → Node) : (s.modNode n f).portNodes = s.portNodes := rfl
@[simp] theorem State.sessions_modNode (n : Nat) (f : Node → Node) : (s.modNode n f).sessions = s.sessions := rfl
@[simp] theorem State.mcPending_modNode (n : Nat) (f : Node → Node) : (s.modNode n f).mcPending = s.mcPending := rfl
@[simp] theorem State.holds_modNode (n : Nat) (f : Node → Node) : (s.modNode n f).holds = s.holds := rfl
@[simp] theorem State.culm_modNode (n : Nat) (f : Node → Node) : (s.modNode n f).culm = s.culm := rfl
@[simp] theorem State.culmNodes_modNode (n : Nat) (f : Node → Node) : (s.modNode n f).culmNodes = s.culmNodes := rfl
@[simp] theorem State.cache_modNode (n : Nat) (f : Node → Node) : (s.modNode n f).cache = s.cache := rfl
@[simp] theorem State.cnReq_modNode (n : Nat) (f : Node → Node) : (s.modNode n f).cnReq = s.cnReq := rfl
@[simp] theorem State.xintTgt_modNode (n : Nat) (f : Node → Node) : (s.modNode n f).xintTgt = s.xintTgt := rfl
@[simp] theorem State.eth_modNode (n : Nat) (f : Node → Node) : (s.modNode n f).eth = s.eth := rfl
@[simp] theorem State.pcie_modNode (n : Nat) (f : Node → Node) : (s.modNode n f).pcie = s.pcie := rfl
@[simp] theorem State.pcieMem_modNode (n : Nat) (f : Node → Node) : (s.modNode n f).pcieMem = s.pcieMem := rfl
@[simp] theorem State.power_modNode (n : Nat) (f : Node → Node) : (s.modNode n f).power = s.power := rfl
@[simp] theorem State.fuses_modNode (n : Nat) (f : Node → Node) : (s.modNode n f).fuses = s.fuses := rfl
@[simp] theorem State.boot_modNode (n : Nat) (f : Node → Node) : (s.modNode n f).boot = s.boot := rfl
@[simp] theorem State.flashA_modNode (n : Nat) (f : Node → Node) : (s.modNode n f).flashA = s.flashA := rfl
@[simp] theorem State.flashB_modNode (n : Nat) (f : Node → Node) : (s.modNode n f).flashB = s.flashB := rfl
@[simp] theorem State.rel_modNode (n : Nat) (f : Node → Node) : (s.modNode n f).rel = s.rel := rfl
@[simp] theorem State.samplers_modNode (n : Nat) (f : Node → Node) : (s.modNode n f).samplers = s.samplers := rfl
@[simp] theorem State.tap_modNode (n : Nat) (f : Node → Node) : (s.modNode n f).tap = s.tap := rfl
@[simp] theorem State.freeCtr_modNode (n : Nat) (f : Node → Node) : (s.modNode n f).freeCtr = s.freeCtr := rfl
@[simp] theorem State.region_modRegion_same (n : Nat) (f : Region → Region) : (s.modRegion n f).region n = f (s.region n) := by
  simp [State.region, State.modRegion]
@[simp] theorem State.region_modRegion_ne {n m : Nat} (f : Region → Region) (h : m ≠ n) : (s.modRegion n f).region m = s.region m := by
  simp [State.region, State.modRegion, h]
@[simp] theorem State.pending_modRegion (n : Nat) (f : Region → Region) : (s.modRegion n f).pending = s.pending := rfl
@[simp] theorem State.cores_modRegion (n : Nat) (f : Region → Region) : (s.modRegion n f).cores = s.cores := rfl
@[simp] theorem State.tillers_modRegion (n : Nat) (f : Region → Region) : (s.modRegion n f).tillers = s.tillers := rfl
@[simp] theorem State.nodes_modRegion (n : Nat) (f : Region → Region) : (s.modRegion n f).nodes = s.nodes := rfl
@[simp] theorem State.west_modRegion (n : Nat) (f : Region → Region) : (s.modRegion n f).west = s.west := rfl
@[simp] theorem State.east_modRegion (n : Nat) (f : Region → Region) : (s.modRegion n f).east = s.east := rfl
@[simp] theorem State.parkEn_modRegion (n : Nat) (f : Region → Region) : (s.modRegion n f).parkEn = s.parkEn := rfl
@[simp] theorem State.lastRefusal_modRegion (n : Nat) (f : Region → Region) : (s.modRegion n f).lastRefusal = s.lastRefusal := rfl
@[simp] theorem State.halfReq_modRegion (n : Nat) (f : Region → Region) : (s.modRegion n f).halfReq = s.halfReq := rfl
@[simp] theorem State.halfBusy_modRegion (n : Nat) (f : Region → Region) : (s.modRegion n f).halfBusy = s.halfBusy := rfl
@[simp] theorem State.time_modRegion (n : Nat) (f : Region → Region) : (s.modRegion n f).time = s.time := rfl
@[simp] theorem State.mem_modRegion (n : Nat) (f : Region → Region) : (s.modRegion n f).mem = s.mem := rfl
@[simp] theorem State.badWords_modRegion (n : Nat) (f : Region → Region) : (s.modRegion n f).badWords = s.badWords := rfl
@[simp] theorem State.ceWords_modRegion (n : Nat) (f : Region → Region) : (s.modRegion n f).ceWords = s.ceWords := rfl
@[simp] theorem State.repairs_modRegion (n : Nat) (f : Region → Region) : (s.modRegion n f).repairs = s.repairs := rfl
@[simp] theorem State.reqs_modRegion (n : Nat) (f : Region → Region) : (s.modRegion n f).reqs = s.reqs := rfl
@[simp] theorem State.nextId_modRegion (n : Nat) (f : Region → Region) : (s.modRegion n f).nextId = s.nextId := rfl
@[simp] theorem State.creditMsgs_modRegion (n : Nat) (f : Region → Region) : (s.modRegion n f).creditMsgs = s.creditMsgs := rfl
@[simp] theorem State.chCredits_modRegion (n : Nat) (f : Region → Region) : (s.modRegion n f).chCredits = s.chCredits := rfl
@[simp] theorem State.chMsgs_modRegion (n : Nat) (f : Region → Region) : (s.modRegion n f).chMsgs = s.chMsgs := rfl
@[simp] theorem State.faultReports_modRegion (n : Nat) (f : Region → Region) : (s.modRegion n f).faultReports = s.faultReports := rfl
@[simp] theorem State.units_modRegion (n : Nat) (f : Region → Region) : (s.modRegion n f).units = s.units := rfl
@[simp] theorem State.loader_modRegion (n : Nat) (f : Region → Region) : (s.modRegion n f).loader = s.loader := rfl
@[simp] theorem State.hbmStacks_modRegion (n : Nat) (f : Region → Region) : (s.modRegion n f).hbmStacks = s.hbmStacks := rfl
@[simp] theorem State.ports_modRegion (n : Nat) (f : Region → Region) : (s.modRegion n f).ports = s.ports := rfl
@[simp] theorem State.portNodes_modRegion (n : Nat) (f : Region → Region) : (s.modRegion n f).portNodes = s.portNodes := rfl
@[simp] theorem State.sessions_modRegion (n : Nat) (f : Region → Region) : (s.modRegion n f).sessions = s.sessions := rfl
@[simp] theorem State.mcPending_modRegion (n : Nat) (f : Region → Region) : (s.modRegion n f).mcPending = s.mcPending := rfl
@[simp] theorem State.holds_modRegion (n : Nat) (f : Region → Region) : (s.modRegion n f).holds = s.holds := rfl
@[simp] theorem State.culm_modRegion (n : Nat) (f : Region → Region) : (s.modRegion n f).culm = s.culm := rfl
@[simp] theorem State.culmNodes_modRegion (n : Nat) (f : Region → Region) : (s.modRegion n f).culmNodes = s.culmNodes := rfl
@[simp] theorem State.cache_modRegion (n : Nat) (f : Region → Region) : (s.modRegion n f).cache = s.cache := rfl
@[simp] theorem State.cnReq_modRegion (n : Nat) (f : Region → Region) : (s.modRegion n f).cnReq = s.cnReq := rfl
@[simp] theorem State.xintTgt_modRegion (n : Nat) (f : Region → Region) : (s.modRegion n f).xintTgt = s.xintTgt := rfl
@[simp] theorem State.eth_modRegion (n : Nat) (f : Region → Region) : (s.modRegion n f).eth = s.eth := rfl
@[simp] theorem State.pcie_modRegion (n : Nat) (f : Region → Region) : (s.modRegion n f).pcie = s.pcie := rfl
@[simp] theorem State.pcieMem_modRegion (n : Nat) (f : Region → Region) : (s.modRegion n f).pcieMem = s.pcieMem := rfl
@[simp] theorem State.power_modRegion (n : Nat) (f : Region → Region) : (s.modRegion n f).power = s.power := rfl
@[simp] theorem State.fuses_modRegion (n : Nat) (f : Region → Region) : (s.modRegion n f).fuses = s.fuses := rfl
@[simp] theorem State.boot_modRegion (n : Nat) (f : Region → Region) : (s.modRegion n f).boot = s.boot := rfl
@[simp] theorem State.flashA_modRegion (n : Nat) (f : Region → Region) : (s.modRegion n f).flashA = s.flashA := rfl
@[simp] theorem State.flashB_modRegion (n : Nat) (f : Region → Region) : (s.modRegion n f).flashB = s.flashB := rfl
@[simp] theorem State.rel_modRegion (n : Nat) (f : Region → Region) : (s.modRegion n f).rel = s.rel := rfl
@[simp] theorem State.samplers_modRegion (n : Nat) (f : Region → Region) : (s.modRegion n f).samplers = s.samplers := rfl
@[simp] theorem State.tap_modRegion (n : Nat) (f : Region → Region) : (s.modRegion n f).tap = s.tap := rfl
@[simp] theorem State.freeCtr_modRegion (n : Nat) (f : Region → Region) : (s.modRegion n f).freeCtr = s.freeCtr := rfl
@[simp] theorem State.stack_modStack_same (n : Nat) (f : Stack → Stack) : (s.modStack n f).stack n = f (s.stack n) := by
  simp [State.stack, State.modStack]
@[simp] theorem State.stack_modStack_ne {n m : Nat} (f : Stack → Stack) (h : m ≠ n) : (s.modStack n f).stack m = s.stack m := by
  simp [State.stack, State.modStack, h]
@[simp] theorem State.pending_modStack (n : Nat) (f : Stack → Stack) : (s.modStack n f).pending = s.pending := rfl
@[simp] theorem State.cores_modStack (n : Nat) (f : Stack → Stack) : (s.modStack n f).cores = s.cores := rfl
@[simp] theorem State.tillers_modStack (n : Nat) (f : Stack → Stack) : (s.modStack n f).tillers = s.tillers := rfl
@[simp] theorem State.nodes_modStack (n : Nat) (f : Stack → Stack) : (s.modStack n f).nodes = s.nodes := rfl
@[simp] theorem State.west_modStack (n : Nat) (f : Stack → Stack) : (s.modStack n f).west = s.west := rfl
@[simp] theorem State.east_modStack (n : Nat) (f : Stack → Stack) : (s.modStack n f).east = s.east := rfl
@[simp] theorem State.parkEn_modStack (n : Nat) (f : Stack → Stack) : (s.modStack n f).parkEn = s.parkEn := rfl
@[simp] theorem State.lastRefusal_modStack (n : Nat) (f : Stack → Stack) : (s.modStack n f).lastRefusal = s.lastRefusal := rfl
@[simp] theorem State.halfReq_modStack (n : Nat) (f : Stack → Stack) : (s.modStack n f).halfReq = s.halfReq := rfl
@[simp] theorem State.halfBusy_modStack (n : Nat) (f : Stack → Stack) : (s.modStack n f).halfBusy = s.halfBusy := rfl
@[simp] theorem State.time_modStack (n : Nat) (f : Stack → Stack) : (s.modStack n f).time = s.time := rfl
@[simp] theorem State.mem_modStack (n : Nat) (f : Stack → Stack) : (s.modStack n f).mem = s.mem := rfl
@[simp] theorem State.badWords_modStack (n : Nat) (f : Stack → Stack) : (s.modStack n f).badWords = s.badWords := rfl
@[simp] theorem State.ceWords_modStack (n : Nat) (f : Stack → Stack) : (s.modStack n f).ceWords = s.ceWords := rfl
@[simp] theorem State.repairs_modStack (n : Nat) (f : Stack → Stack) : (s.modStack n f).repairs = s.repairs := rfl
@[simp] theorem State.reqs_modStack (n : Nat) (f : Stack → Stack) : (s.modStack n f).reqs = s.reqs := rfl
@[simp] theorem State.nextId_modStack (n : Nat) (f : Stack → Stack) : (s.modStack n f).nextId = s.nextId := rfl
@[simp] theorem State.creditMsgs_modStack (n : Nat) (f : Stack → Stack) : (s.modStack n f).creditMsgs = s.creditMsgs := rfl
@[simp] theorem State.chCredits_modStack (n : Nat) (f : Stack → Stack) : (s.modStack n f).chCredits = s.chCredits := rfl
@[simp] theorem State.chMsgs_modStack (n : Nat) (f : Stack → Stack) : (s.modStack n f).chMsgs = s.chMsgs := rfl
@[simp] theorem State.faultReports_modStack (n : Nat) (f : Stack → Stack) : (s.modStack n f).faultReports = s.faultReports := rfl
@[simp] theorem State.units_modStack (n : Nat) (f : Stack → Stack) : (s.modStack n f).units = s.units := rfl
@[simp] theorem State.regions_modStack (n : Nat) (f : Stack → Stack) : (s.modStack n f).regions = s.regions := rfl
@[simp] theorem State.loader_modStack (n : Nat) (f : Stack → Stack) : (s.modStack n f).loader = s.loader := rfl
@[simp] theorem State.ports_modStack (n : Nat) (f : Stack → Stack) : (s.modStack n f).ports = s.ports := rfl
@[simp] theorem State.portNodes_modStack (n : Nat) (f : Stack → Stack) : (s.modStack n f).portNodes = s.portNodes := rfl
@[simp] theorem State.sessions_modStack (n : Nat) (f : Stack → Stack) : (s.modStack n f).sessions = s.sessions := rfl
@[simp] theorem State.mcPending_modStack (n : Nat) (f : Stack → Stack) : (s.modStack n f).mcPending = s.mcPending := rfl
@[simp] theorem State.holds_modStack (n : Nat) (f : Stack → Stack) : (s.modStack n f).holds = s.holds := rfl
@[simp] theorem State.culm_modStack (n : Nat) (f : Stack → Stack) : (s.modStack n f).culm = s.culm := rfl
@[simp] theorem State.culmNodes_modStack (n : Nat) (f : Stack → Stack) : (s.modStack n f).culmNodes = s.culmNodes := rfl
@[simp] theorem State.cache_modStack (n : Nat) (f : Stack → Stack) : (s.modStack n f).cache = s.cache := rfl
@[simp] theorem State.cnReq_modStack (n : Nat) (f : Stack → Stack) : (s.modStack n f).cnReq = s.cnReq := rfl
@[simp] theorem State.xintTgt_modStack (n : Nat) (f : Stack → Stack) : (s.modStack n f).xintTgt = s.xintTgt := rfl
@[simp] theorem State.eth_modStack (n : Nat) (f : Stack → Stack) : (s.modStack n f).eth = s.eth := rfl
@[simp] theorem State.pcie_modStack (n : Nat) (f : Stack → Stack) : (s.modStack n f).pcie = s.pcie := rfl
@[simp] theorem State.pcieMem_modStack (n : Nat) (f : Stack → Stack) : (s.modStack n f).pcieMem = s.pcieMem := rfl
@[simp] theorem State.power_modStack (n : Nat) (f : Stack → Stack) : (s.modStack n f).power = s.power := rfl
@[simp] theorem State.fuses_modStack (n : Nat) (f : Stack → Stack) : (s.modStack n f).fuses = s.fuses := rfl
@[simp] theorem State.boot_modStack (n : Nat) (f : Stack → Stack) : (s.modStack n f).boot = s.boot := rfl
@[simp] theorem State.flashA_modStack (n : Nat) (f : Stack → Stack) : (s.modStack n f).flashA = s.flashA := rfl
@[simp] theorem State.flashB_modStack (n : Nat) (f : Stack → Stack) : (s.modStack n f).flashB = s.flashB := rfl
@[simp] theorem State.rel_modStack (n : Nat) (f : Stack → Stack) : (s.modStack n f).rel = s.rel := rfl
@[simp] theorem State.samplers_modStack (n : Nat) (f : Stack → Stack) : (s.modStack n f).samplers = s.samplers := rfl
@[simp] theorem State.tap_modStack (n : Nat) (f : Stack → Stack) : (s.modStack n f).tap = s.tap := rfl
@[simp] theorem State.freeCtr_modStack (n : Nat) (f : Stack → Stack) : (s.modStack n f).freeCtr = s.freeCtr := rfl
@[simp] theorem State.port_modPort_same (n : Nat) (f : Port → Port) : (s.modPort n f).port n = f (s.port n) := by
  simp [State.port, State.modPort]
@[simp] theorem State.port_modPort_ne {n m : Nat} (f : Port → Port) (h : m ≠ n) : (s.modPort n f).port m = s.port m := by
  simp [State.port, State.modPort, h]
@[simp] theorem State.pending_modPort (n : Nat) (f : Port → Port) : (s.modPort n f).pending = s.pending := rfl
@[simp] theorem State.cores_modPort (n : Nat) (f : Port → Port) : (s.modPort n f).cores = s.cores := rfl
@[simp] theorem State.tillers_modPort (n : Nat) (f : Port → Port) : (s.modPort n f).tillers = s.tillers := rfl
@[simp] theorem State.nodes_modPort (n : Nat) (f : Port → Port) : (s.modPort n f).nodes = s.nodes := rfl
@[simp] theorem State.west_modPort (n : Nat) (f : Port → Port) : (s.modPort n f).west = s.west := rfl
@[simp] theorem State.east_modPort (n : Nat) (f : Port → Port) : (s.modPort n f).east = s.east := rfl
@[simp] theorem State.parkEn_modPort (n : Nat) (f : Port → Port) : (s.modPort n f).parkEn = s.parkEn := rfl
@[simp] theorem State.lastRefusal_modPort (n : Nat) (f : Port → Port) : (s.modPort n f).lastRefusal = s.lastRefusal := rfl
@[simp] theorem State.halfReq_modPort (n : Nat) (f : Port → Port) : (s.modPort n f).halfReq = s.halfReq := rfl
@[simp] theorem State.halfBusy_modPort (n : Nat) (f : Port → Port) : (s.modPort n f).halfBusy = s.halfBusy := rfl
@[simp] theorem State.time_modPort (n : Nat) (f : Port → Port) : (s.modPort n f).time = s.time := rfl
@[simp] theorem State.mem_modPort (n : Nat) (f : Port → Port) : (s.modPort n f).mem = s.mem := rfl
@[simp] theorem State.badWords_modPort (n : Nat) (f : Port → Port) : (s.modPort n f).badWords = s.badWords := rfl
@[simp] theorem State.ceWords_modPort (n : Nat) (f : Port → Port) : (s.modPort n f).ceWords = s.ceWords := rfl
@[simp] theorem State.repairs_modPort (n : Nat) (f : Port → Port) : (s.modPort n f).repairs = s.repairs := rfl
@[simp] theorem State.reqs_modPort (n : Nat) (f : Port → Port) : (s.modPort n f).reqs = s.reqs := rfl
@[simp] theorem State.nextId_modPort (n : Nat) (f : Port → Port) : (s.modPort n f).nextId = s.nextId := rfl
@[simp] theorem State.creditMsgs_modPort (n : Nat) (f : Port → Port) : (s.modPort n f).creditMsgs = s.creditMsgs := rfl
@[simp] theorem State.chCredits_modPort (n : Nat) (f : Port → Port) : (s.modPort n f).chCredits = s.chCredits := rfl
@[simp] theorem State.chMsgs_modPort (n : Nat) (f : Port → Port) : (s.modPort n f).chMsgs = s.chMsgs := rfl
@[simp] theorem State.faultReports_modPort (n : Nat) (f : Port → Port) : (s.modPort n f).faultReports = s.faultReports := rfl
@[simp] theorem State.units_modPort (n : Nat) (f : Port → Port) : (s.modPort n f).units = s.units := rfl
@[simp] theorem State.regions_modPort (n : Nat) (f : Port → Port) : (s.modPort n f).regions = s.regions := rfl
@[simp] theorem State.loader_modPort (n : Nat) (f : Port → Port) : (s.modPort n f).loader = s.loader := rfl
@[simp] theorem State.hbmStacks_modPort (n : Nat) (f : Port → Port) : (s.modPort n f).hbmStacks = s.hbmStacks := rfl
@[simp] theorem State.portNodes_modPort (n : Nat) (f : Port → Port) : (s.modPort n f).portNodes = s.portNodes := rfl
@[simp] theorem State.sessions_modPort (n : Nat) (f : Port → Port) : (s.modPort n f).sessions = s.sessions := rfl
@[simp] theorem State.mcPending_modPort (n : Nat) (f : Port → Port) : (s.modPort n f).mcPending = s.mcPending := rfl
@[simp] theorem State.holds_modPort (n : Nat) (f : Port → Port) : (s.modPort n f).holds = s.holds := rfl
@[simp] theorem State.culm_modPort (n : Nat) (f : Port → Port) : (s.modPort n f).culm = s.culm := rfl
@[simp] theorem State.culmNodes_modPort (n : Nat) (f : Port → Port) : (s.modPort n f).culmNodes = s.culmNodes := rfl
@[simp] theorem State.cache_modPort (n : Nat) (f : Port → Port) : (s.modPort n f).cache = s.cache := rfl
@[simp] theorem State.cnReq_modPort (n : Nat) (f : Port → Port) : (s.modPort n f).cnReq = s.cnReq := rfl
@[simp] theorem State.xintTgt_modPort (n : Nat) (f : Port → Port) : (s.modPort n f).xintTgt = s.xintTgt := rfl
@[simp] theorem State.eth_modPort (n : Nat) (f : Port → Port) : (s.modPort n f).eth = s.eth := rfl
@[simp] theorem State.pcie_modPort (n : Nat) (f : Port → Port) : (s.modPort n f).pcie = s.pcie := rfl
@[simp] theorem State.pcieMem_modPort (n : Nat) (f : Port → Port) : (s.modPort n f).pcieMem = s.pcieMem := rfl
@[simp] theorem State.power_modPort (n : Nat) (f : Port → Port) : (s.modPort n f).power = s.power := rfl
@[simp] theorem State.fuses_modPort (n : Nat) (f : Port → Port) : (s.modPort n f).fuses = s.fuses := rfl
@[simp] theorem State.boot_modPort (n : Nat) (f : Port → Port) : (s.modPort n f).boot = s.boot := rfl
@[simp] theorem State.flashA_modPort (n : Nat) (f : Port → Port) : (s.modPort n f).flashA = s.flashA := rfl
@[simp] theorem State.flashB_modPort (n : Nat) (f : Port → Port) : (s.modPort n f).flashB = s.flashB := rfl
@[simp] theorem State.rel_modPort (n : Nat) (f : Port → Port) : (s.modPort n f).rel = s.rel := rfl
@[simp] theorem State.samplers_modPort (n : Nat) (f : Port → Port) : (s.modPort n f).samplers = s.samplers := rfl
@[simp] theorem State.tap_modPort (n : Nat) (f : Port → Port) : (s.modPort n f).tap = s.tap := rfl
@[simp] theorem State.freeCtr_modPort (n : Nat) (f : Port → Port) : (s.modPort n f).freeCtr = s.freeCtr := rfl
@[simp] theorem State.portNode_modPortNode_same (n : Nat) (f : PortNode → PortNode) : (s.modPortNode n f).portNode n = f (s.portNode n) := by
  simp [State.portNode, State.modPortNode]
@[simp] theorem State.portNode_modPortNode_ne {n m : Nat} (f : PortNode → PortNode) (h : m ≠ n) : (s.modPortNode n f).portNode m = s.portNode m := by
  simp [State.portNode, State.modPortNode, h]
@[simp] theorem State.pending_modPortNode (n : Nat) (f : PortNode → PortNode) : (s.modPortNode n f).pending = s.pending := rfl
@[simp] theorem State.cores_modPortNode (n : Nat) (f : PortNode → PortNode) : (s.modPortNode n f).cores = s.cores := rfl
@[simp] theorem State.tillers_modPortNode (n : Nat) (f : PortNode → PortNode) : (s.modPortNode n f).tillers = s.tillers := rfl
@[simp] theorem State.nodes_modPortNode (n : Nat) (f : PortNode → PortNode) : (s.modPortNode n f).nodes = s.nodes := rfl
@[simp] theorem State.west_modPortNode (n : Nat) (f : PortNode → PortNode) : (s.modPortNode n f).west = s.west := rfl
@[simp] theorem State.east_modPortNode (n : Nat) (f : PortNode → PortNode) : (s.modPortNode n f).east = s.east := rfl
@[simp] theorem State.parkEn_modPortNode (n : Nat) (f : PortNode → PortNode) : (s.modPortNode n f).parkEn = s.parkEn := rfl
@[simp] theorem State.lastRefusal_modPortNode (n : Nat) (f : PortNode → PortNode) : (s.modPortNode n f).lastRefusal = s.lastRefusal := rfl
@[simp] theorem State.halfReq_modPortNode (n : Nat) (f : PortNode → PortNode) : (s.modPortNode n f).halfReq = s.halfReq := rfl
@[simp] theorem State.halfBusy_modPortNode (n : Nat) (f : PortNode → PortNode) : (s.modPortNode n f).halfBusy = s.halfBusy := rfl
@[simp] theorem State.time_modPortNode (n : Nat) (f : PortNode → PortNode) : (s.modPortNode n f).time = s.time := rfl
@[simp] theorem State.mem_modPortNode (n : Nat) (f : PortNode → PortNode) : (s.modPortNode n f).mem = s.mem := rfl
@[simp] theorem State.badWords_modPortNode (n : Nat) (f : PortNode → PortNode) : (s.modPortNode n f).badWords = s.badWords := rfl
@[simp] theorem State.ceWords_modPortNode (n : Nat) (f : PortNode → PortNode) : (s.modPortNode n f).ceWords = s.ceWords := rfl
@[simp] theorem State.repairs_modPortNode (n : Nat) (f : PortNode → PortNode) : (s.modPortNode n f).repairs = s.repairs := rfl
@[simp] theorem State.reqs_modPortNode (n : Nat) (f : PortNode → PortNode) : (s.modPortNode n f).reqs = s.reqs := rfl
@[simp] theorem State.nextId_modPortNode (n : Nat) (f : PortNode → PortNode) : (s.modPortNode n f).nextId = s.nextId := rfl
@[simp] theorem State.creditMsgs_modPortNode (n : Nat) (f : PortNode → PortNode) : (s.modPortNode n f).creditMsgs = s.creditMsgs := rfl
@[simp] theorem State.chCredits_modPortNode (n : Nat) (f : PortNode → PortNode) : (s.modPortNode n f).chCredits = s.chCredits := rfl
@[simp] theorem State.chMsgs_modPortNode (n : Nat) (f : PortNode → PortNode) : (s.modPortNode n f).chMsgs = s.chMsgs := rfl
@[simp] theorem State.faultReports_modPortNode (n : Nat) (f : PortNode → PortNode) : (s.modPortNode n f).faultReports = s.faultReports := rfl
@[simp] theorem State.units_modPortNode (n : Nat) (f : PortNode → PortNode) : (s.modPortNode n f).units = s.units := rfl
@[simp] theorem State.regions_modPortNode (n : Nat) (f : PortNode → PortNode) : (s.modPortNode n f).regions = s.regions := rfl
@[simp] theorem State.loader_modPortNode (n : Nat) (f : PortNode → PortNode) : (s.modPortNode n f).loader = s.loader := rfl
@[simp] theorem State.hbmStacks_modPortNode (n : Nat) (f : PortNode → PortNode) : (s.modPortNode n f).hbmStacks = s.hbmStacks := rfl
@[simp] theorem State.ports_modPortNode (n : Nat) (f : PortNode → PortNode) : (s.modPortNode n f).ports = s.ports := rfl
@[simp] theorem State.sessions_modPortNode (n : Nat) (f : PortNode → PortNode) : (s.modPortNode n f).sessions = s.sessions := rfl
@[simp] theorem State.mcPending_modPortNode (n : Nat) (f : PortNode → PortNode) : (s.modPortNode n f).mcPending = s.mcPending := rfl
@[simp] theorem State.holds_modPortNode (n : Nat) (f : PortNode → PortNode) : (s.modPortNode n f).holds = s.holds := rfl
@[simp] theorem State.culm_modPortNode (n : Nat) (f : PortNode → PortNode) : (s.modPortNode n f).culm = s.culm := rfl
@[simp] theorem State.culmNodes_modPortNode (n : Nat) (f : PortNode → PortNode) : (s.modPortNode n f).culmNodes = s.culmNodes := rfl
@[simp] theorem State.cache_modPortNode (n : Nat) (f : PortNode → PortNode) : (s.modPortNode n f).cache = s.cache := rfl
@[simp] theorem State.cnReq_modPortNode (n : Nat) (f : PortNode → PortNode) : (s.modPortNode n f).cnReq = s.cnReq := rfl
@[simp] theorem State.xintTgt_modPortNode (n : Nat) (f : PortNode → PortNode) : (s.modPortNode n f).xintTgt = s.xintTgt := rfl
@[simp] theorem State.eth_modPortNode (n : Nat) (f : PortNode → PortNode) : (s.modPortNode n f).eth = s.eth := rfl
@[simp] theorem State.pcie_modPortNode (n : Nat) (f : PortNode → PortNode) : (s.modPortNode n f).pcie = s.pcie := rfl
@[simp] theorem State.pcieMem_modPortNode (n : Nat) (f : PortNode → PortNode) : (s.modPortNode n f).pcieMem = s.pcieMem := rfl
@[simp] theorem State.power_modPortNode (n : Nat) (f : PortNode → PortNode) : (s.modPortNode n f).power = s.power := rfl
@[simp] theorem State.fuses_modPortNode (n : Nat) (f : PortNode → PortNode) : (s.modPortNode n f).fuses = s.fuses := rfl
@[simp] theorem State.boot_modPortNode (n : Nat) (f : PortNode → PortNode) : (s.modPortNode n f).boot = s.boot := rfl
@[simp] theorem State.flashA_modPortNode (n : Nat) (f : PortNode → PortNode) : (s.modPortNode n f).flashA = s.flashA := rfl
@[simp] theorem State.flashB_modPortNode (n : Nat) (f : PortNode → PortNode) : (s.modPortNode n f).flashB = s.flashB := rfl
@[simp] theorem State.rel_modPortNode (n : Nat) (f : PortNode → PortNode) : (s.modPortNode n f).rel = s.rel := rfl
@[simp] theorem State.samplers_modPortNode (n : Nat) (f : PortNode → PortNode) : (s.modPortNode n f).samplers = s.samplers := rfl
@[simp] theorem State.tap_modPortNode (n : Nat) (f : PortNode → PortNode) : (s.modPortNode n f).tap = s.tap := rfl
@[simp] theorem State.freeCtr_modPortNode (n : Nat) (f : PortNode → PortNode) : (s.modPortNode n f).freeCtr = s.freeCtr := rfl
@[simp] theorem State.session_modSession_same (n : Nat) (f : Session → Session) : (s.modSession n f).session n = f (s.session n) := by
  simp [State.session, State.modSession]
@[simp] theorem State.session_modSession_ne {n m : Nat} (f : Session → Session) (h : m ≠ n) : (s.modSession n f).session m = s.session m := by
  simp [State.session, State.modSession, h]
@[simp] theorem State.pending_modSession (n : Nat) (f : Session → Session) : (s.modSession n f).pending = s.pending := rfl
@[simp] theorem State.cores_modSession (n : Nat) (f : Session → Session) : (s.modSession n f).cores = s.cores := rfl
@[simp] theorem State.tillers_modSession (n : Nat) (f : Session → Session) : (s.modSession n f).tillers = s.tillers := rfl
@[simp] theorem State.nodes_modSession (n : Nat) (f : Session → Session) : (s.modSession n f).nodes = s.nodes := rfl
@[simp] theorem State.west_modSession (n : Nat) (f : Session → Session) : (s.modSession n f).west = s.west := rfl
@[simp] theorem State.east_modSession (n : Nat) (f : Session → Session) : (s.modSession n f).east = s.east := rfl
@[simp] theorem State.parkEn_modSession (n : Nat) (f : Session → Session) : (s.modSession n f).parkEn = s.parkEn := rfl
@[simp] theorem State.lastRefusal_modSession (n : Nat) (f : Session → Session) : (s.modSession n f).lastRefusal = s.lastRefusal := rfl
@[simp] theorem State.halfReq_modSession (n : Nat) (f : Session → Session) : (s.modSession n f).halfReq = s.halfReq := rfl
@[simp] theorem State.halfBusy_modSession (n : Nat) (f : Session → Session) : (s.modSession n f).halfBusy = s.halfBusy := rfl
@[simp] theorem State.time_modSession (n : Nat) (f : Session → Session) : (s.modSession n f).time = s.time := rfl
@[simp] theorem State.mem_modSession (n : Nat) (f : Session → Session) : (s.modSession n f).mem = s.mem := rfl
@[simp] theorem State.badWords_modSession (n : Nat) (f : Session → Session) : (s.modSession n f).badWords = s.badWords := rfl
@[simp] theorem State.ceWords_modSession (n : Nat) (f : Session → Session) : (s.modSession n f).ceWords = s.ceWords := rfl
@[simp] theorem State.repairs_modSession (n : Nat) (f : Session → Session) : (s.modSession n f).repairs = s.repairs := rfl
@[simp] theorem State.reqs_modSession (n : Nat) (f : Session → Session) : (s.modSession n f).reqs = s.reqs := rfl
@[simp] theorem State.nextId_modSession (n : Nat) (f : Session → Session) : (s.modSession n f).nextId = s.nextId := rfl
@[simp] theorem State.creditMsgs_modSession (n : Nat) (f : Session → Session) : (s.modSession n f).creditMsgs = s.creditMsgs := rfl
@[simp] theorem State.chCredits_modSession (n : Nat) (f : Session → Session) : (s.modSession n f).chCredits = s.chCredits := rfl
@[simp] theorem State.chMsgs_modSession (n : Nat) (f : Session → Session) : (s.modSession n f).chMsgs = s.chMsgs := rfl
@[simp] theorem State.faultReports_modSession (n : Nat) (f : Session → Session) : (s.modSession n f).faultReports = s.faultReports := rfl
@[simp] theorem State.units_modSession (n : Nat) (f : Session → Session) : (s.modSession n f).units = s.units := rfl
@[simp] theorem State.regions_modSession (n : Nat) (f : Session → Session) : (s.modSession n f).regions = s.regions := rfl
@[simp] theorem State.loader_modSession (n : Nat) (f : Session → Session) : (s.modSession n f).loader = s.loader := rfl
@[simp] theorem State.hbmStacks_modSession (n : Nat) (f : Session → Session) : (s.modSession n f).hbmStacks = s.hbmStacks := rfl
@[simp] theorem State.ports_modSession (n : Nat) (f : Session → Session) : (s.modSession n f).ports = s.ports := rfl
@[simp] theorem State.portNodes_modSession (n : Nat) (f : Session → Session) : (s.modSession n f).portNodes = s.portNodes := rfl
@[simp] theorem State.mcPending_modSession (n : Nat) (f : Session → Session) : (s.modSession n f).mcPending = s.mcPending := rfl
@[simp] theorem State.holds_modSession (n : Nat) (f : Session → Session) : (s.modSession n f).holds = s.holds := rfl
@[simp] theorem State.culm_modSession (n : Nat) (f : Session → Session) : (s.modSession n f).culm = s.culm := rfl
@[simp] theorem State.culmNodes_modSession (n : Nat) (f : Session → Session) : (s.modSession n f).culmNodes = s.culmNodes := rfl
@[simp] theorem State.cache_modSession (n : Nat) (f : Session → Session) : (s.modSession n f).cache = s.cache := rfl
@[simp] theorem State.cnReq_modSession (n : Nat) (f : Session → Session) : (s.modSession n f).cnReq = s.cnReq := rfl
@[simp] theorem State.xintTgt_modSession (n : Nat) (f : Session → Session) : (s.modSession n f).xintTgt = s.xintTgt := rfl
@[simp] theorem State.eth_modSession (n : Nat) (f : Session → Session) : (s.modSession n f).eth = s.eth := rfl
@[simp] theorem State.pcie_modSession (n : Nat) (f : Session → Session) : (s.modSession n f).pcie = s.pcie := rfl
@[simp] theorem State.pcieMem_modSession (n : Nat) (f : Session → Session) : (s.modSession n f).pcieMem = s.pcieMem := rfl
@[simp] theorem State.power_modSession (n : Nat) (f : Session → Session) : (s.modSession n f).power = s.power := rfl
@[simp] theorem State.fuses_modSession (n : Nat) (f : Session → Session) : (s.modSession n f).fuses = s.fuses := rfl
@[simp] theorem State.boot_modSession (n : Nat) (f : Session → Session) : (s.modSession n f).boot = s.boot := rfl
@[simp] theorem State.flashA_modSession (n : Nat) (f : Session → Session) : (s.modSession n f).flashA = s.flashA := rfl
@[simp] theorem State.flashB_modSession (n : Nat) (f : Session → Session) : (s.modSession n f).flashB = s.flashB := rfl
@[simp] theorem State.rel_modSession (n : Nat) (f : Session → Session) : (s.modSession n f).rel = s.rel := rfl
@[simp] theorem State.samplers_modSession (n : Nat) (f : Session → Session) : (s.modSession n f).samplers = s.samplers := rfl
@[simp] theorem State.tap_modSession (n : Nat) (f : Session → Session) : (s.modSession n f).tap = s.tap := rfl
@[simp] theorem State.freeCtr_modSession (n : Nat) (f : Session → Session) : (s.modSession n f).freeCtr = s.freeCtr := rfl
@[simp] theorem State.culmCore_modCulm_same (n : Nat) (f : CulmCore → CulmCore) : (s.modCulm n f).culmCore n = f (s.culmCore n) := by
  simp [State.culmCore, State.modCulm]
@[simp] theorem State.culmCore_modCulm_ne {n m : Nat} (f : CulmCore → CulmCore) (h : m ≠ n) : (s.modCulm n f).culmCore m = s.culmCore m := by
  simp [State.culmCore, State.modCulm, h]
@[simp] theorem State.pending_modCulm (n : Nat) (f : CulmCore → CulmCore) : (s.modCulm n f).pending = s.pending := rfl
@[simp] theorem State.cores_modCulm (n : Nat) (f : CulmCore → CulmCore) : (s.modCulm n f).cores = s.cores := rfl
@[simp] theorem State.tillers_modCulm (n : Nat) (f : CulmCore → CulmCore) : (s.modCulm n f).tillers = s.tillers := rfl
@[simp] theorem State.nodes_modCulm (n : Nat) (f : CulmCore → CulmCore) : (s.modCulm n f).nodes = s.nodes := rfl
@[simp] theorem State.west_modCulm (n : Nat) (f : CulmCore → CulmCore) : (s.modCulm n f).west = s.west := rfl
@[simp] theorem State.east_modCulm (n : Nat) (f : CulmCore → CulmCore) : (s.modCulm n f).east = s.east := rfl
@[simp] theorem State.parkEn_modCulm (n : Nat) (f : CulmCore → CulmCore) : (s.modCulm n f).parkEn = s.parkEn := rfl
@[simp] theorem State.lastRefusal_modCulm (n : Nat) (f : CulmCore → CulmCore) : (s.modCulm n f).lastRefusal = s.lastRefusal := rfl
@[simp] theorem State.halfReq_modCulm (n : Nat) (f : CulmCore → CulmCore) : (s.modCulm n f).halfReq = s.halfReq := rfl
@[simp] theorem State.halfBusy_modCulm (n : Nat) (f : CulmCore → CulmCore) : (s.modCulm n f).halfBusy = s.halfBusy := rfl
@[simp] theorem State.time_modCulm (n : Nat) (f : CulmCore → CulmCore) : (s.modCulm n f).time = s.time := rfl
@[simp] theorem State.mem_modCulm (n : Nat) (f : CulmCore → CulmCore) : (s.modCulm n f).mem = s.mem := rfl
@[simp] theorem State.badWords_modCulm (n : Nat) (f : CulmCore → CulmCore) : (s.modCulm n f).badWords = s.badWords := rfl
@[simp] theorem State.ceWords_modCulm (n : Nat) (f : CulmCore → CulmCore) : (s.modCulm n f).ceWords = s.ceWords := rfl
@[simp] theorem State.repairs_modCulm (n : Nat) (f : CulmCore → CulmCore) : (s.modCulm n f).repairs = s.repairs := rfl
@[simp] theorem State.reqs_modCulm (n : Nat) (f : CulmCore → CulmCore) : (s.modCulm n f).reqs = s.reqs := rfl
@[simp] theorem State.nextId_modCulm (n : Nat) (f : CulmCore → CulmCore) : (s.modCulm n f).nextId = s.nextId := rfl
@[simp] theorem State.creditMsgs_modCulm (n : Nat) (f : CulmCore → CulmCore) : (s.modCulm n f).creditMsgs = s.creditMsgs := rfl
@[simp] theorem State.chCredits_modCulm (n : Nat) (f : CulmCore → CulmCore) : (s.modCulm n f).chCredits = s.chCredits := rfl
@[simp] theorem State.chMsgs_modCulm (n : Nat) (f : CulmCore → CulmCore) : (s.modCulm n f).chMsgs = s.chMsgs := rfl
@[simp] theorem State.faultReports_modCulm (n : Nat) (f : CulmCore → CulmCore) : (s.modCulm n f).faultReports = s.faultReports := rfl
@[simp] theorem State.units_modCulm (n : Nat) (f : CulmCore → CulmCore) : (s.modCulm n f).units = s.units := rfl
@[simp] theorem State.regions_modCulm (n : Nat) (f : CulmCore → CulmCore) : (s.modCulm n f).regions = s.regions := rfl
@[simp] theorem State.loader_modCulm (n : Nat) (f : CulmCore → CulmCore) : (s.modCulm n f).loader = s.loader := rfl
@[simp] theorem State.hbmStacks_modCulm (n : Nat) (f : CulmCore → CulmCore) : (s.modCulm n f).hbmStacks = s.hbmStacks := rfl
@[simp] theorem State.ports_modCulm (n : Nat) (f : CulmCore → CulmCore) : (s.modCulm n f).ports = s.ports := rfl
@[simp] theorem State.portNodes_modCulm (n : Nat) (f : CulmCore → CulmCore) : (s.modCulm n f).portNodes = s.portNodes := rfl
@[simp] theorem State.sessions_modCulm (n : Nat) (f : CulmCore → CulmCore) : (s.modCulm n f).sessions = s.sessions := rfl
@[simp] theorem State.mcPending_modCulm (n : Nat) (f : CulmCore → CulmCore) : (s.modCulm n f).mcPending = s.mcPending := rfl
@[simp] theorem State.holds_modCulm (n : Nat) (f : CulmCore → CulmCore) : (s.modCulm n f).holds = s.holds := rfl
@[simp] theorem State.culmNodes_modCulm (n : Nat) (f : CulmCore → CulmCore) : (s.modCulm n f).culmNodes = s.culmNodes := rfl
@[simp] theorem State.cache_modCulm (n : Nat) (f : CulmCore → CulmCore) : (s.modCulm n f).cache = s.cache := rfl
@[simp] theorem State.cnReq_modCulm (n : Nat) (f : CulmCore → CulmCore) : (s.modCulm n f).cnReq = s.cnReq := rfl
@[simp] theorem State.xintTgt_modCulm (n : Nat) (f : CulmCore → CulmCore) : (s.modCulm n f).xintTgt = s.xintTgt := rfl
@[simp] theorem State.eth_modCulm (n : Nat) (f : CulmCore → CulmCore) : (s.modCulm n f).eth = s.eth := rfl
@[simp] theorem State.pcie_modCulm (n : Nat) (f : CulmCore → CulmCore) : (s.modCulm n f).pcie = s.pcie := rfl
@[simp] theorem State.pcieMem_modCulm (n : Nat) (f : CulmCore → CulmCore) : (s.modCulm n f).pcieMem = s.pcieMem := rfl
@[simp] theorem State.power_modCulm (n : Nat) (f : CulmCore → CulmCore) : (s.modCulm n f).power = s.power := rfl
@[simp] theorem State.fuses_modCulm (n : Nat) (f : CulmCore → CulmCore) : (s.modCulm n f).fuses = s.fuses := rfl
@[simp] theorem State.boot_modCulm (n : Nat) (f : CulmCore → CulmCore) : (s.modCulm n f).boot = s.boot := rfl
@[simp] theorem State.flashA_modCulm (n : Nat) (f : CulmCore → CulmCore) : (s.modCulm n f).flashA = s.flashA := rfl
@[simp] theorem State.flashB_modCulm (n : Nat) (f : CulmCore → CulmCore) : (s.modCulm n f).flashB = s.flashB := rfl
@[simp] theorem State.rel_modCulm (n : Nat) (f : CulmCore → CulmCore) : (s.modCulm n f).rel = s.rel := rfl
@[simp] theorem State.samplers_modCulm (n : Nat) (f : CulmCore → CulmCore) : (s.modCulm n f).samplers = s.samplers := rfl
@[simp] theorem State.tap_modCulm (n : Nat) (f : CulmCore → CulmCore) : (s.modCulm n f).tap = s.tap := rfl
@[simp] theorem State.freeCtr_modCulm (n : Nat) (f : CulmCore → CulmCore) : (s.modCulm n f).freeCtr = s.freeCtr := rfl
@[simp] theorem State.culmNode_modCulmNode_same (n : Nat) (f : CulmNode → CulmNode) : (s.modCulmNode n f).culmNode n = f (s.culmNode n) := by
  simp [State.culmNode, State.modCulmNode]
@[simp] theorem State.culmNode_modCulmNode_ne {n m : Nat} (f : CulmNode → CulmNode) (h : m ≠ n) : (s.modCulmNode n f).culmNode m = s.culmNode m := by
  simp [State.culmNode, State.modCulmNode, h]
@[simp] theorem State.pending_modCulmNode (n : Nat) (f : CulmNode → CulmNode) : (s.modCulmNode n f).pending = s.pending := rfl
@[simp] theorem State.cores_modCulmNode (n : Nat) (f : CulmNode → CulmNode) : (s.modCulmNode n f).cores = s.cores := rfl
@[simp] theorem State.tillers_modCulmNode (n : Nat) (f : CulmNode → CulmNode) : (s.modCulmNode n f).tillers = s.tillers := rfl
@[simp] theorem State.nodes_modCulmNode (n : Nat) (f : CulmNode → CulmNode) : (s.modCulmNode n f).nodes = s.nodes := rfl
@[simp] theorem State.west_modCulmNode (n : Nat) (f : CulmNode → CulmNode) : (s.modCulmNode n f).west = s.west := rfl
@[simp] theorem State.east_modCulmNode (n : Nat) (f : CulmNode → CulmNode) : (s.modCulmNode n f).east = s.east := rfl
@[simp] theorem State.parkEn_modCulmNode (n : Nat) (f : CulmNode → CulmNode) : (s.modCulmNode n f).parkEn = s.parkEn := rfl
@[simp] theorem State.lastRefusal_modCulmNode (n : Nat) (f : CulmNode → CulmNode) : (s.modCulmNode n f).lastRefusal = s.lastRefusal := rfl
@[simp] theorem State.halfReq_modCulmNode (n : Nat) (f : CulmNode → CulmNode) : (s.modCulmNode n f).halfReq = s.halfReq := rfl
@[simp] theorem State.halfBusy_modCulmNode (n : Nat) (f : CulmNode → CulmNode) : (s.modCulmNode n f).halfBusy = s.halfBusy := rfl
@[simp] theorem State.time_modCulmNode (n : Nat) (f : CulmNode → CulmNode) : (s.modCulmNode n f).time = s.time := rfl
@[simp] theorem State.mem_modCulmNode (n : Nat) (f : CulmNode → CulmNode) : (s.modCulmNode n f).mem = s.mem := rfl
@[simp] theorem State.badWords_modCulmNode (n : Nat) (f : CulmNode → CulmNode) : (s.modCulmNode n f).badWords = s.badWords := rfl
@[simp] theorem State.ceWords_modCulmNode (n : Nat) (f : CulmNode → CulmNode) : (s.modCulmNode n f).ceWords = s.ceWords := rfl
@[simp] theorem State.repairs_modCulmNode (n : Nat) (f : CulmNode → CulmNode) : (s.modCulmNode n f).repairs = s.repairs := rfl
@[simp] theorem State.reqs_modCulmNode (n : Nat) (f : CulmNode → CulmNode) : (s.modCulmNode n f).reqs = s.reqs := rfl
@[simp] theorem State.nextId_modCulmNode (n : Nat) (f : CulmNode → CulmNode) : (s.modCulmNode n f).nextId = s.nextId := rfl
@[simp] theorem State.creditMsgs_modCulmNode (n : Nat) (f : CulmNode → CulmNode) : (s.modCulmNode n f).creditMsgs = s.creditMsgs := rfl
@[simp] theorem State.chCredits_modCulmNode (n : Nat) (f : CulmNode → CulmNode) : (s.modCulmNode n f).chCredits = s.chCredits := rfl
@[simp] theorem State.chMsgs_modCulmNode (n : Nat) (f : CulmNode → CulmNode) : (s.modCulmNode n f).chMsgs = s.chMsgs := rfl
@[simp] theorem State.faultReports_modCulmNode (n : Nat) (f : CulmNode → CulmNode) : (s.modCulmNode n f).faultReports = s.faultReports := rfl
@[simp] theorem State.units_modCulmNode (n : Nat) (f : CulmNode → CulmNode) : (s.modCulmNode n f).units = s.units := rfl
@[simp] theorem State.regions_modCulmNode (n : Nat) (f : CulmNode → CulmNode) : (s.modCulmNode n f).regions = s.regions := rfl
@[simp] theorem State.loader_modCulmNode (n : Nat) (f : CulmNode → CulmNode) : (s.modCulmNode n f).loader = s.loader := rfl
@[simp] theorem State.hbmStacks_modCulmNode (n : Nat) (f : CulmNode → CulmNode) : (s.modCulmNode n f).hbmStacks = s.hbmStacks := rfl
@[simp] theorem State.ports_modCulmNode (n : Nat) (f : CulmNode → CulmNode) : (s.modCulmNode n f).ports = s.ports := rfl
@[simp] theorem State.portNodes_modCulmNode (n : Nat) (f : CulmNode → CulmNode) : (s.modCulmNode n f).portNodes = s.portNodes := rfl
@[simp] theorem State.sessions_modCulmNode (n : Nat) (f : CulmNode → CulmNode) : (s.modCulmNode n f).sessions = s.sessions := rfl
@[simp] theorem State.mcPending_modCulmNode (n : Nat) (f : CulmNode → CulmNode) : (s.modCulmNode n f).mcPending = s.mcPending := rfl
@[simp] theorem State.holds_modCulmNode (n : Nat) (f : CulmNode → CulmNode) : (s.modCulmNode n f).holds = s.holds := rfl
@[simp] theorem State.culm_modCulmNode (n : Nat) (f : CulmNode → CulmNode) : (s.modCulmNode n f).culm = s.culm := rfl
@[simp] theorem State.cache_modCulmNode (n : Nat) (f : CulmNode → CulmNode) : (s.modCulmNode n f).cache = s.cache := rfl
@[simp] theorem State.cnReq_modCulmNode (n : Nat) (f : CulmNode → CulmNode) : (s.modCulmNode n f).cnReq = s.cnReq := rfl
@[simp] theorem State.xintTgt_modCulmNode (n : Nat) (f : CulmNode → CulmNode) : (s.modCulmNode n f).xintTgt = s.xintTgt := rfl
@[simp] theorem State.eth_modCulmNode (n : Nat) (f : CulmNode → CulmNode) : (s.modCulmNode n f).eth = s.eth := rfl
@[simp] theorem State.pcie_modCulmNode (n : Nat) (f : CulmNode → CulmNode) : (s.modCulmNode n f).pcie = s.pcie := rfl
@[simp] theorem State.pcieMem_modCulmNode (n : Nat) (f : CulmNode → CulmNode) : (s.modCulmNode n f).pcieMem = s.pcieMem := rfl
@[simp] theorem State.power_modCulmNode (n : Nat) (f : CulmNode → CulmNode) : (s.modCulmNode n f).power = s.power := rfl
@[simp] theorem State.fuses_modCulmNode (n : Nat) (f : CulmNode → CulmNode) : (s.modCulmNode n f).fuses = s.fuses := rfl
@[simp] theorem State.boot_modCulmNode (n : Nat) (f : CulmNode → CulmNode) : (s.modCulmNode n f).boot = s.boot := rfl
@[simp] theorem State.flashA_modCulmNode (n : Nat) (f : CulmNode → CulmNode) : (s.modCulmNode n f).flashA = s.flashA := rfl
@[simp] theorem State.flashB_modCulmNode (n : Nat) (f : CulmNode → CulmNode) : (s.modCulmNode n f).flashB = s.flashB := rfl
@[simp] theorem State.rel_modCulmNode (n : Nat) (f : CulmNode → CulmNode) : (s.modCulmNode n f).rel = s.rel := rfl
@[simp] theorem State.samplers_modCulmNode (n : Nat) (f : CulmNode → CulmNode) : (s.modCulmNode n f).samplers = s.samplers := rfl
@[simp] theorem State.tap_modCulmNode (n : Nat) (f : CulmNode → CulmNode) : (s.modCulmNode n f).tap = s.tap := rfl
@[simp] theorem State.freeCtr_modCulmNode (n : Nat) (f : CulmNode → CulmNode) : (s.modCulmNode n f).freeCtr = s.freeCtr := rfl
@[simp] theorem State.ethPort_modEth_same (n : Nat) (f : EthPort → EthPort) : (s.modEth n f).ethPort n = f (s.ethPort n) := by
  simp [State.ethPort, State.modEth]
@[simp] theorem State.ethPort_modEth_ne {n m : Nat} (f : EthPort → EthPort) (h : m ≠ n) : (s.modEth n f).ethPort m = s.ethPort m := by
  simp [State.ethPort, State.modEth, h]
@[simp] theorem State.pending_modEth (n : Nat) (f : EthPort → EthPort) : (s.modEth n f).pending = s.pending := rfl
@[simp] theorem State.cores_modEth (n : Nat) (f : EthPort → EthPort) : (s.modEth n f).cores = s.cores := rfl
@[simp] theorem State.tillers_modEth (n : Nat) (f : EthPort → EthPort) : (s.modEth n f).tillers = s.tillers := rfl
@[simp] theorem State.nodes_modEth (n : Nat) (f : EthPort → EthPort) : (s.modEth n f).nodes = s.nodes := rfl
@[simp] theorem State.west_modEth (n : Nat) (f : EthPort → EthPort) : (s.modEth n f).west = s.west := rfl
@[simp] theorem State.east_modEth (n : Nat) (f : EthPort → EthPort) : (s.modEth n f).east = s.east := rfl
@[simp] theorem State.parkEn_modEth (n : Nat) (f : EthPort → EthPort) : (s.modEth n f).parkEn = s.parkEn := rfl
@[simp] theorem State.lastRefusal_modEth (n : Nat) (f : EthPort → EthPort) : (s.modEth n f).lastRefusal = s.lastRefusal := rfl
@[simp] theorem State.halfReq_modEth (n : Nat) (f : EthPort → EthPort) : (s.modEth n f).halfReq = s.halfReq := rfl
@[simp] theorem State.halfBusy_modEth (n : Nat) (f : EthPort → EthPort) : (s.modEth n f).halfBusy = s.halfBusy := rfl
@[simp] theorem State.time_modEth (n : Nat) (f : EthPort → EthPort) : (s.modEth n f).time = s.time := rfl
@[simp] theorem State.mem_modEth (n : Nat) (f : EthPort → EthPort) : (s.modEth n f).mem = s.mem := rfl
@[simp] theorem State.badWords_modEth (n : Nat) (f : EthPort → EthPort) : (s.modEth n f).badWords = s.badWords := rfl
@[simp] theorem State.ceWords_modEth (n : Nat) (f : EthPort → EthPort) : (s.modEth n f).ceWords = s.ceWords := rfl
@[simp] theorem State.repairs_modEth (n : Nat) (f : EthPort → EthPort) : (s.modEth n f).repairs = s.repairs := rfl
@[simp] theorem State.reqs_modEth (n : Nat) (f : EthPort → EthPort) : (s.modEth n f).reqs = s.reqs := rfl
@[simp] theorem State.nextId_modEth (n : Nat) (f : EthPort → EthPort) : (s.modEth n f).nextId = s.nextId := rfl
@[simp] theorem State.creditMsgs_modEth (n : Nat) (f : EthPort → EthPort) : (s.modEth n f).creditMsgs = s.creditMsgs := rfl
@[simp] theorem State.chCredits_modEth (n : Nat) (f : EthPort → EthPort) : (s.modEth n f).chCredits = s.chCredits := rfl
@[simp] theorem State.chMsgs_modEth (n : Nat) (f : EthPort → EthPort) : (s.modEth n f).chMsgs = s.chMsgs := rfl
@[simp] theorem State.faultReports_modEth (n : Nat) (f : EthPort → EthPort) : (s.modEth n f).faultReports = s.faultReports := rfl
@[simp] theorem State.units_modEth (n : Nat) (f : EthPort → EthPort) : (s.modEth n f).units = s.units := rfl
@[simp] theorem State.regions_modEth (n : Nat) (f : EthPort → EthPort) : (s.modEth n f).regions = s.regions := rfl
@[simp] theorem State.loader_modEth (n : Nat) (f : EthPort → EthPort) : (s.modEth n f).loader = s.loader := rfl
@[simp] theorem State.hbmStacks_modEth (n : Nat) (f : EthPort → EthPort) : (s.modEth n f).hbmStacks = s.hbmStacks := rfl
@[simp] theorem State.ports_modEth (n : Nat) (f : EthPort → EthPort) : (s.modEth n f).ports = s.ports := rfl
@[simp] theorem State.portNodes_modEth (n : Nat) (f : EthPort → EthPort) : (s.modEth n f).portNodes = s.portNodes := rfl
@[simp] theorem State.sessions_modEth (n : Nat) (f : EthPort → EthPort) : (s.modEth n f).sessions = s.sessions := rfl
@[simp] theorem State.mcPending_modEth (n : Nat) (f : EthPort → EthPort) : (s.modEth n f).mcPending = s.mcPending := rfl
@[simp] theorem State.holds_modEth (n : Nat) (f : EthPort → EthPort) : (s.modEth n f).holds = s.holds := rfl
@[simp] theorem State.culm_modEth (n : Nat) (f : EthPort → EthPort) : (s.modEth n f).culm = s.culm := rfl
@[simp] theorem State.culmNodes_modEth (n : Nat) (f : EthPort → EthPort) : (s.modEth n f).culmNodes = s.culmNodes := rfl
@[simp] theorem State.cache_modEth (n : Nat) (f : EthPort → EthPort) : (s.modEth n f).cache = s.cache := rfl
@[simp] theorem State.cnReq_modEth (n : Nat) (f : EthPort → EthPort) : (s.modEth n f).cnReq = s.cnReq := rfl
@[simp] theorem State.xintTgt_modEth (n : Nat) (f : EthPort → EthPort) : (s.modEth n f).xintTgt = s.xintTgt := rfl
@[simp] theorem State.pcie_modEth (n : Nat) (f : EthPort → EthPort) : (s.modEth n f).pcie = s.pcie := rfl
@[simp] theorem State.pcieMem_modEth (n : Nat) (f : EthPort → EthPort) : (s.modEth n f).pcieMem = s.pcieMem := rfl
@[simp] theorem State.power_modEth (n : Nat) (f : EthPort → EthPort) : (s.modEth n f).power = s.power := rfl
@[simp] theorem State.fuses_modEth (n : Nat) (f : EthPort → EthPort) : (s.modEth n f).fuses = s.fuses := rfl
@[simp] theorem State.boot_modEth (n : Nat) (f : EthPort → EthPort) : (s.modEth n f).boot = s.boot := rfl
@[simp] theorem State.flashA_modEth (n : Nat) (f : EthPort → EthPort) : (s.modEth n f).flashA = s.flashA := rfl
@[simp] theorem State.flashB_modEth (n : Nat) (f : EthPort → EthPort) : (s.modEth n f).flashB = s.flashB := rfl
@[simp] theorem State.rel_modEth (n : Nat) (f : EthPort → EthPort) : (s.modEth n f).rel = s.rel := rfl
@[simp] theorem State.samplers_modEth (n : Nat) (f : EthPort → EthPort) : (s.modEth n f).samplers = s.samplers := rfl
@[simp] theorem State.tap_modEth (n : Nat) (f : EthPort → EthPort) : (s.modEth n f).tap = s.tap := rfl
@[simp] theorem State.freeCtr_modEth (n : Nat) (f : EthPort → EthPort) : (s.modEth n f).freeCtr = s.freeCtr := rfl
@[simp] theorem State.sampler_modSampler_same (n : Nat) (f : Sampler → Sampler) : (s.modSampler n f).sampler n = f (s.sampler n) := by
  simp [State.sampler, State.modSampler]
@[simp] theorem State.sampler_modSampler_ne {n m : Nat} (f : Sampler → Sampler) (h : m ≠ n) : (s.modSampler n f).sampler m = s.sampler m := by
  simp [State.sampler, State.modSampler, h]
@[simp] theorem State.pending_modSampler (n : Nat) (f : Sampler → Sampler) : (s.modSampler n f).pending = s.pending := rfl
@[simp] theorem State.cores_modSampler (n : Nat) (f : Sampler → Sampler) : (s.modSampler n f).cores = s.cores := rfl
@[simp] theorem State.tillers_modSampler (n : Nat) (f : Sampler → Sampler) : (s.modSampler n f).tillers = s.tillers := rfl
@[simp] theorem State.nodes_modSampler (n : Nat) (f : Sampler → Sampler) : (s.modSampler n f).nodes = s.nodes := rfl
@[simp] theorem State.west_modSampler (n : Nat) (f : Sampler → Sampler) : (s.modSampler n f).west = s.west := rfl
@[simp] theorem State.east_modSampler (n : Nat) (f : Sampler → Sampler) : (s.modSampler n f).east = s.east := rfl
@[simp] theorem State.parkEn_modSampler (n : Nat) (f : Sampler → Sampler) : (s.modSampler n f).parkEn = s.parkEn := rfl
@[simp] theorem State.lastRefusal_modSampler (n : Nat) (f : Sampler → Sampler) : (s.modSampler n f).lastRefusal = s.lastRefusal := rfl
@[simp] theorem State.halfReq_modSampler (n : Nat) (f : Sampler → Sampler) : (s.modSampler n f).halfReq = s.halfReq := rfl
@[simp] theorem State.halfBusy_modSampler (n : Nat) (f : Sampler → Sampler) : (s.modSampler n f).halfBusy = s.halfBusy := rfl
@[simp] theorem State.time_modSampler (n : Nat) (f : Sampler → Sampler) : (s.modSampler n f).time = s.time := rfl
@[simp] theorem State.mem_modSampler (n : Nat) (f : Sampler → Sampler) : (s.modSampler n f).mem = s.mem := rfl
@[simp] theorem State.badWords_modSampler (n : Nat) (f : Sampler → Sampler) : (s.modSampler n f).badWords = s.badWords := rfl
@[simp] theorem State.ceWords_modSampler (n : Nat) (f : Sampler → Sampler) : (s.modSampler n f).ceWords = s.ceWords := rfl
@[simp] theorem State.repairs_modSampler (n : Nat) (f : Sampler → Sampler) : (s.modSampler n f).repairs = s.repairs := rfl
@[simp] theorem State.reqs_modSampler (n : Nat) (f : Sampler → Sampler) : (s.modSampler n f).reqs = s.reqs := rfl
@[simp] theorem State.nextId_modSampler (n : Nat) (f : Sampler → Sampler) : (s.modSampler n f).nextId = s.nextId := rfl
@[simp] theorem State.creditMsgs_modSampler (n : Nat) (f : Sampler → Sampler) : (s.modSampler n f).creditMsgs = s.creditMsgs := rfl
@[simp] theorem State.chCredits_modSampler (n : Nat) (f : Sampler → Sampler) : (s.modSampler n f).chCredits = s.chCredits := rfl
@[simp] theorem State.chMsgs_modSampler (n : Nat) (f : Sampler → Sampler) : (s.modSampler n f).chMsgs = s.chMsgs := rfl
@[simp] theorem State.faultReports_modSampler (n : Nat) (f : Sampler → Sampler) : (s.modSampler n f).faultReports = s.faultReports := rfl
@[simp] theorem State.units_modSampler (n : Nat) (f : Sampler → Sampler) : (s.modSampler n f).units = s.units := rfl
@[simp] theorem State.regions_modSampler (n : Nat) (f : Sampler → Sampler) : (s.modSampler n f).regions = s.regions := rfl
@[simp] theorem State.loader_modSampler (n : Nat) (f : Sampler → Sampler) : (s.modSampler n f).loader = s.loader := rfl
@[simp] theorem State.hbmStacks_modSampler (n : Nat) (f : Sampler → Sampler) : (s.modSampler n f).hbmStacks = s.hbmStacks := rfl
@[simp] theorem State.ports_modSampler (n : Nat) (f : Sampler → Sampler) : (s.modSampler n f).ports = s.ports := rfl
@[simp] theorem State.portNodes_modSampler (n : Nat) (f : Sampler → Sampler) : (s.modSampler n f).portNodes = s.portNodes := rfl
@[simp] theorem State.sessions_modSampler (n : Nat) (f : Sampler → Sampler) : (s.modSampler n f).sessions = s.sessions := rfl
@[simp] theorem State.mcPending_modSampler (n : Nat) (f : Sampler → Sampler) : (s.modSampler n f).mcPending = s.mcPending := rfl
@[simp] theorem State.holds_modSampler (n : Nat) (f : Sampler → Sampler) : (s.modSampler n f).holds = s.holds := rfl
@[simp] theorem State.culm_modSampler (n : Nat) (f : Sampler → Sampler) : (s.modSampler n f).culm = s.culm := rfl
@[simp] theorem State.culmNodes_modSampler (n : Nat) (f : Sampler → Sampler) : (s.modSampler n f).culmNodes = s.culmNodes := rfl
@[simp] theorem State.cache_modSampler (n : Nat) (f : Sampler → Sampler) : (s.modSampler n f).cache = s.cache := rfl
@[simp] theorem State.cnReq_modSampler (n : Nat) (f : Sampler → Sampler) : (s.modSampler n f).cnReq = s.cnReq := rfl
@[simp] theorem State.xintTgt_modSampler (n : Nat) (f : Sampler → Sampler) : (s.modSampler n f).xintTgt = s.xintTgt := rfl
@[simp] theorem State.eth_modSampler (n : Nat) (f : Sampler → Sampler) : (s.modSampler n f).eth = s.eth := rfl
@[simp] theorem State.pcie_modSampler (n : Nat) (f : Sampler → Sampler) : (s.modSampler n f).pcie = s.pcie := rfl
@[simp] theorem State.pcieMem_modSampler (n : Nat) (f : Sampler → Sampler) : (s.modSampler n f).pcieMem = s.pcieMem := rfl
@[simp] theorem State.power_modSampler (n : Nat) (f : Sampler → Sampler) : (s.modSampler n f).power = s.power := rfl
@[simp] theorem State.fuses_modSampler (n : Nat) (f : Sampler → Sampler) : (s.modSampler n f).fuses = s.fuses := rfl
@[simp] theorem State.boot_modSampler (n : Nat) (f : Sampler → Sampler) : (s.modSampler n f).boot = s.boot := rfl
@[simp] theorem State.flashA_modSampler (n : Nat) (f : Sampler → Sampler) : (s.modSampler n f).flashA = s.flashA := rfl
@[simp] theorem State.flashB_modSampler (n : Nat) (f : Sampler → Sampler) : (s.modSampler n f).flashB = s.flashB := rfl
@[simp] theorem State.rel_modSampler (n : Nat) (f : Sampler → Sampler) : (s.modSampler n f).rel = s.rel := rfl
@[simp] theorem State.tap_modSampler (n : Nat) (f : Sampler → Sampler) : (s.modSampler n f).tap = s.tap := rfl
@[simp] theorem State.freeCtr_modSampler (n : Nat) (f : Sampler → Sampler) : (s.modSampler n f).freeCtr = s.freeCtr := rfl
@[simp] theorem State.unitOf_modUnit_same (n : Nat) (f : Unit → Unit) : (s.modUnit n f).unitOf n = f (s.unitOf n) := by
  simp [State.unitOf, State.modUnit]
@[simp] theorem State.unitOf_modUnit_ne {n m : Nat} (f : Unit → Unit) (h : m ≠ n) : (s.modUnit n f).unitOf m = s.unitOf m := by
  simp [State.unitOf, State.modUnit, h]
@[simp] theorem State.pending_modUnit (n : Nat) (f : Unit → Unit) : (s.modUnit n f).pending = s.pending := rfl
@[simp] theorem State.cores_modUnit (n : Nat) (f : Unit → Unit) : (s.modUnit n f).cores = s.cores := rfl
@[simp] theorem State.tillers_modUnit (n : Nat) (f : Unit → Unit) : (s.modUnit n f).tillers = s.tillers := rfl
@[simp] theorem State.nodes_modUnit (n : Nat) (f : Unit → Unit) : (s.modUnit n f).nodes = s.nodes := rfl
@[simp] theorem State.west_modUnit (n : Nat) (f : Unit → Unit) : (s.modUnit n f).west = s.west := rfl
@[simp] theorem State.east_modUnit (n : Nat) (f : Unit → Unit) : (s.modUnit n f).east = s.east := rfl
@[simp] theorem State.parkEn_modUnit (n : Nat) (f : Unit → Unit) : (s.modUnit n f).parkEn = s.parkEn := rfl
@[simp] theorem State.lastRefusal_modUnit (n : Nat) (f : Unit → Unit) : (s.modUnit n f).lastRefusal = s.lastRefusal := rfl
@[simp] theorem State.halfReq_modUnit (n : Nat) (f : Unit → Unit) : (s.modUnit n f).halfReq = s.halfReq := rfl
@[simp] theorem State.halfBusy_modUnit (n : Nat) (f : Unit → Unit) : (s.modUnit n f).halfBusy = s.halfBusy := rfl
@[simp] theorem State.time_modUnit (n : Nat) (f : Unit → Unit) : (s.modUnit n f).time = s.time := rfl
@[simp] theorem State.mem_modUnit (n : Nat) (f : Unit → Unit) : (s.modUnit n f).mem = s.mem := rfl
@[simp] theorem State.badWords_modUnit (n : Nat) (f : Unit → Unit) : (s.modUnit n f).badWords = s.badWords := rfl
@[simp] theorem State.ceWords_modUnit (n : Nat) (f : Unit → Unit) : (s.modUnit n f).ceWords = s.ceWords := rfl
@[simp] theorem State.repairs_modUnit (n : Nat) (f : Unit → Unit) : (s.modUnit n f).repairs = s.repairs := rfl
@[simp] theorem State.reqs_modUnit (n : Nat) (f : Unit → Unit) : (s.modUnit n f).reqs = s.reqs := rfl
@[simp] theorem State.nextId_modUnit (n : Nat) (f : Unit → Unit) : (s.modUnit n f).nextId = s.nextId := rfl
@[simp] theorem State.creditMsgs_modUnit (n : Nat) (f : Unit → Unit) : (s.modUnit n f).creditMsgs = s.creditMsgs := rfl
@[simp] theorem State.chCredits_modUnit (n : Nat) (f : Unit → Unit) : (s.modUnit n f).chCredits = s.chCredits := rfl
@[simp] theorem State.chMsgs_modUnit (n : Nat) (f : Unit → Unit) : (s.modUnit n f).chMsgs = s.chMsgs := rfl
@[simp] theorem State.faultReports_modUnit (n : Nat) (f : Unit → Unit) : (s.modUnit n f).faultReports = s.faultReports := rfl
@[simp] theorem State.regions_modUnit (n : Nat) (f : Unit → Unit) : (s.modUnit n f).regions = s.regions := rfl
@[simp] theorem State.loader_modUnit (n : Nat) (f : Unit → Unit) : (s.modUnit n f).loader = s.loader := rfl
@[simp] theorem State.hbmStacks_modUnit (n : Nat) (f : Unit → Unit) : (s.modUnit n f).hbmStacks = s.hbmStacks := rfl
@[simp] theorem State.ports_modUnit (n : Nat) (f : Unit → Unit) : (s.modUnit n f).ports = s.ports := rfl
@[simp] theorem State.portNodes_modUnit (n : Nat) (f : Unit → Unit) : (s.modUnit n f).portNodes = s.portNodes := rfl
@[simp] theorem State.sessions_modUnit (n : Nat) (f : Unit → Unit) : (s.modUnit n f).sessions = s.sessions := rfl
@[simp] theorem State.mcPending_modUnit (n : Nat) (f : Unit → Unit) : (s.modUnit n f).mcPending = s.mcPending := rfl
@[simp] theorem State.holds_modUnit (n : Nat) (f : Unit → Unit) : (s.modUnit n f).holds = s.holds := rfl
@[simp] theorem State.culm_modUnit (n : Nat) (f : Unit → Unit) : (s.modUnit n f).culm = s.culm := rfl
@[simp] theorem State.culmNodes_modUnit (n : Nat) (f : Unit → Unit) : (s.modUnit n f).culmNodes = s.culmNodes := rfl
@[simp] theorem State.cache_modUnit (n : Nat) (f : Unit → Unit) : (s.modUnit n f).cache = s.cache := rfl
@[simp] theorem State.cnReq_modUnit (n : Nat) (f : Unit → Unit) : (s.modUnit n f).cnReq = s.cnReq := rfl
@[simp] theorem State.xintTgt_modUnit (n : Nat) (f : Unit → Unit) : (s.modUnit n f).xintTgt = s.xintTgt := rfl
@[simp] theorem State.eth_modUnit (n : Nat) (f : Unit → Unit) : (s.modUnit n f).eth = s.eth := rfl
@[simp] theorem State.pcie_modUnit (n : Nat) (f : Unit → Unit) : (s.modUnit n f).pcie = s.pcie := rfl
@[simp] theorem State.pcieMem_modUnit (n : Nat) (f : Unit → Unit) : (s.modUnit n f).pcieMem = s.pcieMem := rfl
@[simp] theorem State.power_modUnit (n : Nat) (f : Unit → Unit) : (s.modUnit n f).power = s.power := rfl
@[simp] theorem State.fuses_modUnit (n : Nat) (f : Unit → Unit) : (s.modUnit n f).fuses = s.fuses := rfl
@[simp] theorem State.boot_modUnit (n : Nat) (f : Unit → Unit) : (s.modUnit n f).boot = s.boot := rfl
@[simp] theorem State.flashA_modUnit (n : Nat) (f : Unit → Unit) : (s.modUnit n f).flashA = s.flashA := rfl
@[simp] theorem State.flashB_modUnit (n : Nat) (f : Unit → Unit) : (s.modUnit n f).flashB = s.flashB := rfl
@[simp] theorem State.rel_modUnit (n : Nat) (f : Unit → Unit) : (s.modUnit n f).rel = s.rel := rfl
@[simp] theorem State.samplers_modUnit (n : Nat) (f : Unit → Unit) : (s.modUnit n f).samplers = s.samplers := rfl
@[simp] theorem State.tap_modUnit (n : Nat) (f : Unit → Unit) : (s.modUnit n f).tap = s.tap := rfl
@[simp] theorem State.freeCtr_modUnit (n : Nat) (f : Unit → Unit) : (s.modUnit n f).freeCtr = s.freeCtr := rfl
@[simp] theorem State.core_modCore_same (n : Nat) (f : Core → Core) : (s.modCore n f).core n = f (s.core n) := by
  simp [State.setCore, State.core, State.modCore]
@[simp] theorem State.core_modCore_ne {n m : Nat} (f : Core → Core) (h : m ≠ n) : (s.modCore n f).core m = s.core m := by
  simp [State.setCore, State.core, State.modCore, h]
@[simp] theorem State.pending_modCore (n : Nat) (f : Core → Core) : (s.modCore n f).pending = s.pending := rfl
@[simp] theorem State.tillers_modCore (n : Nat) (f : Core → Core) : (s.modCore n f).tillers = s.tillers := rfl
@[simp] theorem State.nodes_modCore (n : Nat) (f : Core → Core) : (s.modCore n f).nodes = s.nodes := rfl
@[simp] theorem State.west_modCore (n : Nat) (f : Core → Core) : (s.modCore n f).west = s.west := rfl
@[simp] theorem State.east_modCore (n : Nat) (f : Core → Core) : (s.modCore n f).east = s.east := rfl
@[simp] theorem State.parkEn_modCore (n : Nat) (f : Core → Core) : (s.modCore n f).parkEn = s.parkEn := rfl
@[simp] theorem State.lastRefusal_modCore (n : Nat) (f : Core → Core) : (s.modCore n f).lastRefusal = s.lastRefusal := rfl
@[simp] theorem State.halfReq_modCore (n : Nat) (f : Core → Core) : (s.modCore n f).halfReq = s.halfReq := rfl
@[simp] theorem State.halfBusy_modCore (n : Nat) (f : Core → Core) : (s.modCore n f).halfBusy = s.halfBusy := rfl
@[simp] theorem State.time_modCore (n : Nat) (f : Core → Core) : (s.modCore n f).time = s.time := rfl
@[simp] theorem State.mem_modCore (n : Nat) (f : Core → Core) : (s.modCore n f).mem = s.mem := rfl
@[simp] theorem State.badWords_modCore (n : Nat) (f : Core → Core) : (s.modCore n f).badWords = s.badWords := rfl
@[simp] theorem State.ceWords_modCore (n : Nat) (f : Core → Core) : (s.modCore n f).ceWords = s.ceWords := rfl
@[simp] theorem State.repairs_modCore (n : Nat) (f : Core → Core) : (s.modCore n f).repairs = s.repairs := rfl
@[simp] theorem State.reqs_modCore (n : Nat) (f : Core → Core) : (s.modCore n f).reqs = s.reqs := rfl
@[simp] theorem State.nextId_modCore (n : Nat) (f : Core → Core) : (s.modCore n f).nextId = s.nextId := rfl
@[simp] theorem State.creditMsgs_modCore (n : Nat) (f : Core → Core) : (s.modCore n f).creditMsgs = s.creditMsgs := rfl
@[simp] theorem State.chCredits_modCore (n : Nat) (f : Core → Core) : (s.modCore n f).chCredits = s.chCredits := rfl
@[simp] theorem State.chMsgs_modCore (n : Nat) (f : Core → Core) : (s.modCore n f).chMsgs = s.chMsgs := rfl
@[simp] theorem State.faultReports_modCore (n : Nat) (f : Core → Core) : (s.modCore n f).faultReports = s.faultReports := rfl
@[simp] theorem State.units_modCore (n : Nat) (f : Core → Core) : (s.modCore n f).units = s.units := rfl
@[simp] theorem State.regions_modCore (n : Nat) (f : Core → Core) : (s.modCore n f).regions = s.regions := rfl
@[simp] theorem State.loader_modCore (n : Nat) (f : Core → Core) : (s.modCore n f).loader = s.loader := rfl
@[simp] theorem State.hbmStacks_modCore (n : Nat) (f : Core → Core) : (s.modCore n f).hbmStacks = s.hbmStacks := rfl
@[simp] theorem State.ports_modCore (n : Nat) (f : Core → Core) : (s.modCore n f).ports = s.ports := rfl
@[simp] theorem State.portNodes_modCore (n : Nat) (f : Core → Core) : (s.modCore n f).portNodes = s.portNodes := rfl
@[simp] theorem State.sessions_modCore (n : Nat) (f : Core → Core) : (s.modCore n f).sessions = s.sessions := rfl
@[simp] theorem State.mcPending_modCore (n : Nat) (f : Core → Core) : (s.modCore n f).mcPending = s.mcPending := rfl
@[simp] theorem State.holds_modCore (n : Nat) (f : Core → Core) : (s.modCore n f).holds = s.holds := rfl
@[simp] theorem State.culm_modCore (n : Nat) (f : Core → Core) : (s.modCore n f).culm = s.culm := rfl
@[simp] theorem State.culmNodes_modCore (n : Nat) (f : Core → Core) : (s.modCore n f).culmNodes = s.culmNodes := rfl
@[simp] theorem State.cache_modCore (n : Nat) (f : Core → Core) : (s.modCore n f).cache = s.cache := rfl
@[simp] theorem State.cnReq_modCore (n : Nat) (f : Core → Core) : (s.modCore n f).cnReq = s.cnReq := rfl
@[simp] theorem State.xintTgt_modCore (n : Nat) (f : Core → Core) : (s.modCore n f).xintTgt = s.xintTgt := rfl
@[simp] theorem State.eth_modCore (n : Nat) (f : Core → Core) : (s.modCore n f).eth = s.eth := rfl
@[simp] theorem State.pcie_modCore (n : Nat) (f : Core → Core) : (s.modCore n f).pcie = s.pcie := rfl
@[simp] theorem State.pcieMem_modCore (n : Nat) (f : Core → Core) : (s.modCore n f).pcieMem = s.pcieMem := rfl
@[simp] theorem State.power_modCore (n : Nat) (f : Core → Core) : (s.modCore n f).power = s.power := rfl
@[simp] theorem State.fuses_modCore (n : Nat) (f : Core → Core) : (s.modCore n f).fuses = s.fuses := rfl
@[simp] theorem State.boot_modCore (n : Nat) (f : Core → Core) : (s.modCore n f).boot = s.boot := rfl
@[simp] theorem State.flashA_modCore (n : Nat) (f : Core → Core) : (s.modCore n f).flashA = s.flashA := rfl
@[simp] theorem State.flashB_modCore (n : Nat) (f : Core → Core) : (s.modCore n f).flashB = s.flashB := rfl
@[simp] theorem State.rel_modCore (n : Nat) (f : Core → Core) : (s.modCore n f).rel = s.rel := rfl
@[simp] theorem State.samplers_modCore (n : Nat) (f : Core → Core) : (s.modCore n f).samplers = s.samplers := rfl
@[simp] theorem State.tap_modCore (n : Nat) (f : Core → Core) : (s.modCore n f).tap = s.tap := rfl
@[simp] theorem State.freeCtr_modCore (n : Nat) (f : Core → Core) : (s.modCore n f).freeCtr = s.freeCtr := rfl
@[simp] theorem State.node_modTiller (m : Nat) (n : Nat) (f : Tiller → Tiller) : (s.modTiller n f).node m = s.node m := rfl
@[simp] theorem State.region_modTiller (m : Nat) (n : Nat) (f : Tiller → Tiller) : (s.modTiller n f).region m = s.region m := rfl
@[simp] theorem State.stack_modTiller (m : Nat) (n : Nat) (f : Tiller → Tiller) : (s.modTiller n f).stack m = s.stack m := rfl
@[simp] theorem State.port_modTiller (m : Nat) (n : Nat) (f : Tiller → Tiller) : (s.modTiller n f).port m = s.port m := rfl
@[simp] theorem State.portNode_modTiller (m : Nat) (n : Nat) (f : Tiller → Tiller) : (s.modTiller n f).portNode m = s.portNode m := rfl
@[simp] theorem State.session_modTiller (m : Nat) (n : Nat) (f : Tiller → Tiller) : (s.modTiller n f).session m = s.session m := rfl
@[simp] theorem State.culmCore_modTiller (m : Nat) (n : Nat) (f : Tiller → Tiller) : (s.modTiller n f).culmCore m = s.culmCore m := rfl
@[simp] theorem State.culmNode_modTiller (m : Nat) (n : Nat) (f : Tiller → Tiller) : (s.modTiller n f).culmNode m = s.culmNode m := rfl
@[simp] theorem State.ethPort_modTiller (m : Nat) (n : Nat) (f : Tiller → Tiller) : (s.modTiller n f).ethPort m = s.ethPort m := rfl
@[simp] theorem State.sampler_modTiller (m : Nat) (n : Nat) (f : Tiller → Tiller) : (s.modTiller n f).sampler m = s.sampler m := rfl
@[simp] theorem State.unitOf_modTiller (m : Nat) (n : Nat) (f : Tiller → Tiller) : (s.modTiller n f).unitOf m = s.unitOf m := rfl
@[simp] theorem State.core_modTiller (m : Nat) (n : Nat) (f : Tiller → Tiller) : (s.modTiller n f).core m = s.core m := rfl
@[simp] theorem State.tiller_modNode (m : Nat) (n : Nat) (f : Node → Node) : (s.modNode n f).tiller m = s.tiller m := rfl
@[simp] theorem State.region_modNode (m : Nat) (n : Nat) (f : Node → Node) : (s.modNode n f).region m = s.region m := rfl
@[simp] theorem State.stack_modNode (m : Nat) (n : Nat) (f : Node → Node) : (s.modNode n f).stack m = s.stack m := rfl
@[simp] theorem State.port_modNode (m : Nat) (n : Nat) (f : Node → Node) : (s.modNode n f).port m = s.port m := rfl
@[simp] theorem State.portNode_modNode (m : Nat) (n : Nat) (f : Node → Node) : (s.modNode n f).portNode m = s.portNode m := rfl
@[simp] theorem State.session_modNode (m : Nat) (n : Nat) (f : Node → Node) : (s.modNode n f).session m = s.session m := rfl
@[simp] theorem State.culmCore_modNode (m : Nat) (n : Nat) (f : Node → Node) : (s.modNode n f).culmCore m = s.culmCore m := rfl
@[simp] theorem State.culmNode_modNode (m : Nat) (n : Nat) (f : Node → Node) : (s.modNode n f).culmNode m = s.culmNode m := rfl
@[simp] theorem State.ethPort_modNode (m : Nat) (n : Nat) (f : Node → Node) : (s.modNode n f).ethPort m = s.ethPort m := rfl
@[simp] theorem State.sampler_modNode (m : Nat) (n : Nat) (f : Node → Node) : (s.modNode n f).sampler m = s.sampler m := rfl
@[simp] theorem State.unitOf_modNode (m : Nat) (n : Nat) (f : Node → Node) : (s.modNode n f).unitOf m = s.unitOf m := rfl
@[simp] theorem State.core_modNode (m : Nat) (n : Nat) (f : Node → Node) : (s.modNode n f).core m = s.core m := rfl
@[simp] theorem State.tiller_modRegion (m : Nat) (n : Nat) (f : Region → Region) : (s.modRegion n f).tiller m = s.tiller m := rfl
@[simp] theorem State.node_modRegion (m : Nat) (n : Nat) (f : Region → Region) : (s.modRegion n f).node m = s.node m := rfl
@[simp] theorem State.stack_modRegion (m : Nat) (n : Nat) (f : Region → Region) : (s.modRegion n f).stack m = s.stack m := rfl
@[simp] theorem State.port_modRegion (m : Nat) (n : Nat) (f : Region → Region) : (s.modRegion n f).port m = s.port m := rfl
@[simp] theorem State.portNode_modRegion (m : Nat) (n : Nat) (f : Region → Region) : (s.modRegion n f).portNode m = s.portNode m := rfl
@[simp] theorem State.session_modRegion (m : Nat) (n : Nat) (f : Region → Region) : (s.modRegion n f).session m = s.session m := rfl
@[simp] theorem State.culmCore_modRegion (m : Nat) (n : Nat) (f : Region → Region) : (s.modRegion n f).culmCore m = s.culmCore m := rfl
@[simp] theorem State.culmNode_modRegion (m : Nat) (n : Nat) (f : Region → Region) : (s.modRegion n f).culmNode m = s.culmNode m := rfl
@[simp] theorem State.ethPort_modRegion (m : Nat) (n : Nat) (f : Region → Region) : (s.modRegion n f).ethPort m = s.ethPort m := rfl
@[simp] theorem State.sampler_modRegion (m : Nat) (n : Nat) (f : Region → Region) : (s.modRegion n f).sampler m = s.sampler m := rfl
@[simp] theorem State.unitOf_modRegion (m : Nat) (n : Nat) (f : Region → Region) : (s.modRegion n f).unitOf m = s.unitOf m := rfl
@[simp] theorem State.core_modRegion (m : Nat) (n : Nat) (f : Region → Region) : (s.modRegion n f).core m = s.core m := rfl
@[simp] theorem State.tiller_modStack (m : Nat) (n : Nat) (f : Stack → Stack) : (s.modStack n f).tiller m = s.tiller m := rfl
@[simp] theorem State.node_modStack (m : Nat) (n : Nat) (f : Stack → Stack) : (s.modStack n f).node m = s.node m := rfl
@[simp] theorem State.region_modStack (m : Nat) (n : Nat) (f : Stack → Stack) : (s.modStack n f).region m = s.region m := rfl
@[simp] theorem State.port_modStack (m : Nat) (n : Nat) (f : Stack → Stack) : (s.modStack n f).port m = s.port m := rfl
@[simp] theorem State.portNode_modStack (m : Nat) (n : Nat) (f : Stack → Stack) : (s.modStack n f).portNode m = s.portNode m := rfl
@[simp] theorem State.session_modStack (m : Nat) (n : Nat) (f : Stack → Stack) : (s.modStack n f).session m = s.session m := rfl
@[simp] theorem State.culmCore_modStack (m : Nat) (n : Nat) (f : Stack → Stack) : (s.modStack n f).culmCore m = s.culmCore m := rfl
@[simp] theorem State.culmNode_modStack (m : Nat) (n : Nat) (f : Stack → Stack) : (s.modStack n f).culmNode m = s.culmNode m := rfl
@[simp] theorem State.ethPort_modStack (m : Nat) (n : Nat) (f : Stack → Stack) : (s.modStack n f).ethPort m = s.ethPort m := rfl
@[simp] theorem State.sampler_modStack (m : Nat) (n : Nat) (f : Stack → Stack) : (s.modStack n f).sampler m = s.sampler m := rfl
@[simp] theorem State.unitOf_modStack (m : Nat) (n : Nat) (f : Stack → Stack) : (s.modStack n f).unitOf m = s.unitOf m := rfl
@[simp] theorem State.core_modStack (m : Nat) (n : Nat) (f : Stack → Stack) : (s.modStack n f).core m = s.core m := rfl
@[simp] theorem State.tiller_modPort (m : Nat) (n : Nat) (f : Port → Port) : (s.modPort n f).tiller m = s.tiller m := rfl
@[simp] theorem State.node_modPort (m : Nat) (n : Nat) (f : Port → Port) : (s.modPort n f).node m = s.node m := rfl
@[simp] theorem State.region_modPort (m : Nat) (n : Nat) (f : Port → Port) : (s.modPort n f).region m = s.region m := rfl
@[simp] theorem State.stack_modPort (m : Nat) (n : Nat) (f : Port → Port) : (s.modPort n f).stack m = s.stack m := rfl
@[simp] theorem State.portNode_modPort (m : Nat) (n : Nat) (f : Port → Port) : (s.modPort n f).portNode m = s.portNode m := rfl
@[simp] theorem State.session_modPort (m : Nat) (n : Nat) (f : Port → Port) : (s.modPort n f).session m = s.session m := rfl
@[simp] theorem State.culmCore_modPort (m : Nat) (n : Nat) (f : Port → Port) : (s.modPort n f).culmCore m = s.culmCore m := rfl
@[simp] theorem State.culmNode_modPort (m : Nat) (n : Nat) (f : Port → Port) : (s.modPort n f).culmNode m = s.culmNode m := rfl
@[simp] theorem State.ethPort_modPort (m : Nat) (n : Nat) (f : Port → Port) : (s.modPort n f).ethPort m = s.ethPort m := rfl
@[simp] theorem State.sampler_modPort (m : Nat) (n : Nat) (f : Port → Port) : (s.modPort n f).sampler m = s.sampler m := rfl
@[simp] theorem State.unitOf_modPort (m : Nat) (n : Nat) (f : Port → Port) : (s.modPort n f).unitOf m = s.unitOf m := rfl
@[simp] theorem State.core_modPort (m : Nat) (n : Nat) (f : Port → Port) : (s.modPort n f).core m = s.core m := rfl
@[simp] theorem State.tiller_modPortNode (m : Nat) (n : Nat) (f : PortNode → PortNode) : (s.modPortNode n f).tiller m = s.tiller m := rfl
@[simp] theorem State.node_modPortNode (m : Nat) (n : Nat) (f : PortNode → PortNode) : (s.modPortNode n f).node m = s.node m := rfl
@[simp] theorem State.region_modPortNode (m : Nat) (n : Nat) (f : PortNode → PortNode) : (s.modPortNode n f).region m = s.region m := rfl
@[simp] theorem State.stack_modPortNode (m : Nat) (n : Nat) (f : PortNode → PortNode) : (s.modPortNode n f).stack m = s.stack m := rfl
@[simp] theorem State.port_modPortNode (m : Nat) (n : Nat) (f : PortNode → PortNode) : (s.modPortNode n f).port m = s.port m := rfl
@[simp] theorem State.session_modPortNode (m : Nat) (n : Nat) (f : PortNode → PortNode) : (s.modPortNode n f).session m = s.session m := rfl
@[simp] theorem State.culmCore_modPortNode (m : Nat) (n : Nat) (f : PortNode → PortNode) : (s.modPortNode n f).culmCore m = s.culmCore m := rfl
@[simp] theorem State.culmNode_modPortNode (m : Nat) (n : Nat) (f : PortNode → PortNode) : (s.modPortNode n f).culmNode m = s.culmNode m := rfl
@[simp] theorem State.ethPort_modPortNode (m : Nat) (n : Nat) (f : PortNode → PortNode) : (s.modPortNode n f).ethPort m = s.ethPort m := rfl
@[simp] theorem State.sampler_modPortNode (m : Nat) (n : Nat) (f : PortNode → PortNode) : (s.modPortNode n f).sampler m = s.sampler m := rfl
@[simp] theorem State.unitOf_modPortNode (m : Nat) (n : Nat) (f : PortNode → PortNode) : (s.modPortNode n f).unitOf m = s.unitOf m := rfl
@[simp] theorem State.core_modPortNode (m : Nat) (n : Nat) (f : PortNode → PortNode) : (s.modPortNode n f).core m = s.core m := rfl
@[simp] theorem State.tiller_modSession (m : Nat) (n : Nat) (f : Session → Session) : (s.modSession n f).tiller m = s.tiller m := rfl
@[simp] theorem State.node_modSession (m : Nat) (n : Nat) (f : Session → Session) : (s.modSession n f).node m = s.node m := rfl
@[simp] theorem State.region_modSession (m : Nat) (n : Nat) (f : Session → Session) : (s.modSession n f).region m = s.region m := rfl
@[simp] theorem State.stack_modSession (m : Nat) (n : Nat) (f : Session → Session) : (s.modSession n f).stack m = s.stack m := rfl
@[simp] theorem State.port_modSession (m : Nat) (n : Nat) (f : Session → Session) : (s.modSession n f).port m = s.port m := rfl
@[simp] theorem State.portNode_modSession (m : Nat) (n : Nat) (f : Session → Session) : (s.modSession n f).portNode m = s.portNode m := rfl
@[simp] theorem State.culmCore_modSession (m : Nat) (n : Nat) (f : Session → Session) : (s.modSession n f).culmCore m = s.culmCore m := rfl
@[simp] theorem State.culmNode_modSession (m : Nat) (n : Nat) (f : Session → Session) : (s.modSession n f).culmNode m = s.culmNode m := rfl
@[simp] theorem State.ethPort_modSession (m : Nat) (n : Nat) (f : Session → Session) : (s.modSession n f).ethPort m = s.ethPort m := rfl
@[simp] theorem State.sampler_modSession (m : Nat) (n : Nat) (f : Session → Session) : (s.modSession n f).sampler m = s.sampler m := rfl
@[simp] theorem State.unitOf_modSession (m : Nat) (n : Nat) (f : Session → Session) : (s.modSession n f).unitOf m = s.unitOf m := rfl
@[simp] theorem State.core_modSession (m : Nat) (n : Nat) (f : Session → Session) : (s.modSession n f).core m = s.core m := rfl
@[simp] theorem State.tiller_modCulm (m : Nat) (n : Nat) (f : CulmCore → CulmCore) : (s.modCulm n f).tiller m = s.tiller m := rfl
@[simp] theorem State.node_modCulm (m : Nat) (n : Nat) (f : CulmCore → CulmCore) : (s.modCulm n f).node m = s.node m := rfl
@[simp] theorem State.region_modCulm (m : Nat) (n : Nat) (f : CulmCore → CulmCore) : (s.modCulm n f).region m = s.region m := rfl
@[simp] theorem State.stack_modCulm (m : Nat) (n : Nat) (f : CulmCore → CulmCore) : (s.modCulm n f).stack m = s.stack m := rfl
@[simp] theorem State.port_modCulm (m : Nat) (n : Nat) (f : CulmCore → CulmCore) : (s.modCulm n f).port m = s.port m := rfl
@[simp] theorem State.portNode_modCulm (m : Nat) (n : Nat) (f : CulmCore → CulmCore) : (s.modCulm n f).portNode m = s.portNode m := rfl
@[simp] theorem State.session_modCulm (m : Nat) (n : Nat) (f : CulmCore → CulmCore) : (s.modCulm n f).session m = s.session m := rfl
@[simp] theorem State.culmNode_modCulm (m : Nat) (n : Nat) (f : CulmCore → CulmCore) : (s.modCulm n f).culmNode m = s.culmNode m := rfl
@[simp] theorem State.ethPort_modCulm (m : Nat) (n : Nat) (f : CulmCore → CulmCore) : (s.modCulm n f).ethPort m = s.ethPort m := rfl
@[simp] theorem State.sampler_modCulm (m : Nat) (n : Nat) (f : CulmCore → CulmCore) : (s.modCulm n f).sampler m = s.sampler m := rfl
@[simp] theorem State.unitOf_modCulm (m : Nat) (n : Nat) (f : CulmCore → CulmCore) : (s.modCulm n f).unitOf m = s.unitOf m := rfl
@[simp] theorem State.core_modCulm (m : Nat) (n : Nat) (f : CulmCore → CulmCore) : (s.modCulm n f).core m = s.core m := rfl
@[simp] theorem State.tiller_modCulmNode (m : Nat) (n : Nat) (f : CulmNode → CulmNode) : (s.modCulmNode n f).tiller m = s.tiller m := rfl
@[simp] theorem State.node_modCulmNode (m : Nat) (n : Nat) (f : CulmNode → CulmNode) : (s.modCulmNode n f).node m = s.node m := rfl
@[simp] theorem State.region_modCulmNode (m : Nat) (n : Nat) (f : CulmNode → CulmNode) : (s.modCulmNode n f).region m = s.region m := rfl
@[simp] theorem State.stack_modCulmNode (m : Nat) (n : Nat) (f : CulmNode → CulmNode) : (s.modCulmNode n f).stack m = s.stack m := rfl
@[simp] theorem State.port_modCulmNode (m : Nat) (n : Nat) (f : CulmNode → CulmNode) : (s.modCulmNode n f).port m = s.port m := rfl
@[simp] theorem State.portNode_modCulmNode (m : Nat) (n : Nat) (f : CulmNode → CulmNode) : (s.modCulmNode n f).portNode m = s.portNode m := rfl
@[simp] theorem State.session_modCulmNode (m : Nat) (n : Nat) (f : CulmNode → CulmNode) : (s.modCulmNode n f).session m = s.session m := rfl
@[simp] theorem State.culmCore_modCulmNode (m : Nat) (n : Nat) (f : CulmNode → CulmNode) : (s.modCulmNode n f).culmCore m = s.culmCore m := rfl
@[simp] theorem State.ethPort_modCulmNode (m : Nat) (n : Nat) (f : CulmNode → CulmNode) : (s.modCulmNode n f).ethPort m = s.ethPort m := rfl
@[simp] theorem State.sampler_modCulmNode (m : Nat) (n : Nat) (f : CulmNode → CulmNode) : (s.modCulmNode n f).sampler m = s.sampler m := rfl
@[simp] theorem State.unitOf_modCulmNode (m : Nat) (n : Nat) (f : CulmNode → CulmNode) : (s.modCulmNode n f).unitOf m = s.unitOf m := rfl
@[simp] theorem State.core_modCulmNode (m : Nat) (n : Nat) (f : CulmNode → CulmNode) : (s.modCulmNode n f).core m = s.core m := rfl
@[simp] theorem State.tiller_modEth (m : Nat) (n : Nat) (f : EthPort → EthPort) : (s.modEth n f).tiller m = s.tiller m := rfl
@[simp] theorem State.node_modEth (m : Nat) (n : Nat) (f : EthPort → EthPort) : (s.modEth n f).node m = s.node m := rfl
@[simp] theorem State.region_modEth (m : Nat) (n : Nat) (f : EthPort → EthPort) : (s.modEth n f).region m = s.region m := rfl
@[simp] theorem State.stack_modEth (m : Nat) (n : Nat) (f : EthPort → EthPort) : (s.modEth n f).stack m = s.stack m := rfl
@[simp] theorem State.port_modEth (m : Nat) (n : Nat) (f : EthPort → EthPort) : (s.modEth n f).port m = s.port m := rfl
@[simp] theorem State.portNode_modEth (m : Nat) (n : Nat) (f : EthPort → EthPort) : (s.modEth n f).portNode m = s.portNode m := rfl
@[simp] theorem State.session_modEth (m : Nat) (n : Nat) (f : EthPort → EthPort) : (s.modEth n f).session m = s.session m := rfl
@[simp] theorem State.culmCore_modEth (m : Nat) (n : Nat) (f : EthPort → EthPort) : (s.modEth n f).culmCore m = s.culmCore m := rfl
@[simp] theorem State.culmNode_modEth (m : Nat) (n : Nat) (f : EthPort → EthPort) : (s.modEth n f).culmNode m = s.culmNode m := rfl
@[simp] theorem State.sampler_modEth (m : Nat) (n : Nat) (f : EthPort → EthPort) : (s.modEth n f).sampler m = s.sampler m := rfl
@[simp] theorem State.unitOf_modEth (m : Nat) (n : Nat) (f : EthPort → EthPort) : (s.modEth n f).unitOf m = s.unitOf m := rfl
@[simp] theorem State.core_modEth (m : Nat) (n : Nat) (f : EthPort → EthPort) : (s.modEth n f).core m = s.core m := rfl
@[simp] theorem State.tiller_modSampler (m : Nat) (n : Nat) (f : Sampler → Sampler) : (s.modSampler n f).tiller m = s.tiller m := rfl
@[simp] theorem State.node_modSampler (m : Nat) (n : Nat) (f : Sampler → Sampler) : (s.modSampler n f).node m = s.node m := rfl
@[simp] theorem State.region_modSampler (m : Nat) (n : Nat) (f : Sampler → Sampler) : (s.modSampler n f).region m = s.region m := rfl
@[simp] theorem State.stack_modSampler (m : Nat) (n : Nat) (f : Sampler → Sampler) : (s.modSampler n f).stack m = s.stack m := rfl
@[simp] theorem State.port_modSampler (m : Nat) (n : Nat) (f : Sampler → Sampler) : (s.modSampler n f).port m = s.port m := rfl
@[simp] theorem State.portNode_modSampler (m : Nat) (n : Nat) (f : Sampler → Sampler) : (s.modSampler n f).portNode m = s.portNode m := rfl
@[simp] theorem State.session_modSampler (m : Nat) (n : Nat) (f : Sampler → Sampler) : (s.modSampler n f).session m = s.session m := rfl
@[simp] theorem State.culmCore_modSampler (m : Nat) (n : Nat) (f : Sampler → Sampler) : (s.modSampler n f).culmCore m = s.culmCore m := rfl
@[simp] theorem State.culmNode_modSampler (m : Nat) (n : Nat) (f : Sampler → Sampler) : (s.modSampler n f).culmNode m = s.culmNode m := rfl
@[simp] theorem State.ethPort_modSampler (m : Nat) (n : Nat) (f : Sampler → Sampler) : (s.modSampler n f).ethPort m = s.ethPort m := rfl
@[simp] theorem State.unitOf_modSampler (m : Nat) (n : Nat) (f : Sampler → Sampler) : (s.modSampler n f).unitOf m = s.unitOf m := rfl
@[simp] theorem State.core_modSampler (m : Nat) (n : Nat) (f : Sampler → Sampler) : (s.modSampler n f).core m = s.core m := rfl
@[simp] theorem State.tiller_modUnit (m : Nat) (n : Nat) (f : Unit → Unit) : (s.modUnit n f).tiller m = s.tiller m := rfl
@[simp] theorem State.node_modUnit (m : Nat) (n : Nat) (f : Unit → Unit) : (s.modUnit n f).node m = s.node m := rfl
@[simp] theorem State.region_modUnit (m : Nat) (n : Nat) (f : Unit → Unit) : (s.modUnit n f).region m = s.region m := rfl
@[simp] theorem State.stack_modUnit (m : Nat) (n : Nat) (f : Unit → Unit) : (s.modUnit n f).stack m = s.stack m := rfl
@[simp] theorem State.port_modUnit (m : Nat) (n : Nat) (f : Unit → Unit) : (s.modUnit n f).port m = s.port m := rfl
@[simp] theorem State.portNode_modUnit (m : Nat) (n : Nat) (f : Unit → Unit) : (s.modUnit n f).portNode m = s.portNode m := rfl
@[simp] theorem State.session_modUnit (m : Nat) (n : Nat) (f : Unit → Unit) : (s.modUnit n f).session m = s.session m := rfl
@[simp] theorem State.culmCore_modUnit (m : Nat) (n : Nat) (f : Unit → Unit) : (s.modUnit n f).culmCore m = s.culmCore m := rfl
@[simp] theorem State.culmNode_modUnit (m : Nat) (n : Nat) (f : Unit → Unit) : (s.modUnit n f).culmNode m = s.culmNode m := rfl
@[simp] theorem State.ethPort_modUnit (m : Nat) (n : Nat) (f : Unit → Unit) : (s.modUnit n f).ethPort m = s.ethPort m := rfl
@[simp] theorem State.sampler_modUnit (m : Nat) (n : Nat) (f : Unit → Unit) : (s.modUnit n f).sampler m = s.sampler m := rfl
@[simp] theorem State.core_modUnit (m : Nat) (n : Nat) (f : Unit → Unit) : (s.modUnit n f).core m = s.core m := rfl
@[simp] theorem State.tiller_modCore (m : Nat) (n : Nat) (f : Core → Core) : (s.modCore n f).tiller m = s.tiller m := rfl
@[simp] theorem State.node_modCore (m : Nat) (n : Nat) (f : Core → Core) : (s.modCore n f).node m = s.node m := rfl
@[simp] theorem State.region_modCore (m : Nat) (n : Nat) (f : Core → Core) : (s.modCore n f).region m = s.region m := rfl
@[simp] theorem State.stack_modCore (m : Nat) (n : Nat) (f : Core → Core) : (s.modCore n f).stack m = s.stack m := rfl
@[simp] theorem State.port_modCore (m : Nat) (n : Nat) (f : Core → Core) : (s.modCore n f).port m = s.port m := rfl
@[simp] theorem State.portNode_modCore (m : Nat) (n : Nat) (f : Core → Core) : (s.modCore n f).portNode m = s.portNode m := rfl
@[simp] theorem State.session_modCore (m : Nat) (n : Nat) (f : Core → Core) : (s.modCore n f).session m = s.session m := rfl
@[simp] theorem State.culmCore_modCore (m : Nat) (n : Nat) (f : Core → Core) : (s.modCore n f).culmCore m = s.culmCore m := rfl
@[simp] theorem State.culmNode_modCore (m : Nat) (n : Nat) (f : Core → Core) : (s.modCore n f).culmNode m = s.culmNode m := rfl
@[simp] theorem State.ethPort_modCore (m : Nat) (n : Nat) (f : Core → Core) : (s.modCore n f).ethPort m = s.ethPort m := rfl
@[simp] theorem State.sampler_modCore (m : Nat) (n : Nat) (f : Core → Core) : (s.modCore n f).sampler m = s.sampler m := rfl
@[simp] theorem State.unitOf_modCore (m : Nat) (n : Nat) (f : Core → Core) : (s.modCore n f).unitOf m = s.unitOf m := rfl
@[simp] theorem State.pending_modRel (f : Rel → Rel) : (s.modRel f).pending = s.pending := rfl
@[simp] theorem State.cores_modRel (f : Rel → Rel) : (s.modRel f).cores = s.cores := rfl
@[simp] theorem State.tillers_modRel (f : Rel → Rel) : (s.modRel f).tillers = s.tillers := rfl
@[simp] theorem State.nodes_modRel (f : Rel → Rel) : (s.modRel f).nodes = s.nodes := rfl
@[simp] theorem State.west_modRel (f : Rel → Rel) : (s.modRel f).west = s.west := rfl
@[simp] theorem State.east_modRel (f : Rel → Rel) : (s.modRel f).east = s.east := rfl
@[simp] theorem State.parkEn_modRel (f : Rel → Rel) : (s.modRel f).parkEn = s.parkEn := rfl
@[simp] theorem State.lastRefusal_modRel (f : Rel → Rel) : (s.modRel f).lastRefusal = s.lastRefusal := rfl
@[simp] theorem State.halfReq_modRel (f : Rel → Rel) : (s.modRel f).halfReq = s.halfReq := rfl
@[simp] theorem State.halfBusy_modRel (f : Rel → Rel) : (s.modRel f).halfBusy = s.halfBusy := rfl
@[simp] theorem State.time_modRel (f : Rel → Rel) : (s.modRel f).time = s.time := rfl
@[simp] theorem State.mem_modRel (f : Rel → Rel) : (s.modRel f).mem = s.mem := rfl
@[simp] theorem State.badWords_modRel (f : Rel → Rel) : (s.modRel f).badWords = s.badWords := rfl
@[simp] theorem State.ceWords_modRel (f : Rel → Rel) : (s.modRel f).ceWords = s.ceWords := rfl
@[simp] theorem State.repairs_modRel (f : Rel → Rel) : (s.modRel f).repairs = s.repairs := rfl
@[simp] theorem State.reqs_modRel (f : Rel → Rel) : (s.modRel f).reqs = s.reqs := rfl
@[simp] theorem State.nextId_modRel (f : Rel → Rel) : (s.modRel f).nextId = s.nextId := rfl
@[simp] theorem State.creditMsgs_modRel (f : Rel → Rel) : (s.modRel f).creditMsgs = s.creditMsgs := rfl
@[simp] theorem State.chCredits_modRel (f : Rel → Rel) : (s.modRel f).chCredits = s.chCredits := rfl
@[simp] theorem State.chMsgs_modRel (f : Rel → Rel) : (s.modRel f).chMsgs = s.chMsgs := rfl
@[simp] theorem State.faultReports_modRel (f : Rel → Rel) : (s.modRel f).faultReports = s.faultReports := rfl
@[simp] theorem State.units_modRel (f : Rel → Rel) : (s.modRel f).units = s.units := rfl
@[simp] theorem State.regions_modRel (f : Rel → Rel) : (s.modRel f).regions = s.regions := rfl
@[simp] theorem State.loader_modRel (f : Rel → Rel) : (s.modRel f).loader = s.loader := rfl
@[simp] theorem State.hbmStacks_modRel (f : Rel → Rel) : (s.modRel f).hbmStacks = s.hbmStacks := rfl
@[simp] theorem State.ports_modRel (f : Rel → Rel) : (s.modRel f).ports = s.ports := rfl
@[simp] theorem State.portNodes_modRel (f : Rel → Rel) : (s.modRel f).portNodes = s.portNodes := rfl
@[simp] theorem State.sessions_modRel (f : Rel → Rel) : (s.modRel f).sessions = s.sessions := rfl
@[simp] theorem State.mcPending_modRel (f : Rel → Rel) : (s.modRel f).mcPending = s.mcPending := rfl
@[simp] theorem State.holds_modRel (f : Rel → Rel) : (s.modRel f).holds = s.holds := rfl
@[simp] theorem State.culm_modRel (f : Rel → Rel) : (s.modRel f).culm = s.culm := rfl
@[simp] theorem State.culmNodes_modRel (f : Rel → Rel) : (s.modRel f).culmNodes = s.culmNodes := rfl
@[simp] theorem State.cache_modRel (f : Rel → Rel) : (s.modRel f).cache = s.cache := rfl
@[simp] theorem State.cnReq_modRel (f : Rel → Rel) : (s.modRel f).cnReq = s.cnReq := rfl
@[simp] theorem State.xintTgt_modRel (f : Rel → Rel) : (s.modRel f).xintTgt = s.xintTgt := rfl
@[simp] theorem State.eth_modRel (f : Rel → Rel) : (s.modRel f).eth = s.eth := rfl
@[simp] theorem State.pcie_modRel (f : Rel → Rel) : (s.modRel f).pcie = s.pcie := rfl
@[simp] theorem State.pcieMem_modRel (f : Rel → Rel) : (s.modRel f).pcieMem = s.pcieMem := rfl
@[simp] theorem State.power_modRel (f : Rel → Rel) : (s.modRel f).power = s.power := rfl
@[simp] theorem State.fuses_modRel (f : Rel → Rel) : (s.modRel f).fuses = s.fuses := rfl
@[simp] theorem State.boot_modRel (f : Rel → Rel) : (s.modRel f).boot = s.boot := rfl
@[simp] theorem State.flashA_modRel (f : Rel → Rel) : (s.modRel f).flashA = s.flashA := rfl
@[simp] theorem State.flashB_modRel (f : Rel → Rel) : (s.modRel f).flashB = s.flashB := rfl
@[simp] theorem State.rel_modRel (f : Rel → Rel) : (s.modRel f).rel = f s.rel := rfl
@[simp] theorem State.samplers_modRel (f : Rel → Rel) : (s.modRel f).samplers = s.samplers := rfl
@[simp] theorem State.tap_modRel (f : Rel → Rel) : (s.modRel f).tap = s.tap := rfl
@[simp] theorem State.freeCtr_modRel (f : Rel → Rel) : (s.modRel f).freeCtr = s.freeCtr := rfl
@[simp] theorem State.pending_modPower (f : Power → Power) : (s.modPower f).pending = s.pending := rfl
@[simp] theorem State.cores_modPower (f : Power → Power) : (s.modPower f).cores = s.cores := rfl
@[simp] theorem State.tillers_modPower (f : Power → Power) : (s.modPower f).tillers = s.tillers := rfl
@[simp] theorem State.nodes_modPower (f : Power → Power) : (s.modPower f).nodes = s.nodes := rfl
@[simp] theorem State.west_modPower (f : Power → Power) : (s.modPower f).west = s.west := rfl
@[simp] theorem State.east_modPower (f : Power → Power) : (s.modPower f).east = s.east := rfl
@[simp] theorem State.parkEn_modPower (f : Power → Power) : (s.modPower f).parkEn = s.parkEn := rfl
@[simp] theorem State.lastRefusal_modPower (f : Power → Power) : (s.modPower f).lastRefusal = s.lastRefusal := rfl
@[simp] theorem State.halfReq_modPower (f : Power → Power) : (s.modPower f).halfReq = s.halfReq := rfl
@[simp] theorem State.halfBusy_modPower (f : Power → Power) : (s.modPower f).halfBusy = s.halfBusy := rfl
@[simp] theorem State.time_modPower (f : Power → Power) : (s.modPower f).time = s.time := rfl
@[simp] theorem State.mem_modPower (f : Power → Power) : (s.modPower f).mem = s.mem := rfl
@[simp] theorem State.badWords_modPower (f : Power → Power) : (s.modPower f).badWords = s.badWords := rfl
@[simp] theorem State.ceWords_modPower (f : Power → Power) : (s.modPower f).ceWords = s.ceWords := rfl
@[simp] theorem State.repairs_modPower (f : Power → Power) : (s.modPower f).repairs = s.repairs := rfl
@[simp] theorem State.reqs_modPower (f : Power → Power) : (s.modPower f).reqs = s.reqs := rfl
@[simp] theorem State.nextId_modPower (f : Power → Power) : (s.modPower f).nextId = s.nextId := rfl
@[simp] theorem State.creditMsgs_modPower (f : Power → Power) : (s.modPower f).creditMsgs = s.creditMsgs := rfl
@[simp] theorem State.chCredits_modPower (f : Power → Power) : (s.modPower f).chCredits = s.chCredits := rfl
@[simp] theorem State.chMsgs_modPower (f : Power → Power) : (s.modPower f).chMsgs = s.chMsgs := rfl
@[simp] theorem State.faultReports_modPower (f : Power → Power) : (s.modPower f).faultReports = s.faultReports := rfl
@[simp] theorem State.units_modPower (f : Power → Power) : (s.modPower f).units = s.units := rfl
@[simp] theorem State.regions_modPower (f : Power → Power) : (s.modPower f).regions = s.regions := rfl
@[simp] theorem State.loader_modPower (f : Power → Power) : (s.modPower f).loader = s.loader := rfl
@[simp] theorem State.hbmStacks_modPower (f : Power → Power) : (s.modPower f).hbmStacks = s.hbmStacks := rfl
@[simp] theorem State.ports_modPower (f : Power → Power) : (s.modPower f).ports = s.ports := rfl
@[simp] theorem State.portNodes_modPower (f : Power → Power) : (s.modPower f).portNodes = s.portNodes := rfl
@[simp] theorem State.sessions_modPower (f : Power → Power) : (s.modPower f).sessions = s.sessions := rfl
@[simp] theorem State.mcPending_modPower (f : Power → Power) : (s.modPower f).mcPending = s.mcPending := rfl
@[simp] theorem State.holds_modPower (f : Power → Power) : (s.modPower f).holds = s.holds := rfl
@[simp] theorem State.culm_modPower (f : Power → Power) : (s.modPower f).culm = s.culm := rfl
@[simp] theorem State.culmNodes_modPower (f : Power → Power) : (s.modPower f).culmNodes = s.culmNodes := rfl
@[simp] theorem State.cache_modPower (f : Power → Power) : (s.modPower f).cache = s.cache := rfl
@[simp] theorem State.cnReq_modPower (f : Power → Power) : (s.modPower f).cnReq = s.cnReq := rfl
@[simp] theorem State.xintTgt_modPower (f : Power → Power) : (s.modPower f).xintTgt = s.xintTgt := rfl
@[simp] theorem State.eth_modPower (f : Power → Power) : (s.modPower f).eth = s.eth := rfl
@[simp] theorem State.pcie_modPower (f : Power → Power) : (s.modPower f).pcie = s.pcie := rfl
@[simp] theorem State.pcieMem_modPower (f : Power → Power) : (s.modPower f).pcieMem = s.pcieMem := rfl
@[simp] theorem State.power_modPower (f : Power → Power) : (s.modPower f).power = f s.power := rfl
@[simp] theorem State.fuses_modPower (f : Power → Power) : (s.modPower f).fuses = s.fuses := rfl
@[simp] theorem State.boot_modPower (f : Power → Power) : (s.modPower f).boot = s.boot := rfl
@[simp] theorem State.flashA_modPower (f : Power → Power) : (s.modPower f).flashA = s.flashA := rfl
@[simp] theorem State.flashB_modPower (f : Power → Power) : (s.modPower f).flashB = s.flashB := rfl
@[simp] theorem State.rel_modPower (f : Power → Power) : (s.modPower f).rel = s.rel := rfl
@[simp] theorem State.samplers_modPower (f : Power → Power) : (s.modPower f).samplers = s.samplers := rfl
@[simp] theorem State.tap_modPower (f : Power → Power) : (s.modPower f).tap = s.tap := rfl
@[simp] theorem State.freeCtr_modPower (f : Power → Power) : (s.modPower f).freeCtr = s.freeCtr := rfl
@[simp] theorem State.pending_modBoot (f : Boot → Boot) : (s.modBoot f).pending = s.pending := rfl
@[simp] theorem State.cores_modBoot (f : Boot → Boot) : (s.modBoot f).cores = s.cores := rfl
@[simp] theorem State.tillers_modBoot (f : Boot → Boot) : (s.modBoot f).tillers = s.tillers := rfl
@[simp] theorem State.nodes_modBoot (f : Boot → Boot) : (s.modBoot f).nodes = s.nodes := rfl
@[simp] theorem State.west_modBoot (f : Boot → Boot) : (s.modBoot f).west = s.west := rfl
@[simp] theorem State.east_modBoot (f : Boot → Boot) : (s.modBoot f).east = s.east := rfl
@[simp] theorem State.parkEn_modBoot (f : Boot → Boot) : (s.modBoot f).parkEn = s.parkEn := rfl
@[simp] theorem State.lastRefusal_modBoot (f : Boot → Boot) : (s.modBoot f).lastRefusal = s.lastRefusal := rfl
@[simp] theorem State.halfReq_modBoot (f : Boot → Boot) : (s.modBoot f).halfReq = s.halfReq := rfl
@[simp] theorem State.halfBusy_modBoot (f : Boot → Boot) : (s.modBoot f).halfBusy = s.halfBusy := rfl
@[simp] theorem State.time_modBoot (f : Boot → Boot) : (s.modBoot f).time = s.time := rfl
@[simp] theorem State.mem_modBoot (f : Boot → Boot) : (s.modBoot f).mem = s.mem := rfl
@[simp] theorem State.badWords_modBoot (f : Boot → Boot) : (s.modBoot f).badWords = s.badWords := rfl
@[simp] theorem State.ceWords_modBoot (f : Boot → Boot) : (s.modBoot f).ceWords = s.ceWords := rfl
@[simp] theorem State.repairs_modBoot (f : Boot → Boot) : (s.modBoot f).repairs = s.repairs := rfl
@[simp] theorem State.reqs_modBoot (f : Boot → Boot) : (s.modBoot f).reqs = s.reqs := rfl
@[simp] theorem State.nextId_modBoot (f : Boot → Boot) : (s.modBoot f).nextId = s.nextId := rfl
@[simp] theorem State.creditMsgs_modBoot (f : Boot → Boot) : (s.modBoot f).creditMsgs = s.creditMsgs := rfl
@[simp] theorem State.chCredits_modBoot (f : Boot → Boot) : (s.modBoot f).chCredits = s.chCredits := rfl
@[simp] theorem State.chMsgs_modBoot (f : Boot → Boot) : (s.modBoot f).chMsgs = s.chMsgs := rfl
@[simp] theorem State.faultReports_modBoot (f : Boot → Boot) : (s.modBoot f).faultReports = s.faultReports := rfl
@[simp] theorem State.units_modBoot (f : Boot → Boot) : (s.modBoot f).units = s.units := rfl
@[simp] theorem State.regions_modBoot (f : Boot → Boot) : (s.modBoot f).regions = s.regions := rfl
@[simp] theorem State.loader_modBoot (f : Boot → Boot) : (s.modBoot f).loader = s.loader := rfl
@[simp] theorem State.hbmStacks_modBoot (f : Boot → Boot) : (s.modBoot f).hbmStacks = s.hbmStacks := rfl
@[simp] theorem State.ports_modBoot (f : Boot → Boot) : (s.modBoot f).ports = s.ports := rfl
@[simp] theorem State.portNodes_modBoot (f : Boot → Boot) : (s.modBoot f).portNodes = s.portNodes := rfl
@[simp] theorem State.sessions_modBoot (f : Boot → Boot) : (s.modBoot f).sessions = s.sessions := rfl
@[simp] theorem State.mcPending_modBoot (f : Boot → Boot) : (s.modBoot f).mcPending = s.mcPending := rfl
@[simp] theorem State.holds_modBoot (f : Boot → Boot) : (s.modBoot f).holds = s.holds := rfl
@[simp] theorem State.culm_modBoot (f : Boot → Boot) : (s.modBoot f).culm = s.culm := rfl
@[simp] theorem State.culmNodes_modBoot (f : Boot → Boot) : (s.modBoot f).culmNodes = s.culmNodes := rfl
@[simp] theorem State.cache_modBoot (f : Boot → Boot) : (s.modBoot f).cache = s.cache := rfl
@[simp] theorem State.cnReq_modBoot (f : Boot → Boot) : (s.modBoot f).cnReq = s.cnReq := rfl
@[simp] theorem State.xintTgt_modBoot (f : Boot → Boot) : (s.modBoot f).xintTgt = s.xintTgt := rfl
@[simp] theorem State.eth_modBoot (f : Boot → Boot) : (s.modBoot f).eth = s.eth := rfl
@[simp] theorem State.pcie_modBoot (f : Boot → Boot) : (s.modBoot f).pcie = s.pcie := rfl
@[simp] theorem State.pcieMem_modBoot (f : Boot → Boot) : (s.modBoot f).pcieMem = s.pcieMem := rfl
@[simp] theorem State.power_modBoot (f : Boot → Boot) : (s.modBoot f).power = s.power := rfl
@[simp] theorem State.fuses_modBoot (f : Boot → Boot) : (s.modBoot f).fuses = s.fuses := rfl
@[simp] theorem State.boot_modBoot (f : Boot → Boot) : (s.modBoot f).boot = f s.boot := rfl
@[simp] theorem State.flashA_modBoot (f : Boot → Boot) : (s.modBoot f).flashA = s.flashA := rfl
@[simp] theorem State.flashB_modBoot (f : Boot → Boot) : (s.modBoot f).flashB = s.flashB := rfl
@[simp] theorem State.rel_modBoot (f : Boot → Boot) : (s.modBoot f).rel = s.rel := rfl
@[simp] theorem State.samplers_modBoot (f : Boot → Boot) : (s.modBoot f).samplers = s.samplers := rfl
@[simp] theorem State.tap_modBoot (f : Boot → Boot) : (s.modBoot f).tap = s.tap := rfl
@[simp] theorem State.freeCtr_modBoot (f : Boot → Boot) : (s.modBoot f).freeCtr = s.freeCtr := rfl
@[simp] theorem State.pending_modLoader (f : Loader → Loader) : (s.modLoader f).pending = s.pending := rfl
@[simp] theorem State.cores_modLoader (f : Loader → Loader) : (s.modLoader f).cores = s.cores := rfl
@[simp] theorem State.tillers_modLoader (f : Loader → Loader) : (s.modLoader f).tillers = s.tillers := rfl
@[simp] theorem State.nodes_modLoader (f : Loader → Loader) : (s.modLoader f).nodes = s.nodes := rfl
@[simp] theorem State.west_modLoader (f : Loader → Loader) : (s.modLoader f).west = s.west := rfl
@[simp] theorem State.east_modLoader (f : Loader → Loader) : (s.modLoader f).east = s.east := rfl
@[simp] theorem State.parkEn_modLoader (f : Loader → Loader) : (s.modLoader f).parkEn = s.parkEn := rfl
@[simp] theorem State.lastRefusal_modLoader (f : Loader → Loader) : (s.modLoader f).lastRefusal = s.lastRefusal := rfl
@[simp] theorem State.halfReq_modLoader (f : Loader → Loader) : (s.modLoader f).halfReq = s.halfReq := rfl
@[simp] theorem State.halfBusy_modLoader (f : Loader → Loader) : (s.modLoader f).halfBusy = s.halfBusy := rfl
@[simp] theorem State.time_modLoader (f : Loader → Loader) : (s.modLoader f).time = s.time := rfl
@[simp] theorem State.mem_modLoader (f : Loader → Loader) : (s.modLoader f).mem = s.mem := rfl
@[simp] theorem State.badWords_modLoader (f : Loader → Loader) : (s.modLoader f).badWords = s.badWords := rfl
@[simp] theorem State.ceWords_modLoader (f : Loader → Loader) : (s.modLoader f).ceWords = s.ceWords := rfl
@[simp] theorem State.repairs_modLoader (f : Loader → Loader) : (s.modLoader f).repairs = s.repairs := rfl
@[simp] theorem State.reqs_modLoader (f : Loader → Loader) : (s.modLoader f).reqs = s.reqs := rfl
@[simp] theorem State.nextId_modLoader (f : Loader → Loader) : (s.modLoader f).nextId = s.nextId := rfl
@[simp] theorem State.creditMsgs_modLoader (f : Loader → Loader) : (s.modLoader f).creditMsgs = s.creditMsgs := rfl
@[simp] theorem State.chCredits_modLoader (f : Loader → Loader) : (s.modLoader f).chCredits = s.chCredits := rfl
@[simp] theorem State.chMsgs_modLoader (f : Loader → Loader) : (s.modLoader f).chMsgs = s.chMsgs := rfl
@[simp] theorem State.faultReports_modLoader (f : Loader → Loader) : (s.modLoader f).faultReports = s.faultReports := rfl
@[simp] theorem State.units_modLoader (f : Loader → Loader) : (s.modLoader f).units = s.units := rfl
@[simp] theorem State.regions_modLoader (f : Loader → Loader) : (s.modLoader f).regions = s.regions := rfl
@[simp] theorem State.loader_modLoader (f : Loader → Loader) : (s.modLoader f).loader = f s.loader := rfl
@[simp] theorem State.hbmStacks_modLoader (f : Loader → Loader) : (s.modLoader f).hbmStacks = s.hbmStacks := rfl
@[simp] theorem State.ports_modLoader (f : Loader → Loader) : (s.modLoader f).ports = s.ports := rfl
@[simp] theorem State.portNodes_modLoader (f : Loader → Loader) : (s.modLoader f).portNodes = s.portNodes := rfl
@[simp] theorem State.sessions_modLoader (f : Loader → Loader) : (s.modLoader f).sessions = s.sessions := rfl
@[simp] theorem State.mcPending_modLoader (f : Loader → Loader) : (s.modLoader f).mcPending = s.mcPending := rfl
@[simp] theorem State.holds_modLoader (f : Loader → Loader) : (s.modLoader f).holds = s.holds := rfl
@[simp] theorem State.culm_modLoader (f : Loader → Loader) : (s.modLoader f).culm = s.culm := rfl
@[simp] theorem State.culmNodes_modLoader (f : Loader → Loader) : (s.modLoader f).culmNodes = s.culmNodes := rfl
@[simp] theorem State.cache_modLoader (f : Loader → Loader) : (s.modLoader f).cache = s.cache := rfl
@[simp] theorem State.cnReq_modLoader (f : Loader → Loader) : (s.modLoader f).cnReq = s.cnReq := rfl
@[simp] theorem State.xintTgt_modLoader (f : Loader → Loader) : (s.modLoader f).xintTgt = s.xintTgt := rfl
@[simp] theorem State.eth_modLoader (f : Loader → Loader) : (s.modLoader f).eth = s.eth := rfl
@[simp] theorem State.pcie_modLoader (f : Loader → Loader) : (s.modLoader f).pcie = s.pcie := rfl
@[simp] theorem State.pcieMem_modLoader (f : Loader → Loader) : (s.modLoader f).pcieMem = s.pcieMem := rfl
@[simp] theorem State.power_modLoader (f : Loader → Loader) : (s.modLoader f).power = s.power := rfl
@[simp] theorem State.fuses_modLoader (f : Loader → Loader) : (s.modLoader f).fuses = s.fuses := rfl
@[simp] theorem State.boot_modLoader (f : Loader → Loader) : (s.modLoader f).boot = s.boot := rfl
@[simp] theorem State.flashA_modLoader (f : Loader → Loader) : (s.modLoader f).flashA = s.flashA := rfl
@[simp] theorem State.flashB_modLoader (f : Loader → Loader) : (s.modLoader f).flashB = s.flashB := rfl
@[simp] theorem State.rel_modLoader (f : Loader → Loader) : (s.modLoader f).rel = s.rel := rfl
@[simp] theorem State.samplers_modLoader (f : Loader → Loader) : (s.modLoader f).samplers = s.samplers := rfl
@[simp] theorem State.tap_modLoader (f : Loader → Loader) : (s.modLoader f).tap = s.tap := rfl
@[simp] theorem State.freeCtr_modLoader (f : Loader → Loader) : (s.modLoader f).freeCtr = s.freeCtr := rfl
@[simp] theorem State.pending_modTime (f : Time → Time) : (s.modTime f).pending = s.pending := rfl
@[simp] theorem State.cores_modTime (f : Time → Time) : (s.modTime f).cores = s.cores := rfl
@[simp] theorem State.tillers_modTime (f : Time → Time) : (s.modTime f).tillers = s.tillers := rfl
@[simp] theorem State.nodes_modTime (f : Time → Time) : (s.modTime f).nodes = s.nodes := rfl
@[simp] theorem State.west_modTime (f : Time → Time) : (s.modTime f).west = s.west := rfl
@[simp] theorem State.east_modTime (f : Time → Time) : (s.modTime f).east = s.east := rfl
@[simp] theorem State.parkEn_modTime (f : Time → Time) : (s.modTime f).parkEn = s.parkEn := rfl
@[simp] theorem State.lastRefusal_modTime (f : Time → Time) : (s.modTime f).lastRefusal = s.lastRefusal := rfl
@[simp] theorem State.halfReq_modTime (f : Time → Time) : (s.modTime f).halfReq = s.halfReq := rfl
@[simp] theorem State.halfBusy_modTime (f : Time → Time) : (s.modTime f).halfBusy = s.halfBusy := rfl
@[simp] theorem State.time_modTime (f : Time → Time) : (s.modTime f).time = f s.time := rfl
@[simp] theorem State.mem_modTime (f : Time → Time) : (s.modTime f).mem = s.mem := rfl
@[simp] theorem State.badWords_modTime (f : Time → Time) : (s.modTime f).badWords = s.badWords := rfl
@[simp] theorem State.ceWords_modTime (f : Time → Time) : (s.modTime f).ceWords = s.ceWords := rfl
@[simp] theorem State.repairs_modTime (f : Time → Time) : (s.modTime f).repairs = s.repairs := rfl
@[simp] theorem State.reqs_modTime (f : Time → Time) : (s.modTime f).reqs = s.reqs := rfl
@[simp] theorem State.nextId_modTime (f : Time → Time) : (s.modTime f).nextId = s.nextId := rfl
@[simp] theorem State.creditMsgs_modTime (f : Time → Time) : (s.modTime f).creditMsgs = s.creditMsgs := rfl
@[simp] theorem State.chCredits_modTime (f : Time → Time) : (s.modTime f).chCredits = s.chCredits := rfl
@[simp] theorem State.chMsgs_modTime (f : Time → Time) : (s.modTime f).chMsgs = s.chMsgs := rfl
@[simp] theorem State.faultReports_modTime (f : Time → Time) : (s.modTime f).faultReports = s.faultReports := rfl
@[simp] theorem State.units_modTime (f : Time → Time) : (s.modTime f).units = s.units := rfl
@[simp] theorem State.regions_modTime (f : Time → Time) : (s.modTime f).regions = s.regions := rfl
@[simp] theorem State.loader_modTime (f : Time → Time) : (s.modTime f).loader = s.loader := rfl
@[simp] theorem State.hbmStacks_modTime (f : Time → Time) : (s.modTime f).hbmStacks = s.hbmStacks := rfl
@[simp] theorem State.ports_modTime (f : Time → Time) : (s.modTime f).ports = s.ports := rfl
@[simp] theorem State.portNodes_modTime (f : Time → Time) : (s.modTime f).portNodes = s.portNodes := rfl
@[simp] theorem State.sessions_modTime (f : Time → Time) : (s.modTime f).sessions = s.sessions := rfl
@[simp] theorem State.mcPending_modTime (f : Time → Time) : (s.modTime f).mcPending = s.mcPending := rfl
@[simp] theorem State.holds_modTime (f : Time → Time) : (s.modTime f).holds = s.holds := rfl
@[simp] theorem State.culm_modTime (f : Time → Time) : (s.modTime f).culm = s.culm := rfl
@[simp] theorem State.culmNodes_modTime (f : Time → Time) : (s.modTime f).culmNodes = s.culmNodes := rfl
@[simp] theorem State.cache_modTime (f : Time → Time) : (s.modTime f).cache = s.cache := rfl
@[simp] theorem State.cnReq_modTime (f : Time → Time) : (s.modTime f).cnReq = s.cnReq := rfl
@[simp] theorem State.xintTgt_modTime (f : Time → Time) : (s.modTime f).xintTgt = s.xintTgt := rfl
@[simp] theorem State.eth_modTime (f : Time → Time) : (s.modTime f).eth = s.eth := rfl
@[simp] theorem State.pcie_modTime (f : Time → Time) : (s.modTime f).pcie = s.pcie := rfl
@[simp] theorem State.pcieMem_modTime (f : Time → Time) : (s.modTime f).pcieMem = s.pcieMem := rfl
@[simp] theorem State.power_modTime (f : Time → Time) : (s.modTime f).power = s.power := rfl
@[simp] theorem State.fuses_modTime (f : Time → Time) : (s.modTime f).fuses = s.fuses := rfl
@[simp] theorem State.boot_modTime (f : Time → Time) : (s.modTime f).boot = s.boot := rfl
@[simp] theorem State.flashA_modTime (f : Time → Time) : (s.modTime f).flashA = s.flashA := rfl
@[simp] theorem State.flashB_modTime (f : Time → Time) : (s.modTime f).flashB = s.flashB := rfl
@[simp] theorem State.rel_modTime (f : Time → Time) : (s.modTime f).rel = s.rel := rfl
@[simp] theorem State.samplers_modTime (f : Time → Time) : (s.modTime f).samplers = s.samplers := rfl
@[simp] theorem State.tap_modTime (f : Time → Time) : (s.modTime f).tap = s.tap := rfl
@[simp] theorem State.freeCtr_modTime (f : Time → Time) : (s.modTime f).freeCtr = s.freeCtr := rfl
@[simp] theorem State.pending_modCtx (t : Tid) (f : Ctx → Ctx) : (s.modCtx t f).pending = s.pending := by
  unfold State.modCtx; split <;> rfl
@[simp] theorem State.pending_setReg (t : Tid) (r : Reg) (v : Word) : (s.setReg t r v).pending = s.pending := by
  unfold State.setReg; split <;> simp
@[simp] theorem State.pending_setVreg (t : Tid) (r : VReg) (v : VecReg) : (s.setVreg t r v).pending = s.pending := by
  unfold State.setVreg; simp
@[simp] theorem State.pending_advance (t : Tid) (n : Nat) : (s.advance t n).pending = s.pending := by
  unfold State.advance State.retired State.count State.otcAdd; simp only [State.node]; (repeat' split) <;> simp
@[simp] theorem State.tillers_modCtx (t : Tid) (f : Ctx → Ctx) : (s.modCtx t f).tillers = s.tillers := by
  unfold State.modCtx; split <;> rfl
@[simp] theorem State.tillers_setReg (t : Tid) (r : Reg) (v : Word) : (s.setReg t r v).tillers = s.tillers := by
  unfold State.setReg; split <;> simp
@[simp] theorem State.tillers_setVreg (t : Tid) (r : VReg) (v : VecReg) : (s.setVreg t r v).tillers = s.tillers := by
  unfold State.setVreg; simp
@[simp] theorem State.tillers_advance (t : Tid) (n : Nat) : (s.advance t n).tillers = s.tillers := by
  unfold State.advance State.retired State.count State.otcAdd; simp only [State.node]; (repeat' split) <;> simp
@[simp] theorem State.nodes_modCtx (t : Tid) (f : Ctx → Ctx) : (s.modCtx t f).nodes = s.nodes := by
  unfold State.modCtx; split <;> rfl
@[simp] theorem State.nodes_setReg (t : Tid) (r : Reg) (v : Word) : (s.setReg t r v).nodes = s.nodes := by
  unfold State.setReg; split <;> simp
@[simp] theorem State.nodes_setVreg (t : Tid) (r : VReg) (v : VecReg) : (s.setVreg t r v).nodes = s.nodes := by
  unfold State.setVreg; simp
@[simp] theorem State.west_modCtx (t : Tid) (f : Ctx → Ctx) : (s.modCtx t f).west = s.west := by
  unfold State.modCtx; split <;> rfl
@[simp] theorem State.west_setReg (t : Tid) (r : Reg) (v : Word) : (s.setReg t r v).west = s.west := by
  unfold State.setReg; split <;> simp
@[simp] theorem State.west_setVreg (t : Tid) (r : VReg) (v : VecReg) : (s.setVreg t r v).west = s.west := by
  unfold State.setVreg; simp
@[simp] theorem State.west_advance (t : Tid) (n : Nat) : (s.advance t n).west = s.west := by
  unfold State.advance State.retired State.count State.otcAdd; simp only [State.node]; (repeat' split) <;> simp
@[simp] theorem State.east_modCtx (t : Tid) (f : Ctx → Ctx) : (s.modCtx t f).east = s.east := by
  unfold State.modCtx; split <;> rfl
@[simp] theorem State.east_setReg (t : Tid) (r : Reg) (v : Word) : (s.setReg t r v).east = s.east := by
  unfold State.setReg; split <;> simp
@[simp] theorem State.east_setVreg (t : Tid) (r : VReg) (v : VecReg) : (s.setVreg t r v).east = s.east := by
  unfold State.setVreg; simp
@[simp] theorem State.east_advance (t : Tid) (n : Nat) : (s.advance t n).east = s.east := by
  unfold State.advance State.retired State.count State.otcAdd; simp only [State.node]; (repeat' split) <;> simp
@[simp] theorem State.parkEn_modCtx (t : Tid) (f : Ctx → Ctx) : (s.modCtx t f).parkEn = s.parkEn := by
  unfold State.modCtx; split <;> rfl
@[simp] theorem State.parkEn_setReg (t : Tid) (r : Reg) (v : Word) : (s.setReg t r v).parkEn = s.parkEn := by
  unfold State.setReg; split <;> simp
@[simp] theorem State.parkEn_setVreg (t : Tid) (r : VReg) (v : VecReg) : (s.setVreg t r v).parkEn = s.parkEn := by
  unfold State.setVreg; simp
@[simp] theorem State.parkEn_advance (t : Tid) (n : Nat) : (s.advance t n).parkEn = s.parkEn := by
  unfold State.advance State.retired State.count State.otcAdd; simp only [State.node]; (repeat' split) <;> simp
@[simp] theorem State.lastRefusal_modCtx (t : Tid) (f : Ctx → Ctx) : (s.modCtx t f).lastRefusal = s.lastRefusal := by
  unfold State.modCtx; split <;> rfl
@[simp] theorem State.lastRefusal_setReg (t : Tid) (r : Reg) (v : Word) : (s.setReg t r v).lastRefusal = s.lastRefusal := by
  unfold State.setReg; split <;> simp
@[simp] theorem State.lastRefusal_setVreg (t : Tid) (r : VReg) (v : VecReg) : (s.setVreg t r v).lastRefusal = s.lastRefusal := by
  unfold State.setVreg; simp
@[simp] theorem State.lastRefusal_advance (t : Tid) (n : Nat) : (s.advance t n).lastRefusal = s.lastRefusal := by
  unfold State.advance State.retired State.count State.otcAdd; simp only [State.node]; (repeat' split) <;> simp
@[simp] theorem State.halfReq_modCtx (t : Tid) (f : Ctx → Ctx) : (s.modCtx t f).halfReq = s.halfReq := by
  unfold State.modCtx; split <;> rfl
@[simp] theorem State.halfReq_setReg (t : Tid) (r : Reg) (v : Word) : (s.setReg t r v).halfReq = s.halfReq := by
  unfold State.setReg; split <;> simp
@[simp] theorem State.halfReq_setVreg (t : Tid) (r : VReg) (v : VecReg) : (s.setVreg t r v).halfReq = s.halfReq := by
  unfold State.setVreg; simp
@[simp] theorem State.halfReq_advance (t : Tid) (n : Nat) : (s.advance t n).halfReq = s.halfReq := by
  unfold State.advance State.retired State.count State.otcAdd; simp only [State.node]; (repeat' split) <;> simp
@[simp] theorem State.halfBusy_modCtx (t : Tid) (f : Ctx → Ctx) : (s.modCtx t f).halfBusy = s.halfBusy := by
  unfold State.modCtx; split <;> rfl
@[simp] theorem State.halfBusy_setReg (t : Tid) (r : Reg) (v : Word) : (s.setReg t r v).halfBusy = s.halfBusy := by
  unfold State.setReg; split <;> simp
@[simp] theorem State.halfBusy_setVreg (t : Tid) (r : VReg) (v : VecReg) : (s.setVreg t r v).halfBusy = s.halfBusy := by
  unfold State.setVreg; simp
@[simp] theorem State.halfBusy_advance (t : Tid) (n : Nat) : (s.advance t n).halfBusy = s.halfBusy := by
  unfold State.advance State.retired State.count State.otcAdd; simp only [State.node]; (repeat' split) <;> simp
@[simp] theorem State.time_modCtx (t : Tid) (f : Ctx → Ctx) : (s.modCtx t f).time = s.time := by
  unfold State.modCtx; split <;> rfl
@[simp] theorem State.time_setReg (t : Tid) (r : Reg) (v : Word) : (s.setReg t r v).time = s.time := by
  unfold State.setReg; split <;> simp
@[simp] theorem State.time_setVreg (t : Tid) (r : VReg) (v : VecReg) : (s.setVreg t r v).time = s.time := by
  unfold State.setVreg; simp
@[simp] theorem State.time_advance (t : Tid) (n : Nat) : (s.advance t n).time = s.time := by
  unfold State.advance State.retired State.count State.otcAdd; simp only [State.node]; (repeat' split) <;> simp
@[simp] theorem State.mem_modCtx (t : Tid) (f : Ctx → Ctx) : (s.modCtx t f).mem = s.mem := by
  unfold State.modCtx; split <;> rfl
@[simp] theorem State.mem_setReg (t : Tid) (r : Reg) (v : Word) : (s.setReg t r v).mem = s.mem := by
  unfold State.setReg; split <;> simp
@[simp] theorem State.mem_setVreg (t : Tid) (r : VReg) (v : VecReg) : (s.setVreg t r v).mem = s.mem := by
  unfold State.setVreg; simp
@[simp] theorem State.mem_advance (t : Tid) (n : Nat) : (s.advance t n).mem = s.mem := by
  unfold State.advance State.retired State.count State.otcAdd; simp only [State.node]; (repeat' split) <;> simp
@[simp] theorem State.badWords_modCtx (t : Tid) (f : Ctx → Ctx) : (s.modCtx t f).badWords = s.badWords := by
  unfold State.modCtx; split <;> rfl
@[simp] theorem State.badWords_setReg (t : Tid) (r : Reg) (v : Word) : (s.setReg t r v).badWords = s.badWords := by
  unfold State.setReg; split <;> simp
@[simp] theorem State.badWords_setVreg (t : Tid) (r : VReg) (v : VecReg) : (s.setVreg t r v).badWords = s.badWords := by
  unfold State.setVreg; simp
@[simp] theorem State.badWords_advance (t : Tid) (n : Nat) : (s.advance t n).badWords = s.badWords := by
  unfold State.advance State.retired State.count State.otcAdd; simp only [State.node]; (repeat' split) <;> simp
@[simp] theorem State.ceWords_modCtx (t : Tid) (f : Ctx → Ctx) : (s.modCtx t f).ceWords = s.ceWords := by
  unfold State.modCtx; split <;> rfl
@[simp] theorem State.ceWords_setReg (t : Tid) (r : Reg) (v : Word) : (s.setReg t r v).ceWords = s.ceWords := by
  unfold State.setReg; split <;> simp
@[simp] theorem State.ceWords_setVreg (t : Tid) (r : VReg) (v : VecReg) : (s.setVreg t r v).ceWords = s.ceWords := by
  unfold State.setVreg; simp
@[simp] theorem State.ceWords_advance (t : Tid) (n : Nat) : (s.advance t n).ceWords = s.ceWords := by
  unfold State.advance State.retired State.count State.otcAdd; simp only [State.node]; (repeat' split) <;> simp
@[simp] theorem State.repairs_modCtx (t : Tid) (f : Ctx → Ctx) : (s.modCtx t f).repairs = s.repairs := by
  unfold State.modCtx; split <;> rfl
@[simp] theorem State.repairs_setReg (t : Tid) (r : Reg) (v : Word) : (s.setReg t r v).repairs = s.repairs := by
  unfold State.setReg; split <;> simp
@[simp] theorem State.repairs_setVreg (t : Tid) (r : VReg) (v : VecReg) : (s.setVreg t r v).repairs = s.repairs := by
  unfold State.setVreg; simp
@[simp] theorem State.repairs_advance (t : Tid) (n : Nat) : (s.advance t n).repairs = s.repairs := by
  unfold State.advance State.retired State.count State.otcAdd; simp only [State.node]; (repeat' split) <;> simp
@[simp] theorem State.reqs_modCtx (t : Tid) (f : Ctx → Ctx) : (s.modCtx t f).reqs = s.reqs := by
  unfold State.modCtx; split <;> rfl
@[simp] theorem State.reqs_setReg (t : Tid) (r : Reg) (v : Word) : (s.setReg t r v).reqs = s.reqs := by
  unfold State.setReg; split <;> simp
@[simp] theorem State.reqs_setVreg (t : Tid) (r : VReg) (v : VecReg) : (s.setVreg t r v).reqs = s.reqs := by
  unfold State.setVreg; simp
@[simp] theorem State.reqs_advance (t : Tid) (n : Nat) : (s.advance t n).reqs = s.reqs := by
  unfold State.advance State.retired State.count State.otcAdd; simp only [State.node]; (repeat' split) <;> simp
@[simp] theorem State.nextId_modCtx (t : Tid) (f : Ctx → Ctx) : (s.modCtx t f).nextId = s.nextId := by
  unfold State.modCtx; split <;> rfl
@[simp] theorem State.nextId_setReg (t : Tid) (r : Reg) (v : Word) : (s.setReg t r v).nextId = s.nextId := by
  unfold State.setReg; split <;> simp
@[simp] theorem State.nextId_setVreg (t : Tid) (r : VReg) (v : VecReg) : (s.setVreg t r v).nextId = s.nextId := by
  unfold State.setVreg; simp
@[simp] theorem State.nextId_advance (t : Tid) (n : Nat) : (s.advance t n).nextId = s.nextId := by
  unfold State.advance State.retired State.count State.otcAdd; simp only [State.node]; (repeat' split) <;> simp
@[simp] theorem State.creditMsgs_modCtx (t : Tid) (f : Ctx → Ctx) : (s.modCtx t f).creditMsgs = s.creditMsgs := by
  unfold State.modCtx; split <;> rfl
@[simp] theorem State.creditMsgs_setReg (t : Tid) (r : Reg) (v : Word) : (s.setReg t r v).creditMsgs = s.creditMsgs := by
  unfold State.setReg; split <;> simp
@[simp] theorem State.creditMsgs_setVreg (t : Tid) (r : VReg) (v : VecReg) : (s.setVreg t r v).creditMsgs = s.creditMsgs := by
  unfold State.setVreg; simp
@[simp] theorem State.creditMsgs_advance (t : Tid) (n : Nat) : (s.advance t n).creditMsgs = s.creditMsgs := by
  unfold State.advance State.retired State.count State.otcAdd; simp only [State.node]; (repeat' split) <;> simp
@[simp] theorem State.chCredits_modCtx (t : Tid) (f : Ctx → Ctx) : (s.modCtx t f).chCredits = s.chCredits := by
  unfold State.modCtx; split <;> rfl
@[simp] theorem State.chCredits_setReg (t : Tid) (r : Reg) (v : Word) : (s.setReg t r v).chCredits = s.chCredits := by
  unfold State.setReg; split <;> simp
@[simp] theorem State.chCredits_setVreg (t : Tid) (r : VReg) (v : VecReg) : (s.setVreg t r v).chCredits = s.chCredits := by
  unfold State.setVreg; simp
@[simp] theorem State.chCredits_advance (t : Tid) (n : Nat) : (s.advance t n).chCredits = s.chCredits := by
  unfold State.advance State.retired State.count State.otcAdd; simp only [State.node]; (repeat' split) <;> simp
@[simp] theorem State.chMsgs_modCtx (t : Tid) (f : Ctx → Ctx) : (s.modCtx t f).chMsgs = s.chMsgs := by
  unfold State.modCtx; split <;> rfl
@[simp] theorem State.chMsgs_setReg (t : Tid) (r : Reg) (v : Word) : (s.setReg t r v).chMsgs = s.chMsgs := by
  unfold State.setReg; split <;> simp
@[simp] theorem State.chMsgs_setVreg (t : Tid) (r : VReg) (v : VecReg) : (s.setVreg t r v).chMsgs = s.chMsgs := by
  unfold State.setVreg; simp
@[simp] theorem State.chMsgs_advance (t : Tid) (n : Nat) : (s.advance t n).chMsgs = s.chMsgs := by
  unfold State.advance State.retired State.count State.otcAdd; simp only [State.node]; (repeat' split) <;> simp
@[simp] theorem State.faultReports_modCtx (t : Tid) (f : Ctx → Ctx) : (s.modCtx t f).faultReports = s.faultReports := by
  unfold State.modCtx; split <;> rfl
@[simp] theorem State.faultReports_setReg (t : Tid) (r : Reg) (v : Word) : (s.setReg t r v).faultReports = s.faultReports := by
  unfold State.setReg; split <;> simp
@[simp] theorem State.faultReports_setVreg (t : Tid) (r : VReg) (v : VecReg) : (s.setVreg t r v).faultReports = s.faultReports := by
  unfold State.setVreg; simp
@[simp] theorem State.faultReports_advance (t : Tid) (n : Nat) : (s.advance t n).faultReports = s.faultReports := by
  unfold State.advance State.retired State.count State.otcAdd; simp only [State.node]; (repeat' split) <;> simp
@[simp] theorem State.units_modCtx (t : Tid) (f : Ctx → Ctx) : (s.modCtx t f).units = s.units := by
  unfold State.modCtx; split <;> rfl
@[simp] theorem State.units_setReg (t : Tid) (r : Reg) (v : Word) : (s.setReg t r v).units = s.units := by
  unfold State.setReg; split <;> simp
@[simp] theorem State.units_setVreg (t : Tid) (r : VReg) (v : VecReg) : (s.setVreg t r v).units = s.units := by
  unfold State.setVreg; simp
@[simp] theorem State.units_advance (t : Tid) (n : Nat) : (s.advance t n).units = s.units := by
  unfold State.advance State.retired State.count State.otcAdd; simp only [State.node]; (repeat' split) <;> simp
@[simp] theorem State.regions_modCtx (t : Tid) (f : Ctx → Ctx) : (s.modCtx t f).regions = s.regions := by
  unfold State.modCtx; split <;> rfl
@[simp] theorem State.regions_setReg (t : Tid) (r : Reg) (v : Word) : (s.setReg t r v).regions = s.regions := by
  unfold State.setReg; split <;> simp
@[simp] theorem State.regions_setVreg (t : Tid) (r : VReg) (v : VecReg) : (s.setVreg t r v).regions = s.regions := by
  unfold State.setVreg; simp
@[simp] theorem State.regions_advance (t : Tid) (n : Nat) : (s.advance t n).regions = s.regions := by
  unfold State.advance State.retired State.count State.otcAdd; simp only [State.node]; (repeat' split) <;> simp
@[simp] theorem State.loader_modCtx (t : Tid) (f : Ctx → Ctx) : (s.modCtx t f).loader = s.loader := by
  unfold State.modCtx; split <;> rfl
@[simp] theorem State.loader_setReg (t : Tid) (r : Reg) (v : Word) : (s.setReg t r v).loader = s.loader := by
  unfold State.setReg; split <;> simp
@[simp] theorem State.loader_setVreg (t : Tid) (r : VReg) (v : VecReg) : (s.setVreg t r v).loader = s.loader := by
  unfold State.setVreg; simp
@[simp] theorem State.loader_advance (t : Tid) (n : Nat) : (s.advance t n).loader = s.loader := by
  unfold State.advance State.retired State.count State.otcAdd; simp only [State.node]; (repeat' split) <;> simp
@[simp] theorem State.hbmStacks_modCtx (t : Tid) (f : Ctx → Ctx) : (s.modCtx t f).hbmStacks = s.hbmStacks := by
  unfold State.modCtx; split <;> rfl
@[simp] theorem State.hbmStacks_setReg (t : Tid) (r : Reg) (v : Word) : (s.setReg t r v).hbmStacks = s.hbmStacks := by
  unfold State.setReg; split <;> simp
@[simp] theorem State.hbmStacks_setVreg (t : Tid) (r : VReg) (v : VecReg) : (s.setVreg t r v).hbmStacks = s.hbmStacks := by
  unfold State.setVreg; simp
@[simp] theorem State.hbmStacks_advance (t : Tid) (n : Nat) : (s.advance t n).hbmStacks = s.hbmStacks := by
  unfold State.advance State.retired State.count State.otcAdd; simp only [State.node]; (repeat' split) <;> simp
@[simp] theorem State.ports_modCtx (t : Tid) (f : Ctx → Ctx) : (s.modCtx t f).ports = s.ports := by
  unfold State.modCtx; split <;> rfl
@[simp] theorem State.ports_setReg (t : Tid) (r : Reg) (v : Word) : (s.setReg t r v).ports = s.ports := by
  unfold State.setReg; split <;> simp
@[simp] theorem State.ports_setVreg (t : Tid) (r : VReg) (v : VecReg) : (s.setVreg t r v).ports = s.ports := by
  unfold State.setVreg; simp
@[simp] theorem State.ports_advance (t : Tid) (n : Nat) : (s.advance t n).ports = s.ports := by
  unfold State.advance State.retired State.count State.otcAdd; simp only [State.node]; (repeat' split) <;> simp
@[simp] theorem State.portNodes_modCtx (t : Tid) (f : Ctx → Ctx) : (s.modCtx t f).portNodes = s.portNodes := by
  unfold State.modCtx; split <;> rfl
@[simp] theorem State.portNodes_setReg (t : Tid) (r : Reg) (v : Word) : (s.setReg t r v).portNodes = s.portNodes := by
  unfold State.setReg; split <;> simp
@[simp] theorem State.portNodes_setVreg (t : Tid) (r : VReg) (v : VecReg) : (s.setVreg t r v).portNodes = s.portNodes := by
  unfold State.setVreg; simp
@[simp] theorem State.portNodes_advance (t : Tid) (n : Nat) : (s.advance t n).portNodes = s.portNodes := by
  unfold State.advance State.retired State.count State.otcAdd; simp only [State.node]; (repeat' split) <;> simp
@[simp] theorem State.sessions_modCtx (t : Tid) (f : Ctx → Ctx) : (s.modCtx t f).sessions = s.sessions := by
  unfold State.modCtx; split <;> rfl
@[simp] theorem State.sessions_setReg (t : Tid) (r : Reg) (v : Word) : (s.setReg t r v).sessions = s.sessions := by
  unfold State.setReg; split <;> simp
@[simp] theorem State.sessions_setVreg (t : Tid) (r : VReg) (v : VecReg) : (s.setVreg t r v).sessions = s.sessions := by
  unfold State.setVreg; simp
@[simp] theorem State.sessions_advance (t : Tid) (n : Nat) : (s.advance t n).sessions = s.sessions := by
  unfold State.advance State.retired State.count State.otcAdd; simp only [State.node]; (repeat' split) <;> simp
@[simp] theorem State.mcPending_modCtx (t : Tid) (f : Ctx → Ctx) : (s.modCtx t f).mcPending = s.mcPending := by
  unfold State.modCtx; split <;> rfl
@[simp] theorem State.mcPending_setReg (t : Tid) (r : Reg) (v : Word) : (s.setReg t r v).mcPending = s.mcPending := by
  unfold State.setReg; split <;> simp
@[simp] theorem State.mcPending_setVreg (t : Tid) (r : VReg) (v : VecReg) : (s.setVreg t r v).mcPending = s.mcPending := by
  unfold State.setVreg; simp
@[simp] theorem State.mcPending_advance (t : Tid) (n : Nat) : (s.advance t n).mcPending = s.mcPending := by
  unfold State.advance State.retired State.count State.otcAdd; simp only [State.node]; (repeat' split) <;> simp
@[simp] theorem State.holds_modCtx (t : Tid) (f : Ctx → Ctx) : (s.modCtx t f).holds = s.holds := by
  unfold State.modCtx; split <;> rfl
@[simp] theorem State.holds_setReg (t : Tid) (r : Reg) (v : Word) : (s.setReg t r v).holds = s.holds := by
  unfold State.setReg; split <;> simp
@[simp] theorem State.holds_setVreg (t : Tid) (r : VReg) (v : VecReg) : (s.setVreg t r v).holds = s.holds := by
  unfold State.setVreg; simp
@[simp] theorem State.holds_advance (t : Tid) (n : Nat) : (s.advance t n).holds = s.holds := by
  unfold State.advance State.retired State.count State.otcAdd; simp only [State.node]; (repeat' split) <;> simp
@[simp] theorem State.culmNodes_modCtx (t : Tid) (f : Ctx → Ctx) : (s.modCtx t f).culmNodes = s.culmNodes := by
  unfold State.modCtx; split <;> rfl
@[simp] theorem State.culmNodes_setReg (t : Tid) (r : Reg) (v : Word) : (s.setReg t r v).culmNodes = s.culmNodes := by
  unfold State.setReg; split <;> simp
@[simp] theorem State.culmNodes_setVreg (t : Tid) (r : VReg) (v : VecReg) : (s.setVreg t r v).culmNodes = s.culmNodes := by
  unfold State.setVreg; simp
@[simp] theorem State.culmNodes_advance (t : Tid) (n : Nat) : (s.advance t n).culmNodes = s.culmNodes := by
  unfold State.advance State.retired State.count State.otcAdd; simp only [State.node]; (repeat' split) <;> simp
@[simp] theorem State.cache_modCtx (t : Tid) (f : Ctx → Ctx) : (s.modCtx t f).cache = s.cache := by
  unfold State.modCtx; split <;> rfl
@[simp] theorem State.cache_setReg (t : Tid) (r : Reg) (v : Word) : (s.setReg t r v).cache = s.cache := by
  unfold State.setReg; split <;> simp
@[simp] theorem State.cache_setVreg (t : Tid) (r : VReg) (v : VecReg) : (s.setVreg t r v).cache = s.cache := by
  unfold State.setVreg; simp
@[simp] theorem State.cache_advance (t : Tid) (n : Nat) : (s.advance t n).cache = s.cache := by
  unfold State.advance State.retired State.count State.otcAdd; simp only [State.node]; (repeat' split) <;> simp
@[simp] theorem State.cnReq_modCtx (t : Tid) (f : Ctx → Ctx) : (s.modCtx t f).cnReq = s.cnReq := by
  unfold State.modCtx; split <;> rfl
@[simp] theorem State.cnReq_setReg (t : Tid) (r : Reg) (v : Word) : (s.setReg t r v).cnReq = s.cnReq := by
  unfold State.setReg; split <;> simp
@[simp] theorem State.cnReq_setVreg (t : Tid) (r : VReg) (v : VecReg) : (s.setVreg t r v).cnReq = s.cnReq := by
  unfold State.setVreg; simp
@[simp] theorem State.cnReq_advance (t : Tid) (n : Nat) : (s.advance t n).cnReq = s.cnReq := by
  unfold State.advance State.retired State.count State.otcAdd; simp only [State.node]; (repeat' split) <;> simp
@[simp] theorem State.xintTgt_modCtx (t : Tid) (f : Ctx → Ctx) : (s.modCtx t f).xintTgt = s.xintTgt := by
  unfold State.modCtx; split <;> rfl
@[simp] theorem State.xintTgt_setReg (t : Tid) (r : Reg) (v : Word) : (s.setReg t r v).xintTgt = s.xintTgt := by
  unfold State.setReg; split <;> simp
@[simp] theorem State.xintTgt_setVreg (t : Tid) (r : VReg) (v : VecReg) : (s.setVreg t r v).xintTgt = s.xintTgt := by
  unfold State.setVreg; simp
@[simp] theorem State.xintTgt_advance (t : Tid) (n : Nat) : (s.advance t n).xintTgt = s.xintTgt := by
  unfold State.advance State.retired State.count State.otcAdd; simp only [State.node]; (repeat' split) <;> simp
@[simp] theorem State.eth_modCtx (t : Tid) (f : Ctx → Ctx) : (s.modCtx t f).eth = s.eth := by
  unfold State.modCtx; split <;> rfl
@[simp] theorem State.eth_setReg (t : Tid) (r : Reg) (v : Word) : (s.setReg t r v).eth = s.eth := by
  unfold State.setReg; split <;> simp
@[simp] theorem State.eth_setVreg (t : Tid) (r : VReg) (v : VecReg) : (s.setVreg t r v).eth = s.eth := by
  unfold State.setVreg; simp
@[simp] theorem State.eth_advance (t : Tid) (n : Nat) : (s.advance t n).eth = s.eth := by
  unfold State.advance State.retired State.count State.otcAdd; simp only [State.node]; (repeat' split) <;> simp
@[simp] theorem State.pcie_modCtx (t : Tid) (f : Ctx → Ctx) : (s.modCtx t f).pcie = s.pcie := by
  unfold State.modCtx; split <;> rfl
@[simp] theorem State.pcie_setReg (t : Tid) (r : Reg) (v : Word) : (s.setReg t r v).pcie = s.pcie := by
  unfold State.setReg; split <;> simp
@[simp] theorem State.pcie_setVreg (t : Tid) (r : VReg) (v : VecReg) : (s.setVreg t r v).pcie = s.pcie := by
  unfold State.setVreg; simp
@[simp] theorem State.pcie_advance (t : Tid) (n : Nat) : (s.advance t n).pcie = s.pcie := by
  unfold State.advance State.retired State.count State.otcAdd; simp only [State.node]; (repeat' split) <;> simp
@[simp] theorem State.pcieMem_modCtx (t : Tid) (f : Ctx → Ctx) : (s.modCtx t f).pcieMem = s.pcieMem := by
  unfold State.modCtx; split <;> rfl
@[simp] theorem State.pcieMem_setReg (t : Tid) (r : Reg) (v : Word) : (s.setReg t r v).pcieMem = s.pcieMem := by
  unfold State.setReg; split <;> simp
@[simp] theorem State.pcieMem_setVreg (t : Tid) (r : VReg) (v : VecReg) : (s.setVreg t r v).pcieMem = s.pcieMem := by
  unfold State.setVreg; simp
@[simp] theorem State.pcieMem_advance (t : Tid) (n : Nat) : (s.advance t n).pcieMem = s.pcieMem := by
  unfold State.advance State.retired State.count State.otcAdd; simp only [State.node]; (repeat' split) <;> simp
@[simp] theorem State.power_modCtx (t : Tid) (f : Ctx → Ctx) : (s.modCtx t f).power = s.power := by
  unfold State.modCtx; split <;> rfl
@[simp] theorem State.power_setReg (t : Tid) (r : Reg) (v : Word) : (s.setReg t r v).power = s.power := by
  unfold State.setReg; split <;> simp
@[simp] theorem State.power_setVreg (t : Tid) (r : VReg) (v : VecReg) : (s.setVreg t r v).power = s.power := by
  unfold State.setVreg; simp
@[simp] theorem State.power_advance (t : Tid) (n : Nat) : (s.advance t n).power = s.power := by
  unfold State.advance State.retired State.count State.otcAdd; simp only [State.node]; (repeat' split) <;> simp
@[simp] theorem State.fuses_modCtx (t : Tid) (f : Ctx → Ctx) : (s.modCtx t f).fuses = s.fuses := by
  unfold State.modCtx; split <;> rfl
@[simp] theorem State.fuses_setReg (t : Tid) (r : Reg) (v : Word) : (s.setReg t r v).fuses = s.fuses := by
  unfold State.setReg; split <;> simp
@[simp] theorem State.fuses_setVreg (t : Tid) (r : VReg) (v : VecReg) : (s.setVreg t r v).fuses = s.fuses := by
  unfold State.setVreg; simp
@[simp] theorem State.fuses_advance (t : Tid) (n : Nat) : (s.advance t n).fuses = s.fuses := by
  unfold State.advance State.retired State.count State.otcAdd; simp only [State.node]; (repeat' split) <;> simp
@[simp] theorem State.boot_modCtx (t : Tid) (f : Ctx → Ctx) : (s.modCtx t f).boot = s.boot := by
  unfold State.modCtx; split <;> rfl
@[simp] theorem State.boot_setReg (t : Tid) (r : Reg) (v : Word) : (s.setReg t r v).boot = s.boot := by
  unfold State.setReg; split <;> simp
@[simp] theorem State.boot_setVreg (t : Tid) (r : VReg) (v : VecReg) : (s.setVreg t r v).boot = s.boot := by
  unfold State.setVreg; simp
@[simp] theorem State.boot_advance (t : Tid) (n : Nat) : (s.advance t n).boot = s.boot := by
  unfold State.advance State.retired State.count State.otcAdd; simp only [State.node]; (repeat' split) <;> simp
@[simp] theorem State.flashA_modCtx (t : Tid) (f : Ctx → Ctx) : (s.modCtx t f).flashA = s.flashA := by
  unfold State.modCtx; split <;> rfl
@[simp] theorem State.flashA_setReg (t : Tid) (r : Reg) (v : Word) : (s.setReg t r v).flashA = s.flashA := by
  unfold State.setReg; split <;> simp
@[simp] theorem State.flashA_setVreg (t : Tid) (r : VReg) (v : VecReg) : (s.setVreg t r v).flashA = s.flashA := by
  unfold State.setVreg; simp
@[simp] theorem State.flashA_advance (t : Tid) (n : Nat) : (s.advance t n).flashA = s.flashA := by
  unfold State.advance State.retired State.count State.otcAdd; simp only [State.node]; (repeat' split) <;> simp
@[simp] theorem State.flashB_modCtx (t : Tid) (f : Ctx → Ctx) : (s.modCtx t f).flashB = s.flashB := by
  unfold State.modCtx; split <;> rfl
@[simp] theorem State.flashB_setReg (t : Tid) (r : Reg) (v : Word) : (s.setReg t r v).flashB = s.flashB := by
  unfold State.setReg; split <;> simp
@[simp] theorem State.flashB_setVreg (t : Tid) (r : VReg) (v : VecReg) : (s.setVreg t r v).flashB = s.flashB := by
  unfold State.setVreg; simp
@[simp] theorem State.flashB_advance (t : Tid) (n : Nat) : (s.advance t n).flashB = s.flashB := by
  unfold State.advance State.retired State.count State.otcAdd; simp only [State.node]; (repeat' split) <;> simp
@[simp] theorem State.rel_modCtx (t : Tid) (f : Ctx → Ctx) : (s.modCtx t f).rel = s.rel := by
  unfold State.modCtx; split <;> rfl
@[simp] theorem State.rel_setReg (t : Tid) (r : Reg) (v : Word) : (s.setReg t r v).rel = s.rel := by
  unfold State.setReg; split <;> simp
@[simp] theorem State.rel_setVreg (t : Tid) (r : VReg) (v : VecReg) : (s.setVreg t r v).rel = s.rel := by
  unfold State.setVreg; simp
@[simp] theorem State.rel_advance (t : Tid) (n : Nat) : (s.advance t n).rel = s.rel := by
  unfold State.advance State.retired State.count State.otcAdd; simp only [State.node]; (repeat' split) <;> simp
@[simp] theorem State.samplers_modCtx (t : Tid) (f : Ctx → Ctx) : (s.modCtx t f).samplers = s.samplers := by
  unfold State.modCtx; split <;> rfl
@[simp] theorem State.samplers_setReg (t : Tid) (r : Reg) (v : Word) : (s.setReg t r v).samplers = s.samplers := by
  unfold State.setReg; split <;> simp
@[simp] theorem State.samplers_setVreg (t : Tid) (r : VReg) (v : VecReg) : (s.setVreg t r v).samplers = s.samplers := by
  unfold State.setVreg; simp
@[simp] theorem State.samplers_advance (t : Tid) (n : Nat) : (s.advance t n).samplers = s.samplers := by
  unfold State.advance State.retired State.count State.otcAdd; simp only [State.node]; (repeat' split) <;> simp
@[simp] theorem State.tap_modCtx (t : Tid) (f : Ctx → Ctx) : (s.modCtx t f).tap = s.tap := by
  unfold State.modCtx; split <;> rfl
@[simp] theorem State.tap_setReg (t : Tid) (r : Reg) (v : Word) : (s.setReg t r v).tap = s.tap := by
  unfold State.setReg; split <;> simp
@[simp] theorem State.tap_setVreg (t : Tid) (r : VReg) (v : VecReg) : (s.setVreg t r v).tap = s.tap := by
  unfold State.setVreg; simp
@[simp] theorem State.tap_advance (t : Tid) (n : Nat) : (s.advance t n).tap = s.tap := by
  unfold State.advance State.retired State.count State.otcAdd; simp only [State.node]; (repeat' split) <;> simp
@[simp] theorem State.freeCtr_modCtx (t : Tid) (f : Ctx → Ctx) : (s.modCtx t f).freeCtr = s.freeCtr := by
  unfold State.modCtx; split <;> rfl
@[simp] theorem State.freeCtr_setReg (t : Tid) (r : Reg) (v : Word) : (s.setReg t r v).freeCtr = s.freeCtr := by
  unfold State.setReg; split <;> simp
@[simp] theorem State.freeCtr_setVreg (t : Tid) (r : VReg) (v : VecReg) : (s.setVreg t r v).freeCtr = s.freeCtr := by
  unfold State.setVreg; simp
@[simp] theorem State.freeCtr_advance (t : Tid) (n : Nat) : (s.advance t n).freeCtr = s.freeCtr := by
  unfold State.advance State.retired State.count State.otcAdd; simp only [State.node]; (repeat' split) <;> simp

/-! ## The context of a thread -/

/-- The context that was changed. -/
@[simp] theorem State.ctx_modCtx_same (t : Tid) (f : Ctx → Ctx) : (s.modCtx t f).ctx t = f (s.ctx t) := by
  unfold State.ctx State.modCtx
  split <;> simp

/-- Threads of another core, or other contexts of a compute core, keep theirs. -/
theorem State.ctx_modCtx_ne {t t' : Tid} (f : Ctx → Ctx) (h : t'.unit ≠ t.unit ∨ (t.unit < 1024 ∧ t'.ctx ≠ t.ctx)) (h1 : tidOk t = true) (h2 : tidOk t' = true) :
    (s.modCtx t f).ctx t' = s.ctx t' := by
  simp only [tidOk, Bool.or_eq_true, Bool.and_eq_true, decide_eq_true_eq] at h1 h2
  unfold State.ctx State.modCtx
  by_cases hu : t'.unit = t.unit
  · have hc : t'.ctx ≠ t.ctx := by omega
    have hl : t.unit < 1024 := by omega
    simp [hu, hl, hc]
  · split <;> split
    · rw [State.core_modCore_ne _ _ hu]
    · rw [State.core_modCulm]
    · rw [State.culmCore_modCore]
    · rw [State.culmCore_modCulm_ne _ _ (by omega)]

/-- Two threads are different in that way. -/
theorem tid_ne {t t' : Tid} (h1 : tidOk t = true) (h2 : tidOk t' = true) (h : t' ≠ t) :
    t'.unit ≠ t.unit ∨ (t.unit < 1024 ∧ t'.ctx ≠ t.ctx) := by
  obtain ⟨u, c⟩ := t
  obtain ⟨u', c'⟩ := t'
  simp only [tidOk, Bool.or_eq_true, Bool.and_eq_true, decide_eq_true_eq] at h1 h2
  simp only [ne_eq, Tid.mk.injEq, not_and] at h ⊢
  by_cases hu : u' = u
  · right
    exact ⟨by have := h hu; omega, h hu⟩
  · exact .inl hu

/-- The register that was written; g0 stays zero (R87). -/
@[simp] theorem State.reg_setReg_same (t : Tid) (r : Reg) (v : Word) : (s.setReg t r v).reg t r = if r = 0 then 0 else v := by
  unfold State.reg State.setReg
  split <;> simp

/-- The other registers of the thread. -/
@[simp] theorem State.reg_setReg_ne (t : Tid) {r q : Reg} (v : Word) (h : q ≠ r) : (s.setReg t r v).reg t q = s.reg t q := by
  unfold State.reg State.setReg
  split
  · rfl
  · split
    · rfl
    have : q.toNat ≠ r.toNat := fun e => h (BitVec.eq_of_toNat_eq e)
    simp [this]

/-- The vector register that was written. -/
@[simp] theorem State.vreg_setVreg_same (t : Tid) (r : VReg) (v : VecReg) : (s.setVreg t r v).vreg t r = v := by
  simp [State.vreg, State.setVreg]

/-- The other vector registers of the thread. -/
@[simp] theorem State.vreg_setVreg_ne (t : Tid) {r q : VReg} (v : VecReg) (h : q ≠ r) : (s.setVreg t r v).vreg t q = s.vreg t q := by
  have : q.toNat ≠ r.toNat := fun e => h (BitVec.eq_of_toNat_eq e)
  simp [State.vreg, State.setVreg, this]

/-- What a write of a general register leaves of the context. -/
theorem State.ctx_setReg (t : Tid) (r : Reg) (v : Word) :
    (s.setReg t r v).ctx t = { s.ctx t with g := if r = 0 then (s.ctx t).g else sput 0 (s.ctx t).g r.toNat v } := by
  unfold State.setReg
  split <;> simp

end Sys2Proof.Machine
end

