-- ==== Sys2Proof/Laws/Issue.lean ====
section
/-! SUPPORT. The frame of an instruction: what issuing and retiring one does when nothing else is due at its boundary. -/

namespace Sys2Proof.Machine

variable {s : State} {t : Tid} {len : Nat}

/-- What `State.clear` says, one clause at a time. -/
theorem State.clear_iff : s.clear t len = true ↔
    tidOk t = true ∧ s.canIssue t = true ∧ (s.ctx t).dbg.pending = false ∧ (s.ctx t).dbg.skip = false ∧ (s.ctx t).dbg.stepping = false
      ∧ (s.ctx t).dbg.late = false ∧ (s.ctx t).deferred = none ∧ (s.ctx t).trapDue = none ∧ (s.ctx t).stepArmed = false
      ∧ (s.ctx t).breakpoint = none ∧ (s.ctx t).fetchAt ≤ (s.ctx t).pc.toNat
      ∧ (s.ctx t).pc.toNat + len ≤ (s.ctx t).fetchAt + (s.ctx t).fetchBuf.length
      ∧ (s.ctx t).pc.toNat + len ≤ (s.ctx t).segs.s0.bound.toNat ∧ 2 ≤ len := by
  simp [State.clear, and_assoc]

/-- The fetch buffer holds the instruction: the fetch changes nothing. -/
theorem State.fetch_clear (h : s.clear t len = true) : s.fetch t len = .ok s := by
  rw [State.clear_iff] at h
  obtain ⟨-, -, -, -, -, -, -, -, -, -, h1, h2, h3, h4⟩ := h
  unfold State.fetch
  simp only [Nat.not_lt.mpr h3, Nat.not_lt.mpr (Nat.le_trans (Nat.add_le_add_left h4 _) h3), h1, h2, if_false, and_self, if_true]

/-- An instruction of a clear thread that leaves no trap and no debugger's business is its body. -/
theorem State.issue_clear (body : State → State) (h : s.clear t len = true) (ht : ((body s).ctx t).trapDue = none)
    (hp : ((body s).ctx t).dbg.pending = false) (hs : ((body s).ctx t).dbg.stepping = false) (hk : ((body s).ctx t).dbg.skip = false) :
    s.issue t len body = .next (body s) := by
  have hf := State.fetch_clear h
  rw [State.clear_iff] at h
  obtain ⟨h1, h2, h3, -, -, -, h7, h8, -, h10, -⟩ := h
  simp [State.issue, onUnit, State.boundary, State.settleDebug, *]

/-- Retiring changes the context in its PC, progress and counters, and is a single step's trap. -/
theorem State.ctx_advance (s : State) (t : Tid) (n : Nat) :
    (s.advance t n).ctx t =
      { s.ctx t with pc := (s.ctx t).pc + word n, prog := 0, sent := 0, dbg := { (s.ctx t).dbg with late := false },
                     trapDue := if (s.ctx t).stepArmed then some ((s.ctx t).trapDue.getD (0x16, 0)) else (s.ctx t).trapDue,
                     otc := sput 0 (s.ctx t).otc 1 (sget 0 (s.ctx t).otc 1 + word 1) } := by
  unfold State.advance State.retired State.otcAdd
  have hc : ∀ (s : State) a b c d, (s.count a b c d).ctx t = s.ctx t := by
    intro s a b c d
    unfold State.count
    simp only
    split <;> rfl
  simp only []
  split <;> simp [hc]

/-- What changes nothing changes nothing outside a thread. -/
theorem State.onlyThread_refl (s : State) (t : Tid) : s.onlyThread s t := ⟨rfl, fun _ => rfl, fun _ => rfl, fun _ => rfl, fun _ _ _ => rfl⟩

theorem State.onlyThread_trans {s u w : State} {t : Tid} (h : s.onlyThread u t) (h' : u.onlyThread w t) : s.onlyThread w t :=
  ⟨h'.1.trans h.1, fun n => (h'.2.1 n).trans (h.2.1 n), fun n => (h'.2.2.1 n).trans (h.2.2.1 n), fun n => (h'.2.2.2.1 n).trans (h.2.2.2.1 n),
   fun a b c => (h'.2.2.2.2 a b c).trans (h.2.2.2.2 a b c)⟩

/-- A change of one thread's context is one. -/
theorem State.onlyThread_modCtx (s : State) (t : Tid) (f : Ctx → Ctx) (ht : tidOk t = true) : s.onlyThread (s.modCtx t f) t := by
  refine ⟨?_, ?_, ?_, ?_, fun t' h h' => State.ctx_modCtx_ne s f (tid_ne ht h h') ht h⟩
  · unfold State.modCtx
    split <;> rfl
  · intro n
    unfold State.modCtx
    split
    · by_cases hn : n = t.unit
      · subst hn
        simp
      · simp [hn]
    · simp
  · intro n
    unfold State.modCtx
    split
    · simp
    · by_cases hn : n = t.unit - 1024
      · rw [hn, State.culmCore_modCulm_same]
      · rw [State.culmCore_modCulm_ne _ _ hn]
  · intro n
    simp [State.node]

/-- Counting an event is one. -/
theorem State.onlyThread_count (s : State) (t : Tid) (a b : Nat) (q : Nat → Bool) (n : Nat) : s.onlyThread (s.count a b q n) t := by
  unfold State.count
  simp only []
  split
  · exact State.onlyThread_refl s t
  · refine ⟨rfl, fun _ => rfl, fun _ => rfl, fun m => ?_, fun _ _ _ => rfl⟩
    by_cases hm : m = a
    · subst hm
      simp
    · simp [hm]

theorem State.onlyThread_setReg (s : State) (t : Tid) (r : Reg) (v : Word) (ht : tidOk t = true) : s.onlyThread (s.setReg t r v) t := by
  unfold State.setReg
  split
  · exact State.onlyThread_refl s t
  · exact State.onlyThread_modCtx s t _ ht

theorem State.onlyThread_advance (s : State) (t : Tid) (n : Nat) (ht : tidOk t = true) : s.onlyThread (s.advance t n) t := by
  unfold State.advance State.retired State.otcAdd
  simp only []
  have h1 := fun f => State.onlyThread_modCtx s t f ht
  have h2 := fun (s : State) f => State.onlyThread_modCtx s t f ht
  split
  · exact State.onlyThread_trans (State.onlyThread_trans (State.onlyThread_trans (h1 _) (h2 _ _)) (h2 _ _)) (State.onlyThread_count _ _ _ _ _ _)
  · exact State.onlyThread_trans (State.onlyThread_trans (h1 _) (h2 _ _)) (h2 _ _)

/-- The registers of a thread are what its context holds. -/
theorem State.reg_advance (s : State) (t : Tid) (n : Nat) (q : Reg) : (s.advance t n).reg t q = s.reg t q := by
  simp [State.reg, State.ctx_advance]

/-- A result in a general register, and the instruction retires. -/
theorem State.setsReg_intro (h : s.clear t len = true) (r : Reg) (v : Word) : s.setsReg ((s.setReg t r v).advance t len) t len r v := by
  rw [State.clear_iff] at h
  obtain ⟨h1, h2, h3, h4, h5, h6, h7, h8, h9, -⟩ := h
  refine ⟨⟨State.onlyThread_trans (State.onlyThread_setReg s t r v h1) (State.onlyThread_advance _ t len h1), ?_, ?_, ?_, ?_, ?_⟩, ?_, ?_, ?_⟩
  · have hd : ({ (s.ctx t).dbg with late := false } : Dbg) = (s.ctx t).dbg := by rw [← h6]
    simp only [Ctx.still, State.ctx_advance, State.ctx_setReg, h9, h8, hd]
    rfl
  · simp [State.ctx_advance, State.ctx_setReg]
  · simp [State.ctx_advance]
  · simp [State.ctx_advance, State.ctx_setReg, word]
  · intro k hk
    simp [State.ctx_advance, State.ctx_setReg, hk]
  · simp [State.ctx_advance, State.ctx_setReg]
  · simp [State.reg_advance]
  · intro q hq
    simp [State.reg_advance, hq]

/-- An instruction whose body writes one general register and retires. -/
theorem State.issue_setsReg (h : s.clear t len = true) (r : Reg) (v : Word) :
    ∃ u, s.issue t len (fun s => (s.setReg t r v).advance t len) = .next u ∧ s.setsReg u t len r v := by
  have h' := State.clear_iff.mp h
  refine ⟨_, State.issue_clear _ h ?_ ?_ ?_ ?_, State.setsReg_intro h r v⟩ <;> simp [State.ctx_advance, State.ctx_setReg, h']

end Sys2Proof.Machine
end

