-- ==== Sys2Proof/Laws/Memory.lean ====
section
/-! SUPPORT. Memory: each operation that writes it keeps its canonical form, and what a stored byte reads as. -/

namespace Sys2Proof.Machine

/-- Memory as it is at reset is canonical. -/
theorem memory_wf_reset : Memory.wf State.reset.mem = true := by decide

/-- A fold of writes keeps the canonical form. -/
theorem memory_wf_foldl {β : Type} (l : List β) (keep : β → Bool) (k : β → Nat) (v : β → Byte) (m : List Host.Cell) (h : Memory.wf m = true) :
    Memory.wf (l.foldl (fun m p => if keep p then sput memDefault m (k p) (v p) else m) m) = true := by
  induction l generalizing m with
  | nil => exact h
  | cons b l ih =>
    refine ih _ ?_
    show Memory.wf (if keep b then sput memDefault m (k b) (v b) else m) = true
    split
    · exact swf_sput _ _ _ _ h
    · exact h

/-- Storing bytes keeps the canonical form. -/
theorem memory_wf_pokeWhere (s : State) (keep : Nat → Bool) (a : Nat) (d : List Byte) (h : Memory.wf s.mem = true) : Memory.wf (s.pokeWhere keep a d).mem = true :=
  memory_wf_foldl d.zipIdx (fun p : Byte × Nat => keep (a + p.2)) (fun p : Byte × Nat => s.cellOf (a + p.2)) (fun p : Byte × Nat => p.1) s.mem h

theorem memory_wf_poke (s : State) (a : Nat) (d : List Byte) (h : Memory.wf s.mem = true) : Memory.wf (s.poke a d).mem = true :=
  memory_wf_pokeWhere s _ a d h

/-- An agent's write keeps the canonical form, whatever it answers. -/
theorem memory_wf_writeAcc (s : State) (hf : Half) (a : Nat) (d : List Byte) (h : Memory.wf s.mem = true) : Memory.wf (s.writeAcc hf a d).2.mem = true := by
  unfold State.writeAcc
  split
  · exact h
  · split
    · exact h
    · exact memory_wf_pokeWhere s (fun x => !(s.unitBad x && (s.pcFailed x || !covers a d.length x))) a d h

/-- Clearing a tiller's stores keeps the canonical form. -/
theorem memory_wf_zeroise (s : State) (T : Nat) (h : Memory.wf s.mem = true) : Memory.wf (s.zeroise T).mem = true := swf_filter _ _ _ h

/-- Memory after its training is canonical: nothing is listed. -/
theorem memory_wf_memoryReady (s : State) : Memory.wf s.memoryReady.mem = true := rfl

end Sys2Proof.Machine
end

