-- ==== Sys2Proof/Tests/Slice0.lean ====
section
/-! SUPPORT. The model's own tests: each check of WellFormed refuses an ill-formed command; states and operands that meet the
hypotheses of every statement; and single steps with values from the spec. -/

namespace Sys2Proof.Tests

open Sys2Proof Sys2Proof.Machine

-- The tests are checked one after another, so that few are in memory at a time.
set_option Elab.async false

/-! ## States for the tests -/

/-- A mated module that is off. -/
def offS : State := { State.reset with power := { State.reset.power with present := true } }
/-- A running module before its boot stages, both halves slowed and open. -/
def on : State := { State.reset with power := { State.reset.power with phase := .running, present := true, powerEn := true, vin := 5400 } }
/-- The same with its rails up and in reset. -/
def inReset : State := { on with power := { on.power with phase := .reset } }
/-- Changes of its parts. -/
def onPow (f : Power → Power) : State := { on with power := f on.power }
def onBoot (f : Boot → Boot) : State := { on with boot := f on.boot }
def onTime (f : Time → Time) : State := { on with time := f on.time }
def onWest (f : HalfRec → HalfRec) : State := { on with west := f on.west }
def onLoader (f : Loader → Loader) : State := { on with loader := f on.loader }
def onRel (f : Rel → Rel) : State := { on with rel := f on.rel }

/-! ## The machine, power and pins -/

theorem hyp_stepRunsFront : ({ on with pending := [.railsInRegulation, .thermalTrip] } : State).pending = .railsInRegulation :: [.thermalTrip] := rfl

theorem hyp_emptyQueueTicks : on.pending = [] ∧ on.time.counting = false ∧ (onTime (fun x => { x with counting := true })).time.counting = true ∧
    (onTime (fun x => { x with counting := true })).time.slew = 0 ∧ (onTime (fun x => { x with counting := true })).time.frac = 0 := by decide

theorem hyp_everyCommandAnswers : (Instr.rstCore 1023).wellFormed = true ∧ (Instr.rstCore 1024).wellFormed = false := by decide

theorem hyp_offIsStill : State.reset.power.phase = .off ∧ (on.trip true).power.phase = .tripped ∧
    (∀ v, Instr.thermalTrip ≠ .powerEnRise v) ∧ (∀ n, Instr.thermalTrip ≠ .powerEnFall n) ∧ (∀ m, Instr.thermalTrip ≠ .presentLChange m) := by
  refine ⟨rfl, by decide, ?_, ?_, ?_⟩ <;> intro _ h <;> cases h

theorem hyp_offKeptByEveryStep : OffInv { State.reset with pending := [.railsInRegulation] } ∧
    ∃ u, Machine.step { State.reset with pending := [.railsInRegulation] } = .next u := by
  refine ⟨by unfold OffInv; decide, _, rfl⟩

theorem hyp_powerSwitching : offS.power.present = true ∧ offS.power.phase = .off ∧ offS.power.restartOk = true ∧ offS.power.powerEn = false ∧
    (3900 : Nat) ≤ 3900 ∧ (3899 : Nat) < 3900 ∧ ({ offS with power := { offS.power with restartOk := false } } : State).power.restartOk = false ∧
    ({ offS with power := { offS.power with phase := .starting } } : State).power.phase = .starting ∧ (49 : Nat) < 50 ∧ (50 : Nat) ≤ 50 ∧
    State.reset.power.present = false ∧ on.railsOn = true ∧ on.pwrGood = true ∧ offS.railsOn = false := by decide

theorem hyp_governor : on.up = true ∧ on.pcap = 2900 ∧ on.pcap < (onPow (fun p => { p with pavg := 2901 })).power.pavg ∧
    (onPow (fun p => { p with dieHot := true })).power.dieHot = true ∧ 12 < on.power.coreLimit ∧
    (onPow (fun p => { p with coreLimit := 12 })).power.coreLimit ≤ 12 ∧ 6 < on.power.meshLimit ∧ on.power.dieHot = false ∧ on.power.pavg + 150 < on.pcap ∧
    (onPow (fun p => { p with meshLimit := 23 })).power.meshLimit < 24 ∧ 24 ≤ on.power.meshLimit ∧ (onPow (fun p => { p with coreLimit := 26 })).power.coreLimit < 27 ∧
    (onPow (fun p => { p with iin := 7501 })).overCurrent = true ∧ on.overCurrent = false ∧ on.power.localClk = false ∧
    (3700 : Nat) < 65536 ∧ (101 : Nat) < 256 := by decide

theorem hyp_managementBus : on.pwrGood = true ∧ on.power.i3cAddr < 128 ∧ (0x2B : BitVec 7).toNat ≠ on.power.i3cAddr ∧
    (0 : Word).toNat % 4 ≠ 1 ∧ (1 : Word).toNat % 4 = 1 ∧ on.up = true := by decide

/-! ## Boot, the chain, trust -/

/-- A module at a boot stage. -/
def atStage (n : Nat) : State := onBoot (fun b => { b with stage := n })

theorem hyp_bootStages : inReset.power.phase = .reset ∧ on.up = true ∧ on.boot.stage = 0 ∧ on.imageFault false = some 2 ∧ on.boot.image = false ∧
    ((onBoot (fun b => { b with image := true })).imageFault true = some 2 ∧ (2 : Nat) ≠ 7) ∧ (atStage 1).boot.stage = 1 ∧
    ((atStage 3).boot.stage = 3 ∧ (atStage 3).loader.baseLoaded = false ∧ ({ atStage 3 with loader := { on.loader with busy := true } } : State).loader.busy = true) ∧
    ((atStage 4).boot.stage = 4 ∧ (atStage 4).boot.standalone = false ∧ (atStage 4).boot.holridTried = 0 ∧
      ({ atStage 4 with boot := { (atStage 4).boot with standalone := true, holridTried := 1 } } : State).boot.holridTried ≠ 0) := by decide +kernel

/-- The chain open, its frames circulating. -/
def chained (c n : Nat) (seen : Bool) : State :=
  { on with power := { on.power with bypassOpen := true }, boot := { on.boot with stage := 5, chain := c, claims := n, claimSeen := seen, moduleId := 9 }, fuses := { on.fuses with serial := 77 } }
/-- A frame with its check. -/
def framed (l : List Byte) : List Byte := l ++ leBytes 4 (crc32 l)

theorem hyp_addressChain : (chained 1 0 false).up = true ∧ (chained 1 0 false).boot.stage = 5 ∧ (chained 1 0 false).boot.chain = 1 ∧ (chained 0 0 false).pwrGood = true ∧
    (chained 0 0 false).boot.chain = 0 ∧ (chained 2 2 false).power.bypassOpen = true ∧ (chained 2 2 false).boot.claims < 3 ∧
    ([] : List Byte).length ≠ 24 ∧
    ((framed (leBytes 20 1)).length = 24 ∧ fld (framed (leBytes 20 1)) 20 4 = crc32 ((framed (leBytes 20 1)).take 20) ∧ fld (framed (leBytes 20 1)) 4 8 ≠ (chained 2 2 false).fuses.serial.toNat) ∧
    (fld (framed (leBytes 20 (1 + 77 * 2 ^ 32))) 20 4 = crc32 ((framed (leBytes 20 (1 + 77 * 2 ^ 32))).take 20) ∧ fld (framed (leBytes 20 (1 + 77 * 2 ^ 32))) 4 8 = (chained 2 2 false).fuses.serial.toNat ∧
      fld (framed (leBytes 20 (1 + 77 * 2 ^ 32))) 0 1 = 1) ∧
    ((9 : BitVec 14).toNat = (chained 2 2 false).boot.moduleId ∧ (78 : Word) ≠ (chained 2 2 false).fuses.serial ∧ (chained 2 2 false).fuses.serial.toNat < (78 : Word).toNat ∧
      (76 : Word).toNat < (chained 2 2 false).fuses.serial.toNat ∧ (chained 3 3 true).boot.chain = 3) ∧
    ((chained 2 3 true).boot.claims = 3 ∧ (chained 2 3 true).boot.claimSeen = true ∧ (chained 2 3 false).boot.claimSeen = false ∧
      (chained 2 3 false).time.tb < (chained 2 3 false).boot.rollStart + 60000000000 ∧
      ({ chained 2 3 false with time := { on.time with tb := 60000000000 } } : State).boot.rollStart + 60000000000 ≤ ({ chained 2 3 false with time := { on.time with tb := 60000000000 } } : State).time.tb) := by
  decide +kernel

theorem hyp_trustCommands : on.up = true ∧ on.blocked .west = false ∧ on.keeperRead (field (0xFFFFFFFFFC0 : Word) 6 38 * 64) 840 = none ∧
    (on.keeperRead (field (0x4000 : Word) 6 38 * 64) 840).isSome = true ∧
    ((on.keeperRead (field (0x4000 : Word) 6 38 * 64) 840).map (fun l => match on.fuses.request l with | .error _ => true | .ok _ => false)) = some true ∧
    field (7 : Word) 0 4 < 8 ∧ 8 ≤ field (0x4008 : Word) 0 4 ∧ (on.keeperRead (field (0x4008 : Word) 6 38 * 64) 32).isSome = true ∧
    inHbmOrCs (field (0x10200000000 : Word) 6 38 * 64) 1024 = false ∧ inHbmOrCs (field (0x4000 : Word) 6 38 * 64) 1024 = true ∧ (0x7FFFFFF : Nat) < 0x8000000 := by decide +kernel

/-- The flash of image A with an empty HOLRID component. -/
def flashHolrid : Sparse Byte := (leBytes 2 2 ++ List.replicate 14 0 ++ sha256 []).zipIdx.foldl (fun (m : Sparse Byte) (p : Byte × Nat) => sput 0 m (32 + p.2) p.1) []

theorem hyp_bootHolrid : (atStage 3).boot.stage = 3 ∧ ({ atStage 3 with loader := { on.loader with baseLoaded := true } } : State).loader.baseLoaded = true ∧ on.loader.busy = false ∧
    (({ on with flashA := flashHolrid } : State).componentRead false (({ on with flashA := flashHolrid } : State).bootHeader false) 2).isSome = true := by decide +kernel

/-! ## Clocks, parking, the mesh and time -/

/-- The West half in a state. -/
def westAt (st : HalfState) : State := onWest (fun x => { x with st := st })

theorem hyp_halfClocks : on.up = true ∧ on.halfBusy = false ∧ on.blocked .west = false ∧ targetsOk 6 24 = true ∧ targetsOk 28 24 = false ∧ targetsOk 27 5 = false ∧
    ((onWest (fun x => { x with raising := true })).half .west).raising = true ∧ on.loader.busy = false ∧ on.rel.wdr = .none ∧
    on.parkRefusal .east ≠ 0 := by decide +kernel

/-- A module that a park of the East half may be asked of. -/
def parkable : State := { on with parkEn := true, culmNodes := [(1, { st := 2 }), (3, { st := 2 })] }

theorem hyp_parking : parkable.up = true ∧ parkable.parkRefusal .east = 0 ∧ ((westAt .parking).half .west).st = .parking ∧ (westAt .parking).draining .west = false ∧
    ((westAt .parked).half .west).st = .parked ∧ (westAt .parked).halfBusy = false ∧ ((westAt .unparking).half .west).locked = false ∧
    ((onWest (fun x => { x with st := .unparking, locked := true })).half .west).locked = true ∧ (westAt .unparking).loader.device.unparkEv = false := by decide +kernel

theorem hyp_meshTraffic : (99 : Nat) < 100 ∧ on.blocked (nodeHalf 99) = false ∧ 2 ≤ ctrlSlots 5 ∧ ctrlSlots 1 < 2 ∧ on.clockOn .west = true ∧
    (({ on with nodes := [(12, { tokenNo := 0, arb := 0x0000000001020444 })] } : State).node 12).tokenNo < (({ on with nodes := [(12, { tokenNo := 0, arb := 0x0000000001020444 })] } : State).node 12).allot ∧
    (on.node 12).waiting = [] ∧ (neighbour 12 (dirCode .north)).isSome = true ∧ (on.node 12).reports.length < 8 ∧ sget [] (on.node 12).retries 0 = [] ∧
    (9 : Nat) < 10 ∧ (westAt .parked).blocked .west = true := by decide +kernel

/-- A module that takes its time from port 3. -/
def timed : State := { onTime (fun x => { x with parent := 3, alt := 5, tb := 1000, counting := true }) with ports := [(3, { st := .up, en := true })] }

theorem hyp_time : timed.up = true ∧ timed.portUp 3 = true ∧ timed.expectsBeacons = true ∧ timed.portUp timed.beaconPort = true ∧
    ({ timed with time := { timed.time with t1 := some 900 } } : State).time.t1 = some (900 : Word).toNat ∧ timed.time.aligned = false ∧
    ({ timed with time := { timed.time with aligned := true } } : State).time.realign = false ∧ (onTime (fun x => { x with holding := true })).time.holding = true ∧
    4 ≤ ({ timed with time := { timed.time with missed := 4 } } : State).time.missed ∧ timed.portUp timed.time.parent = true ∧
    ({ timed with ports := [] } : State).portUp timed.time.parent = false ∧ timed.time.alt < 32 ∧ timed.time.onAlt = false := by decide +kernel

/-! ## Loader and resets -/

/-- Region 2, block 5, in a state. -/
def regionAt (st : RegState) : State := { on with regions := [(2, { st := st, blocks := 32, mode := 2 })] }

theorem hyp_loader : on.keeperClear = true ∧ (15 : Nat) < 16 ∧ ((regionAt .draining).region 2).st = .draining ∧ (regionAt .draining).meetsQuiet 2 = true ∧
    ({ regionAt .draining with loader := { on.loader with closing := [] }, tillers := [((regionAt .draining).regionTillers 2 |>.headD 0, { th := { queues := [(0, { valid := true, tokens := [⟨[], 0, true, true⟩] })] } })] } : State).meetsQuiet 2 = false ∧
    on.loader.drainLim ≠ 0 ∧ ((regionAt .loading).region 2).st = .loading ∧ ({ regionAt .loading with loader := { on.loader with toWrite := [2] } } : State).loader.toWrite.contains 2 = true ∧
    (({ regionAt .checking with loader := { on.loader with toCheck := [2, 3] } } : State).loader.toCheck.erase 2).isEmpty = false ∧
    ((regionAt .checking).regionTillers 2).any (fun T => ((regionAt .checking).tiller T).takeover.isSome) = false ∧ (regionAt .checking).loader.changed = false ∧
    ((regionAt .checking).region 2).mode = 2 ∧ ((regionAt .checking).region 2).arrayAuto = false ∧ ((regionAt .checking).region 2).autostart = [] ∧ on.loader.failed = 0 := by decide +kernel

/-- A LOAD whose image is refused: the image address holds no image. -/
theorem hyp_loadRefused : ∃ e, ({ on with loader := { on.loader with op := 3, purgeBit := false, mask := 1, busy := true, waiting := false, skipped := 0 } } : State).imageGo 1 false on.loader.src = .error e ∧ e.code ≠ 0 := by
  refine ⟨_, rfl, ?_⟩
  decide +kernel

theorem hyp_resets : (9 : Nat) < 10 ∧ (10 : Nat) ≤ 10 ∧ on.pwrGood = true ∧ on.keeperClear = true ∧ (1023 : Nat) < 1024 ∧ on.clockOn (tillerHalf (1023 / 16)) = true ∧
    on.linkPort 31 = true ∧ ((on.port 31).st = .down ∨ (on.port 31).st = .disabled) ∧ ((regionAt .serving).region 2).st ≠ .undefined ∧ (regionAt .serving).parkCuts 4 = false := by decide +kernel

/-! ## Threads for the tests -/

/-- A running thread at a level, before an instruction that its fetch buffer holds, with SEG0 its core local memory, SEG1 tiller
memory 0, SEG2 HBM and SEG3 the local module's whole space. -/
def thr (level : Nat) (core : Nat) : Ctx :=
  { st := .running, level := level, pc := 0x100, fetchAt := 0x100, fetchBuf := List.replicate 128 0, g := [(1, 0x1000), (2, 7), (31, 0x8000)],
    segs := ({ s0 := ⟨word (clmAddr core 0), 0x80000⟩, s1 := ⟨word (tmAddr 0 0), 0x400000⟩, s2 := ⟨0, 0x1000000⟩, s3 := ⟨word (0x3FFF * 2 ^ 44), 0xFFFFFFFFFFF⟩ } : Segs) }
/-- Context 0 of core 0. -/
def t0 : Tid := ⟨0, 0⟩
/-- A module where only that thread runs, its context as given. -/
def with0 (c : Ctx) : State := { on with cores := [(0, { ctx := [(0, c)], running := some 0 })] }
/-- The same on Culm core 0, whose node runs. -/
def c0 : Tid := ⟨1024, 0⟩
def withCulm (c : Ctx) (f : CulmCore → CulmCore) : State := { on with culm := [(0, f { ctx := c })], culmNodes := [(0, { st := 1 })] }
/-- A Culm thread. -/
def cthr (level : Nat) : Ctx := { thr level 0 with segs := ({ s0 := ⟨0, 0x80000⟩, s1 := ⟨0, 0x80000⟩, s2 := ⟨0, 0x80000⟩, s3 := ⟨0, 0xFFFFFFFFFFF⟩ } : Segs) }

/-! ## Counters, samplers, debugging, the test port -/

theorem hyp_counters : (with0 (thr 2 0)).clear t0 4 = true ∧ ((with0 (thr 2 0)).reg t0 2).toNat < 256 ∧ on.reachable 0 = true ∧ on.reachable 99 = true ∧
    bit (1 : Word) 0 = true ∧ (on.sampler 3).en = false ∧ field (1 : Word) 16 20 = 0 ∧ 1000000 < field (word (1000001 * 2 ^ 16)) 16 20 ∧
    0 < field (word (1 + 2 ^ 16 * 1000000 + 64 * 256)) 16 20 ∧ field (word (1 + 2 ^ 16 * 1000000 + 64 * 256)) 16 20 ≤ 1000000 ∧ field (word (1 + 2 ^ 16 * 1000000 + 64 * 256)) 8 8 ≤ 64 ∧
    (match on.readAcc .west (on.sampler 3).list 128 with | .ok l => (List.range 64).all (fun e => fld l (2 * e) 2 ≤ 799) | .error _ => false) = true := by decide +kernel

/-- A sampler at work. -/
def sampling (x : Sampler) : State := { onTime (fun t => { t with tb := 5000 }) with samplers := [(1, x)] }

theorem hyp_samples : bit (0 : Word) 0 = false ∧ ((sampling { en := true, st := 1 }).sampler 1).en = true ∧ ((sampling { en := true, st := 1 }).sampler 1).busy = none ∧
    ((sampling { en := true, st := 1, t0 := 4000, due := 1, periodNow := 1000 }).sampler 1).t0 + 1 * 1000 ≤ (sampling {}).time.tb ∧
    (sampling {}).samplerPaused ((sampling {}).sampler 1) = false ∧ ((sampling { en := true, st := 1, busy := some (List.replicate 64 1) }).sampler 1).busy.isSome = true ∧
    ((sampling { busy := some (List.replicate 64 0) }).writeAcc .west (((sampling {}).sampler 1).recordAt 0 + 32) (List.replicate 32 0)).1 = none := by decide +kernel

/-- A halted thread. -/
def halted0 : State := with0 { thr 2 0 with st := .halted, dbg := { byDebugger := true } }

theorem hyp_debug : tidOk t0 = true ∧ (with0 (thr 2 0)).reachable (tidNode t0) = true ∧ ((with0 { thr 2 0 with st := .ready }).ctx t0).st = .ready ∧
    ((with0 (thr 2 0)).ctx t0).st = .running ∧ ((with0 (thr 2 0)).ctx t0).wait = none ∧ (halted0.ctx t0).st = .halted ∧ (halted0.ctx t0).dbg.byDebugger = true := by decide +kernel

theorem hyp_tap : on.pwrGood = true ∧ (0 : BitVec 112).getLsbD 45 = false ∧ (BitVec.ofNat 112 (2 ^ 45)).getLsbD 45 = true ∧
    (onBoot (fun b => { b with debug := 2 })).tapAllows 0 = false ∧ on.tapAllows 0 = true ∧
    (match (on.tapGo 0 false 0).1 with | .ok x => x == (0 : Word) | .error _ => false) = true ∧ (match (on.tapGo 0x1FFFFFFFFFF false 0).1 with | .ok _ => false | .error e => e == 1) = true := by decide +kernel

/-! ## Services and the Culm complex -/

/-- Service port 1 with rings of two descriptors; the first transmit descriptor, at 0x1000, and the first receive descriptor, at 0x2000, are
owned by the port or not. -/
def ethS (own : Bool) : State :=
  ({ on with eth := [(1, { en := true, promisc := true, link := 2, scanning := true, txSize := 1, txBase := 0x1000, rxSize := 1, rxBase := 0x2000 })] } : State).poke 0x1000
    (leBytes 8 0x4000 ++ leBytes 2 64 ++ leBytes 1 (b2n own)) |>.poke 0x2000 (leBytes 8 0x5000 ++ leBytes 2 1024 ++ leBytes 1 (b2n own))

theorem hyp_ethernet : (1 : Nat) < 2 ∧ (ethS true).reachable ethNode = true ∧ bit (1 : Word) 0 = true ∧ ((ethS true).ethPort 1).en = true ∧ ((ethS true).ethPort 1).scanning = true ∧
    ((ethS true).ethPort 1).link = 2 ∧ ((ethS true).ethDesc ((ethS true).ethPort 1).txDesc).map (fun l => (fld l 10 1).testBit 0 && inBulk (fld l 0 8) (fld l 8 2) && fld l 8 2 ≤ ethMax) = some true ∧
    ((ethS false).ethDesc ((ethS false).ethPort 1).txDesc).map (fun l => (fld l 10 1).testBit 0) = some false ∧
    (match (ethS true).readAcc (nodeHalf ethNode) 0x4000 64 with | .ok _ => true | .error _ => false) = true ∧ ((ethS true).ethPort 1).accepts (List.replicate 64 0) = true ∧
    ((ethS true).ethDesc ((ethS true).ethPort 1).rxDesc).map (fun l => (fld l 10 1).testBit 0) = some true ∧
    ({ ethS true with eth := [(1, { en := true, promisc := true, link := 2, rxBase := 0x10200000000 })] } : State).ethDesc
      (({ ethS true with eth := [(1, { en := true, promisc := true, link := 2, rxBase := 0x10200000000 })] } : State).ethPort 1).rxDesc = none ∧
    (1 : BitVec 2) ≠ 3 ∧ ((ethS true).ethPort 1).link ≠ (1 : BitVec 2).toNat := by decide +kernel

/-- The PCIe root port up, its interrupts going to Culm core 5. -/
def pcieS : State := { on with pcie := { on.pcie with en := true, link := 2 }, xintTgt := [(9, 0x15), (47, 0x15)] }

theorem hyp_pcie : pcieS.pcieUp = true ∧ inBulk (0x3000 : Word).toNat 8 = true ∧ (0x3000 : Word).toNat ≠ msiAddr ∧ (4096 : Nat) ≤ 4096 ∧
    (match pcieS.readAcc (nodeHalf pcieNode) (0x3000 : Word).toNat 4096 with | .ok _ => true | .error _ => false) = true ∧
    (sget 0 pcieS.xintTgt (16 + (31 : BitVec 32).toNat % 32)).testBit 4 = true ∧ (sget 0 pcieS.xintTgt 9).testBit 4 = true ∧ (5 : Nat) ≤ 5 ∧ (8 : Nat) ≤ 8 ∧
    pcieS.pcie.link ≠ (0 : BitVec 2).toNat := by decide +kernel

theorem hyp_culmInstructions : (withCulm (cthr 0) id).clearCulm c0 = true ∧ ((withCulm (cthr 0) id).ctx c0).level ≠ 2 ∧ ((withCulm (cthr 0) id).ctx c0).level = 0 ∧
    ((withCulm (cthr 0) (fun x => { x with xint := 1 })).culmCore (c0.unit - 1024)).xint ≠ 0 ∧ ((withCulm (cthr 0) id).culmCore (c0.unit - 1024)).xint = 0 ∧
    ((withCulm (cthr 0) id).culmCore (c0.unit - 1024)).timerAt = none ∧ isCacheable (((withCulm (cthr 0) id).reg c0 1).toNat / 64 * 64) = true ∧
    ((withCulm (cthr 2) id).clearCulm c0 = true ∧ ((withCulm (cthr 2) id).ctx c0).level = 2 ∧ (((withCulm (cthr 2) id).privilege c0).ctx c0).trapDue = none) ∧
    ((with0 (thr 2 0)).clearCompute t0 = true ∧ (((with0 (thr 2 0)).illegal t0).ctx t0).trapDue = none) := by decide +kernel

/-- Line 64 in memory's view and in Culm core 0's L2. -/
def lineS (x : CacheLine) : State := { withCulm (cthr 0) id with cache := [(64, x)] }

theorem hyp_culmCaches : isCacheable (64 * 64) = true ∧ (lineS {}).nodeRuns (0 / 4) = true ∧ ((lineS { present := true, l3 := some 1 }).line 64).present = true ∧
    (lineS { present := true, l3 := some 1 }).inL2 0 64 = false ∧ (lineS { present := true, l3 := some 1 }).inSide 0 64 = false ∧ ((lineS {}).culmCore 0).side.length < 16 ∧ ((lineS {}).culmCore 0).ctx.wait = none ∧
    (lineS { present := true, cores := [0] }).inL2 0 64 = true ∧ ((lineS { present := true, cores := [0] }).line 64).dirty = false ∧ ((lineS { present := true, cores := [0] }).line 64).cores.Nodup ∧
    (lineS { present := true, cores := [0] }).reachesLine 0 64 = true := by decide +kernel

/-- Culm node 3 as given. -/
def nodeS (x : CulmNode) : State := { onTime (fun t => { t with tb := 5000 }) with culmNodes := [(3, x)] }

theorem hyp_culmNodes : (3 : Nat) < 4 ∧ ((nodeS { st := 1 }).culmNode 3).st = 1 ∧ ((nodeS { st := 2 }).culmNode 3).st = 2 ∧ ((nodeS { mode := 3 }).culmNode 3).mode = 3 ∧ ((nodeS {}).culmNode 3).mode = 0 ∧
    (nodeS {}).reachable (culmNodeNode 3) = true ∧ (nodeS { st := 1 }).nodeRuns 3 = true ∧ (nodeS {}).loader.rel = none ∧
    ((nodeS { st := 1, period := 5 }).culmNode 3).wdogAt + 5 * 1000 ≤ (nodeS {}).time.tb ∧
    ((withCulm (cthr 0) (fun x => { x with tmr := 0 })).culmCore 0).timerAt = none ∧
    (({ withCulm (cthr 0) (fun x => { x with tmr := 9 }) with time := { on.time with tb := 9 } } : State).culmCore 0).tmr ≤ 9 ∧
    (({ nodeS { st := 3 } with loader := { on.loader with rel := some { culmRestart := true } } } : State).loader.rel.map (·.culmRestart)) = some true := by decide +kernel

/-! ## Stores and HBM -/

/-- A word of core 1's core local memory with a correctable, or an uncorrectable, error. -/
def clmWord : Nat := clmAddr 1 0x40

theorem hyp_storeErrors : on.storeOf clmWord = some (.clm 1, 0x40) ∧ on.storeOn (.clm 1) = true ∧ on.badWords.contains (on.unitKey clmWord) = false ∧
    ({ on with ceWords := [clmWord] } : State).ceWords.contains (on.unitKey clmWord) = true ∧ ({ on with badWords := [clmWord] } : State).badWords.contains (on.unitKey clmWord) = true ∧
    storeOk (.clm 1) = true ∧ on.ceWords.contains (storeCell (.clm 1) ((on.repair (.clm 1)).scrubAt % (storeBytes (.clm 1) / 8) * 8)) = false ∧ 0 < storeBanks (.clm 1) ∧ (on.repair (.clm 1)).bankUsed = false := by decide +kernel

theorem hyp_storeWorn : (({ on with repairs := [(.clm 1, { rows := [(storeBank (.clm 1) (on.unitKey clmWord - storeCell (.clm 1) 0), Config.rowOf (on.unitKey clmWord))] })] } : State).repair (.clm 1)).rows.contains
    (storeBank (.clm 1) (on.unitKey clmWord - storeCell (.clm 1) 0), Config.rowOf (on.unitKey clmWord)) = true := by
  have h : (({ on with repairs := [(.clm 1, { rows := [(storeBank (.clm 1) (on.unitKey clmWord - storeCell (.clm 1) 0), Config.rowOf (on.unitKey clmWord))] })] } : State).repair (.clm 1)).rows =
    [(storeBank (.clm 1) (on.unitKey clmWord - storeCell (.clm 1) 0), Config.rowOf (on.unitKey clmWord))] := rfl
  rw [h]
  simp

/-- Stacks in service. -/
def hbmS (ce : List Nat) (x : Stack) : State := { on with hbmStacks := (List.range 12).map (fun i => (i, { x with st := 2 })), ceWords := ce }

theorem hyp_hbmErrors : (0xC000000000 - 32 + 32 : Nat) ≤ 0xC000000000 ∧ (codewords 0x40 64).all (fun c => !(hbmS [] {}).unitBad c && !(hbmS [] {}).ceWords.contains ((hbmS [] {}).unitKey c)) = true ∧
    (hbmS [] {}).stackOn (((hbmS [] {}).hbmPlace 0x40).1 / 32) = true ∧ (hbmS [] {}).unitBad 0x40 = false ∧ (hbmS [(hbmS [] {}).unitKey 0x40] {}).ceWords.contains ((hbmS [(hbmS [] {}).unitKey 0x40] {}).unitKey 0x40) = true ∧
    (11 : Nat) < 12 ∧ (hbmS [] {}).stackOn 11 = true ∧ ((hbmS [] {}).stack 11).pcfail.testBit 0 = false ∧ ((hbmS [] { progress := 2 ^ 31 - 1 }).stack 11).progress + 1 = 2 ^ 31 ∧ (383 : Nat) < 384 ∧
    (hbmS [] {}).stackOn (383 / 32) = true ∧ ((hbmS [] {}).stack 11).st ≠ 0 ∧ (96 : Nat) < 256 := by decide +kernel

/-! ## Reliability -/

/-- A step in flight that is complete but for what a test changes. -/
def stepOf (n : Nat) (r : StepRec) : Step :=
  { serial := n, rec' := r, index := 0, iter := 0, args := [], commit := [], chain := 0, forksLeft := [], preHeld := [], preWait := [], live := [], digests := [], dmaDone := true,
    failed := false, replayDue := false, killed := [], testDue := false, faults := 0, mismatches := 0, blamed := [], spareFor := none, replayed := false, watched := true, watchLeft := [],
    mirrored := true, mirrorLeft := [], flushes := 0, blkufs := 0 }
/-- A module whose tiller 0 is as given, and one whose schedule context 0 there has the given steps in flight. -/
def tilS (x : Tiller) : State := { on with tillers := [(0, x)] }
def sqS (l : List Step) : State := tilS { sq := [(0, { st := .running, steps := l })] }

theorem hyp_spareTakesOver : on.clockOn (tillerHalf 0) = true ∧ ((tilS { takeover := some 15 }).tiller 0).takeover = some 15 ∧ (tilS { takeover := some 15 }).coreQuiet (0 * 16 + 15) = true ∧
    ({ tilS { takeover := some 15 } with cores := [(15, { mmaArray := some ⟨⟨0, 1, 2, false, false, 0, 0⟩, 0, 0, [], false, [], none⟩ })] } : State).coreQuiet (0 * 16 + 15) = false ∧
    on.inStep 1023 = false ∧ on.waitingForks (1023 / 16) (1023 % 16) = [] ∧ (on.core 1023).lastFault = none ∧ ({ on with cores := [(5, { lastFault := some 0 })] } : State).time.tb < 0 + 1000000000 ∧ on.spareFree 0 = true ∧
    (((sqS [{ stepOf 3 {} with replayDue := true, testDue := true }]).sq 0 0).steps.find? (fun x => x.replayDue && x.testDue)).isSome = true := by decide +kernel

/-- The mirror session 5 open, pairs 0 of tiller 0 mirrored. -/
def mirS (x : Pair) (l : List Step) : State :=
  { sqS l with tillers := [(0, { sq := [(0, { st := .running, steps := l })], pairs := [(0, x)] })],
               loader := { on.loader with rel := some ({ mirrorEn := true, sess := 5, pairs := [1] } : Reliability) }, sessions := [(5, { st := 1 })] }

theorem hyp_mirrors : (mirS { valid := true } []).loader.rel.map (·.mirrorEn) = some true ∧ ((mirS { valid := true } []).session 5).st = 1 ∧ (mirS { valid := true } []).mirrored 0 0 = true ∧
    ((mirS { valid := true } []).pair 0 0).valid = true ∧ ((mirS { valid := true } []).pair 0 0).mirrorCurrent = false ∧ ((mirS { valid := true } []).pair 0 0).background = 0 ∧
    (mirS { valid := true } []).commitMirrors 0 0 = false ∧ ((mirS { background := 1 } []).pair 0 0).background = 1 ∧ ((mirS { background := 2 } []).pair 0 0).background = 2 ∧
    (mirS { background := 2 } []).mirrorOff = false ∧ (mirS {} [{ stepOf 3 {} with mirrorLeft := [(0, true)] }]).sqOn 0 = true ∧
    (mirS {} [{ stepOf 3 {} with mirrorLeft := [(0, true)] }]).mayCommit ⟨0, 0, 3⟩ = true ∧ (∀ j, j < 8 → j ≠ 0 → ((mirS {} [{ stepOf 3 {} with mirrorLeft := [(0, true)] }]).sq 0 j).steps = []) ∧
    (mirS {} [{ stepOf 3 {} with watchLeft := [7] }]).mayCommit ⟨0, 0, 3⟩ = true := by decide +kernel

/-- Withdrawal allowed. -/
def wdrS (p : WdrPhase) : State := { onRel (fun r => { r with wdr := p, manifest := List.replicate 64 0 }) with loader := { on.loader with rel := some ({ withdrawEn := true } : Reliability) } }

theorem hyp_withdrawal : (wdrS .none).rel.st = 0 ∧ (wdrS .none).rel.wdr = .none ∧ (wdrS .none).rel.wdrDue = none ∧ (wdrS .none).loader.busy = false ∧ (wdrS .none).loader.rel.map (·.withdrawEn) = some true ∧
    (wdrS .draining).rel.wdr = .draining ∧ (wdrS .copying).rel.wdr = .copying ∧ (wdrS .copying).rel.wdrLost = false ∧ 4 ≤ (wdrS .copying).rel.manifest.length ∧
    (wdrS .closing).rel.wdr = .closing ∧ (wdrS .closing).loader.waiting = false ∧ (wdrS .closing).boot.rstBusy = false := by decide +kernel

/-- A report of node 3, and a log whose last entry merges with it. -/
def rep : Report := ⟨4, 1, 1, true, false, false, 3, 0, 0, 0⟩
theorem hyp_healthLog : rep.node < 100 ∧ (on.node rep.node).reports = [] ∧ on.time.resync.all (fun p => p.2 = 0) = true ∧ on.time.tb < 2 ^ 63 ∧
    (onRel (fun r => { r with head := 1, log := [(0, entryOf (word 0) rep)] })).mergeEntry (entryOf (word on.time.tb) rep) = some 0 ∧ on.mergeEntry (entryOf (word on.time.tb) rep) = none := by decide +kernel

/-! ## Scalar instructions and exceptions -/

/-- A request in flight of a thread: a store of 8 bytes, or what a test gives. -/
def reqOf (n : Nat) (t : Tid) (a : Word) : Req :=
  { id := n, group := n, acked := false, src := t, addr := a, kind := .store (leBytes 8 0x55), level := 2, credit := none, resp := none, back := [], session := none, scalar := true, dead := false }

theorem hyp_scalar : (with0 (thr 2 0)).clear t0 4 = true ∧ (with0 (thr 2 0)).clear t0 2 = true ∧
    ((with0 { thr 2 0 with g := [(1, 2 ^ 63), (2, 2 ^ 64 - 1)] }).reg t0 1 = -(2 ^ 63) ∧ (with0 { thr 2 0 with g := [(1, 2 ^ 63), (2, 2 ^ 64 - 1)] }).reg t0 2 = -1 ∧
      (with0 { thr 2 0 with g := [(1, 2 ^ 63), (2, 2 ^ 64 - 1)] }).clear t0 4 = true) := by decide +kernel

theorem hyp_loads : (with0 (thr 2 0)).noReqs t0 = true ∧
    (with0 (thr 2 0)).access t0 0 ((with0 (thr 2 0)).reg t0 1 + 0x40) 8 8 false = .go (.at' (clmAddr 0 0x1040) false) (with0 (thr 2 0)) ∧
    (with0 (thr 2 0)).access t0 2 ((with0 (thr 2 0)).reg t0 1 + 0x40) 8 8 false = .go (.at' 0x1040 false) (with0 (thr 2 0)) ∧
    isNear t0 (clmAddr 0 0x1040) = true ∧ (with0 (thr 2 0)).good (tidHalf t0) (clmAddr 0 0x1040) 8 = true ∧ isNear t0 0x1040 = false ∧ isOwn t0 (clmAddr 0 0x1040) = true ∧ isOwn t0 0x1040 = false ∧
    (with0 (thr 2 0)).creditStep t0 0x1040 8 = .plain := by
  refine ⟨by decide +kernel, rfl, rfl, by decide +kernel, by decide +kernel, by decide +kernel, by decide +kernel, by decide +kernel, by decide +kernel⟩

/-- The same with SEG3 in module 0x12, window 0 of the tiller open to its first 64 KiB by session 3. -/
def remS : State :=
  { with0 { thr 2 0 with segs := { (thr 2 0).segs with s3 := ⟨word (0x12 * 2 ^ 44), 0x100000⟩ } } with
    tillers := [(0, { windows := [(0, { w0 := word (1 + 0x12 * 2 ^ 44), w1 := word (16 * 4096 + 3 * 2 ^ 44) })] })] }
theorem hyp_loadRemote : remS.clear t0 4 = true ∧ remS.access t0 3 (remS.reg t0 1 + 0x40) 8 8 false = .go (.remote 0x12 3 0x1040) remS := by
  refine ⟨by decide +kernel, rfl⟩

theorem hyp_storeFull : let s := ({ with0 (thr 2 0) with reqs := (List.range 16).map (fun i => reqOf i t0 0x1000) } : State)
    s.clear t0 4 = true ∧ 16 ≤ s.postedCount t0 := by decide +kernel

theorem hyp_pushPop : let s := with0 (thr 2 0)
    (s.sp t0).toNat % 8 = 0 ∧ isOwn t0 (clmAddr 0 0x7FF8) = true ∧ s.good (tidHalf t0) (clmAddr 0 0x7FF8) 8 = true ∧ 8 ≤ (s.sp t0).toNat ∧ (s.sp t0).toNat + 8 ≤ (s.ctx t0).segs.s0.bound.toNat ∧
    clmAddr 0 0x7FF8 = (s.ctx t0).segs.s0.base.toNat + (s.sp t0).toNat - 8 ∧ (s.ctx t0).watchpoint (clmAddr 0 0x7FF8) 8 true = none ∧
    isOwn t0 (clmAddr 0 0x8000) = true ∧ s.good (tidHalf t0) (clmAddr 0 0x8000) 8 = true ∧ clmAddr 0 0x8000 = (s.ctx t0).segs.s0.base.toNat + (s.sp t0).toNat ∧ isNear t0 (clmAddr 0 0x8000) = true ∧
    (s.ctx t0).watchpoint (clmAddr 0 0x8000) 8 false = none ∧ (word (leNat (s.peek (clmAddr 0 0x8000) 8))).getLsbD 0 = false ∧
    (word (leNat ((s.poke (clmAddr 0 0x8000) [1]).peek (clmAddr 0 0x8000) 8))).getLsbD 0 = true ∧ (s.poke (clmAddr 0 0x8000) [1]).clear t0 2 = true := by decide +kernel

theorem hyp_accessFaults : let s := with0 { thr 2 0 with g := [(1, 0x1001), (2, 0x7FFFF8)] }
    s.clear t0 4 = true ∧ (s.reg t0 1 + 0x40).toNat % 8 ≠ 0 ∧ ((s.fault t0 8 0 (s.reg t0 1 + 0x40)).ctx t0).trapDue = none ∧ (s.reg t0 2 + 0x40).toNat % 8 = 0 ∧
    (segGet (s.ctx t0).segs 0).bound.toNat < (s.reg t0 2 + 0x40).toNat + 8 ∧ ((s.fault t0 9 0 (s.reg t0 2 + 0x40)).ctx t0).trapDue = none ∧ (s.ctx t0).watchpoint 0x1040 8 true = none ∧
    (s.reg t0 1).getLsbD 0 = true ∧ ((s.fault t0 8 0 (s.reg t0 1)).ctx t0).trapDue = none ∧ (s.reg t0 2).getLsbD 0 = false ∧
    ((with0 { thr 2 0 with g := [(31, 4)] }).sp t0).toNat % 8 ≠ 0 ∧ (((with0 { thr 2 0 with g := [(31, 4)] }).fault t0 0xA 0 4).ctx t0).trapDue = none ∧ (with0 { thr 2 0 with g := [(31, 4)] }).clear t0 4 = true := by decide +kernel

/-- Branch and long or short jump forms. -/
theorem hyp_controlFlow : let s := with0 (thr 2 0)
    (∀ c ∈ [Cond.eq, .ne, .lt, .ge, .ltu, .geu, .always], ({ len := .long, cond := c, ra := 1, rb := 2, off := 8 } : BranchOp).cond = c) ∧ decide (s.reg t0 1 = s.reg t0 1) = true ∧
    decide (s.reg t0 1 = s.reg t0 2) = false ∧ s.clear t0 (lenBytes .long) = true ∧ s.clear t0 (lenBytes .short) = true ∧ (s.ctx t0).twin = false := by decide +kernel

theorem hyp_fences : let s := ({ with0 (thr 2 0) with reqs := [reqOf 0 t0 0x1000] } : State)
    (with0 (thr 2 0)).fenceLeft t0 2 = [] ∧ s.clear t0 4 = true ∧ (∃ q ∈ s.fenceLeft t0 2, isNear t0 q.addr.toNat = false) := by
  refine ⟨by decide +kernel, by decide +kernel, _, List.mem_singleton.mpr rfl, by decide +kernel⟩

theorem hyp_special : (∃ v, (with0 (thr 2 0)).mmasFirst t0 0x20 ((with0 (thr 2 0)).sprRead t0 ((with0 (thr 2 0)).ctx t0).level 0x20) = .val v (with0 (thr 2 0))) ∧ ((with0 (thr 1 0)).ctx t0).level ≤ 1 ∧
    (with0 (thr 1 0)).clear t0 4 = true ∧ ((with0 (thr 0 0)).ctx t0).level = 0 ∧ (with0 (thr 0 0)).clear t0 4 = true ∧ (((with0 (thr 1 0)).illegal t0).ctx t0).trapDue = none ∧
    (0x200 : Nat) ≤ (0x7FF : BitVec 11).toNat ∧ (0x12 : Nat) ≤ (0x17 : BitVec 11).toNat ∧ (((with0 (thr 2 0)).privilege t0).ctx t0).trapDue = none := by
  refine ⟨⟨_, rfl⟩, ?_⟩
  decide +kernel

/-- Core 0's thread with exception descriptors of causes 6, 8, 0x14, 0x18, 0x19 and 0x1A, all of level 1 with a handler at 0x2000, level record
1 and gate 3 to level 1 open to level 2; the tables stand at 0x20000 of HBM, and level 1's SEG0 is core local memory with TOP 0x6000. -/
def xbase : Nat := 0x20000
def xdescBytes : List Byte := leBytes 8 0x2000 ++ [1, 1] ++ List.replicate 22 0
def levelBytes : List Byte :=
  leBytes 8 (clmAddr 0 0) ++ leBytes 8 0x80000 ++ leBytes 48 0 ++ leBytes 8 0x6000 ++ leBytes 8 0x400 ++ leBytes 8 0 ++ leBytes 8 0xFFFFFFFFFFF ++ leBytes 8 0 ++ leBytes 8 (2 ^ 64 - 1) ++ leBytes 16 0
def tables (s : State) (gl : Nat) : State :=
  [6, 8, 0x14, 0x18, 0x19, 0x1A].foldl (fun s c => s.poke (xbase + 32 * c) xdescBytes)
    ((s.poke (xbase + 0x800 + 128) levelBytes).poke (xbase + 0x1000 + 32 * 3) (leBytes 8 0x3000 ++ leBytes 20 0 ++ leBytes 1 gl ++ leBytes 1 5 ++ leBytes 2 0))
def tabled (c : Ctx) (k : Core) : State :=
  tables { on with cores := [(0, { k with ctx := [(0, c)], running := some 0, xdtb := word (xbase + 1), gdtb := word (xbase + 0x1000 + 1 + 7 * 2 ^ 44) })] } 1

theorem hyp_entry : let s := tabled (thr 1 0) {}
    s.clear t0 4 = true ∧ bit (s.xdtb t0) 0 = true ∧ (∀ c ∈ [6, 8, 0x14, 0x18, 0x19], s.descriptor t0 c = some ⟨0x2000, 1, false, 0⟩) ∧ (s.ctx t0).level ≤ 1 ∧ (s.ctx t0).level < 2 ∧
    ((s.ctx t0).saveSet (s.ctx t0).level).valid = false ∧ ((s.ctx t0).dbg.brkHalt = false) ∧ (with0 { thr 1 0 with dbg := { brkHalt := true } }).clear t0 4 = true := by decide +kernel

theorem hyp_gate : (match (tabled (thr 1 0) {}).gateCheck t0 3 with | .ok d => d.level == 1 && d.handler == 0x3000 | .error _ => false) = true ∧
    (match (tabled (thr 2 0) {}).gateCheck t0 3 with | .ok d => d.level == 1 | .error _ => false) = true ∧ (tabled (thr 2 0) {}).levelRec t0 1 = some levelBytes ∧
    64 ≤ (levelTop levelBytes 0).toNat ∧ (levelTop levelBytes 0).toNat ≤ (segsOf levelBytes).s0.bound.toNat ∧
    ((tabled (thr 2 0) {}).entryWrite t0 1 (segsOf levelBytes).s0 (levelTop levelBytes 0 - 64) (segsBytes (thr 2 0).segs)).isSome = true := by decide +kernel

theorem hyp_interrupts : ((tabled { thr 1 0 with dintPend := 8 } {}).ctx t0).xs1.valid = false ∧ lowestEvent ((tabled { thr 1 0 with dintPend := 8 } {}).ctx t0).dintPend = some 3 ∧
    ((tabled (thr 1 0) { deadlock := true }).core 0).deadlock = true ∧ (tabled { thr 1 0 with dintPend := 8 } {}).clear t0 4 = true ∧
    (tables (withCulm (cthr 1) (fun x => { x with xint := 4, xdtb := word (xbase + 1) })) 1).clear c0 4 = true ∧
    lowestEvent ((tables (withCulm (cthr 1) (fun x => { x with xint := 4, xdtb := word (xbase + 1) })) 1).culmCore 0).xint = some 2 ∧
    (tables (withCulm (cthr 1) (fun x => { x with xint := 4, xdtb := word (xbase + 1) })) 1).descriptor c0 0x1A = some ⟨0x2000, 1, false, 0⟩ := by decide +kernel

/-- Handlers about to return: to its own level, to level 2, and with a spilled save set. -/
theorem hyp_retx : let own := with0 { thr 1 0 with xs1 := { valid := true, plv := 1, pc := 0x80 } }
    let deep := (tabled { thr 1 0 with xs1 := { valid := true, plv := 2, pc := 0x80 } } {}).poke (xbase + 0x800 + 256) levelBytes
    let spill := with0 { thr 1 0 with xs1 := { valid := true, plv := 1, depth := 1, sp := 0x7000 } }
    own.clear t0 4 = true ∧ ((own.ctx t0).saveSet 1).valid = true ∧ ((own.ctx t0).saveSet 1).depth = 0 ∧ ((own.ctx t0).saveSet 1).plv = 1 ∧
    deep.clear t0 4 = true ∧ (match deep.restoredSegs t0 1 2 with | .ok _ => true | .error _ => false) = true ∧
    0 < ((spill.ctx t0).saveSet 1).depth ∧ (match spill.readAs t0 ((spill.ctx t0).segs.s0.base.toNat + ((spill.ctx t0).saveSet 1).sp.toNat) 48 with | .ok _ => true | .error _ => false) = true ∧
    (((with0 (thr 1 0)).raise t0 { faultAt (with0 (thr 1 0)) t0 4 1 0 with fixed := some 0 }).ctx t0).trapDue = none := by decide +kernel

/-! ## Threads, events and channels -/

/-- Core 0 with context 0 running and contexts 1 and 2 as given; other fields of the core as given. -/
def with12 (c c1 c2 : Ctx) (k : Core) : State := { on with cores := [(0, { k with ctx := [(0, c), (1, c1), (2, c2)], running := some 0 })] }
/-- A long load of 4 bytes, sign-extended, from g1 + 0x40 of segment 2, and one of 8 bytes. -/
def ld4 : MemOp := { len := .long, size := .b4, signed := true, reg := 3, base := 1, disp := 0x40, seg := 2 }
/-- Core 0's thread waiting for a command's data or for something else. -/
def waits (w : WaitFor) (i : Instr) : State := { on with cores := [(0, { ctx := [(0, { thr 2 0 with st := .waiting, wait := some ⟨w, i⟩ })] })] }

theorem hyp_dataReturn : (waits .data (.load t0 ld4)).takesData t0 = true ∧ ((waits .data (.load t0 ld4)).ctx t0).wait = some ⟨.data, .load t0 ld4⟩ ∧ (waits .data (.load t0 ld4)).noReqs t0 = true ∧
    ((waits .data (.load t0 ld4)).reg t0 1 + 0x40).toNat % 4 = 0 ∧ ((waits .data (.load t0 ld4)).reg t0 1 + 0x40).toNat + 4 ≤ (segGet ((waits .data (.load t0 ld4)).ctx t0).segs 2).bound.toNat ∧
    (waits .data (.load t0 ld4)).good (tidHalf t0) 0x1040 4 = true := by decide +kernel

/-- The same where segment 2 starts in a reserved range, at level 1 with descriptor 0xC. -/
def resv : State :=
  tables { on with cores := [(0, { ctx := [(0, { thr 1 0 with st := .waiting, wait := some ⟨.data, .load t0 ld4⟩, segs := { (thr 1 0).segs with s2 := ⟨0x60000000000, 0x100000⟩ } })], xdtb := word (xbase + 1) })] } 1 |>.poke (xbase + 32 * 0xC) xdescBytes

theorem hyp_dataReserved : resv.takesData t0 = true ∧ isCtl 0x60000001040 = false ∧ (wordsOf 0x60000001040 4).findSome? (resv.routeErr (tidHalf t0)) = some dReserved ∧
    resv.descriptor t0 0xC = some ⟨0x2000, 1, false, 0⟩ ∧ bit (resv.xdtb t0) 0 = true := by decide +kernel

/-- A posted store in flight, to HBM, and one that has failed. -/
def posts (r : Option (Nat × Word)) : State := { with0 (thr 2 0) with reqs := [{ reqOf 7 t0 0x3000 with resp := r }] }
theorem hyp_ack : (posts none).reqs = [reqOf 7 t0 0x3000] ∧ ((posts none).ctx t0).wait = none ∧ isCtl 0x3000 = false ∧ (posts none).needsCredit (some 0) 0x3000 8 = false ∧
    (posts none).good (tidHalf t0) 0x3000 8 = true ∧ (posts none).routeErr (tidHalf t0) 0x3000 = none ∧ ((posts (some (1, 0x3000))).ctx t0).deferred = none := by decide +kernel

/-- Culm core 0 waiting for line 64. -/
def misses (x : CacheLine) : State := { withCulm { cthr 0 with st := .waiting, wait := some ⟨.cacheLine 64, .nop c0⟩ } id with cache := [(64, x)] }
theorem hyp_fill : (misses {}).takesData c0 = true ∧ ((misses {}).ctx ⟨1024 + 0, 0⟩).wait = some ⟨.cacheLine 64, .nop c0⟩ ∧ ((misses {}).line 64).present = false ∧
    (match (misses {}).readAcc (nodeHalf (culmNodeNode (0 / 4))) (64 * 64) 64 with | .ok _ => true | .error _ => false) = true ∧
    ((misses { present := true, data := List.replicate 64 3, l3 := some 0 }).line 64).present = true := by decide +kernel

/-- Every context busy; context 1 ended with code 9, or still at work in generation 0; and context 1 at work waiting in JOIN for context 2. -/
def busy8 : State := { on with cores := [(0, { ctx := (List.range 8).map (fun k => (k, if k = 0 then thr 2 0 else { thr 2 0 with st := .ready })), running := some 0 })] }
theorem hyp_fork : (with0 (thr 2 0)).freeCtx 0 0 = some 1 ∧ busy8.freeCtx 0 0 = none ∧ busy8.clearCompute t0 = true ∧ (with0 (thr 2 0)).clearCompute t0 = true ∧
    (with0 { thr 2 0 with g := [(1, 0x1001)] }).clearCompute t0 = true ∧ (((with0 { thr 2 0 with g := [(1, 0x1001)] }).fault t0 8 0 0x1001).ctx t0).trapDue = none := by decide +kernel

/-- Core 0's context 0 with g1 the name of context 1 in generation 4, context 1 as given. -/
def joins (c1 : Ctx) : State := with12 { thr 2 0 with g := [(1, 4 * 256 + 1)] } c1 {} {}
theorem hyp_join : (joins { lastExit := some (4, 9) }).clearCompute t0 = true ∧ ((joins { lastExit := some (4, 9) }).ctx ⟨0, 1⟩).lastExit = some (4, 9) ∧ (joins {}).reg t0 1 = word (4 * 256 + 1) ∧
    ((joins { thr 2 0 with st := .ready, gen := 4 }).ctx ⟨0, 1⟩).gen = 4 ∧ ((joins { thr 2 0 with st := .ready, gen := 4 }).ctx ⟨0, 1⟩).lastExit = none ∧
    (with0 { thr 2 0 with g := [(1, 4 * 256)] }).reg t0 1 = word (4 * 256) := by decide +kernel

/-- Context 2 of core 0 about to exit; contexts 0 and 1 wait for it. -/
def t2 : Tid := ⟨0, 2⟩
def exits : State :=
  { on with cores := [(0, { ctx := [(0, { thr 2 0 with st := .waiting, wait := some ⟨.join 2 5 3, .join t0 3 1⟩ }), (1, { thr 2 0 with st := .waiting, wait := some ⟨.join 2 5 4, .join ⟨0, 1⟩ 4 1⟩ }), (2, { thr 2 0 with gen := 5 })], running := some 2 })] }
theorem hyp_exit : exits.clearCompute t2 = true ∧ exits.noReqs t2 = true ∧ (exits.core 0).mmasOf 2 = [] ∧ exits.waitingForks 0 0 = [] ∧ (exits.ctx t0).wait = some ⟨.join 2 (exits.ctx t2).gen 3, .join t0 3 1⟩ ∧
    ({ exits with reqs := [reqOf 1 t2 0x1000] } : State).posted t2 ≠ [] ∧ (((with0 (thr 2 0)).illegal t0).ctx t0).trapDue = none := by decide +kernel

/-- Slot 15 of core 0 comes to an end: the next turn is context 1's, which is READY. -/
def turns : State := with12 (thr 2 0) { thr 2 0 with st := .ready } {} { slot := 15, slotTbl := 1 }
theorem hyp_slotStart : turns.coreOpen 0 = true ∧ (turns.core 0).slotTblNext = none ∧ (turns.core 0).urgent = false ∧ (turns.core 0).owner 0 = some 1 ∧ (turns.ctx ⟨0, 1⟩).st = .ready ∧ (turns.core 0).running = some 0 := by decide +kernel

/-- A supervisor of core 0 with context 1 as given, CTX_SEL naming a register of it. -/
def super (c1 : Ctx) (r : Nat) : State := with12 (thr 1 0) c1 {} { ctxSel := word (1 + 16 * r) }
theorem hyp_supervisor : (super { thr 2 0 with st := .ready } 5).clearCompute t0 = true ∧ ((super { thr 2 0 with st := .ready } 5).ctx ⟨0, 1⟩).st ≠ .free ∧ (super {} 5).waitingForks 0 0 = [] ∧
    ((super { thr 2 0 with level := 1, st := .faulted, xs1 := { valid := true, plv := 1 } } 5).ctx ⟨0, 1⟩).st = .faulted ∧ ((super { thr 2 0 with st := .faulted, entered := some (1, 0x2000, 8) } 5).ctx ⟨0, 1⟩).entered = some (1, 0x2000, 8) ∧
    (super { thr 2 0 with st := .fenced } 5).ctxObject t0 = some ⟨0, 1⟩ ∧ (super {} 5).ctxObject t0 = none ∧ ((super {} 5).core 0).ctxSel.toNat / 16 % 4096 < 32 ∧
    (∀ p ∈ [(1, 0x11), (2, 0x21), (3, 0x31), (4, 0x41)], (word p.2).toNat / 16 % 8 = p.1 ∧ (word p.2).toNat % 8 = 1) := by decide +kernel

/-- Core 0's thread with events pending, and context 1 waiting for event 3. -/
def events (p : Word) (mail : Bool) (g : Word) : State :=
  with12 { thr 2 0 with g := [(1, g), (2, 5)] } { thr 2 0 with st := .waiting, wait := some ⟨.event 8 4, .waitev ⟨0, 1⟩ 4 1⟩ } {} { evPend := p, mailWake := mail }
theorem hyp_events : (events 0x30 false 0x20).clearCompute t0 = true ∧ lowestEvent (((events 0x30 false 0x20).core 0).evPend &&& (events 0x30 false 0x20).reg t0 1) = some 5 ∧
    ((events 0x30 false 2).core 0).evPend &&& (events 0x30 false 2).reg t0 1 = 0 ∧ ((events 0 true 2).core 0).mailWake = true ∧ (∀ k, k < 8 → ((with0 (thr 2 0)).ctx ⟨0, k⟩).st ≠ .waiting) ∧
    (events 0 false 8).reg t0 1 = word (2 ^ 3) ∧ ((events 0 false 8).core 0).waiter 3 = some (1, 4) := by decide +kernel

/-- EVINC toward counter 7 of tiller 63, by a node that may or may not send there. -/
def evincs (b : Bool) : State := { with0 { thr 2 0 with g := [(1, word (0x3FFF * 2 ^ 14 + 63 * 256 + 7)), (2, 5)] } with nodes := if b then [] else [(tidNode t0, { destLo := 0, destHi := 0 })] }
theorem hyp_evinc : (evincs true).clearCompute t0 = true ∧ ((evincs true).reg t0 1).toNat < 2 ^ 28 ∧ ((evincs true).reg t0 1).toNat / 2 ^ 14 = 0x3FFF ∧
    ((evincs true).node (tidNode t0)).permits (tillerNode 63) = true ∧ ((evincs true).node (tidNode t0)).waiting = [] ∧ ((evincs true).node (tidNode t0)).admits (planeOf (tidNode t0) (tillerNode 63)) = true ∧
    (evincs true).blocked (nodeHalf (tillerNode 63)) = false ∧ ((evincs false).node (tidNode t0)).permits (tillerNode 63) = false := by decide +kernel

/-- Every thread of core 0 waits. -/
def allWaits : State := waits (.event 2 3) (.waitev t0 3 1)
theorem hyp_watchdog : allWaits.coreOpen 0 = true ∧ (allWaits.core 0).twdogExp % 64 ≠ 0 ∧ (allWaits.core 0).twdogDone = false ∧ (allWaits.core 0).allWait = true ∧
    (allWaits.ctx ⟨0, 0⟩).wait = some ⟨.event 2 3, .waitev t0 3 1⟩ := by decide +kernel

theorem hyp_counterReached : ((with0 (thr 2 0)).evc 0 0 : Int) = 0 ∧ ((0 : Int) - (2 ^ 32 - 1 : Nat)) % 2 ^ 32 < 2 ^ 31 ∧ 2 ^ 31 ≤ ((0 : Int) - (7 : Nat)) % 2 ^ 32 ∧ ((with0 (thr 2 0)).reg t0 2).toNat % 2 ^ 32 = 7 := by decide +kernel

/-- Core 0's thread with endpoint 7 of tiller 0, the thread its receiver; g1 names it and g2 is a word count. -/
def chan (c : Ctx) (e : Endpoint) : State := { with0 { c with g := [(1, 7), (2, 3)] } with tillers := [(0, { eps := [(7, { e with valid := true })] })] }
/-- A request for a credit of it. -/
def asks (b : ChBody) (nb : Bool) : ChCredit := { t := t0, handle := 7, nb := nb, own := false, dead := false, body := b }
theorem hyp_channels : (chan (thr 2 0) {}).clearCompute t0 = true ∧ (chan (thr 2 0) {}).reg t0 1 = word (0 * 256 + 7) ∧ (chan (thr 2 0) {}).asked t0 7 = false ∧
    ((chan { thr 2 0 with chCredit := some 7, stage := [(0, 11), (5, 12)] } {}).ctx t0).chCredit = some (0 * 256 + 7) ∧ ((chan (thr 2 0) {}).ep 0 7).count = 0 ∧
    0 < ((chan (thr 2 0) { count := 1 }).ep 0 7).count ∧ (match (chan (thr 2 0) { count := 1 }).readAcc (tidHalf t0) (((chan (thr 2 0) { count := 1 }).ep 0 7).slotAt 0 0) 72 with | .ok _ => true | .error _ => false) = true ∧
    ((chan (thr 2 0) { owner := some t0 }).ep 0 7).owner = some t0 ∧ ((chan (thr 2 0) {}).ep 0 7).canSend t0 = true ∧ ((chan (thr 2 0) { count := 1 }).ep 0 7).canSend t0 = false ∧
    (chan (thr 2 0) {}).routeErr (tidHalf t0) (tmAddr 0 0) = none ∧ ((waits .channelCredit (.chsend t0 1 2)).ctx t0).wait = some ⟨.channelCredit, .chsend t0 1 2⟩ ∧
    (chan (thr 2 0) { promised := 1, qbase := 5 }).recvWaiter 0 7 = none ∧ (chan (thr 2 0) { promised := 1, qbase := 5 }).good (tillerHalf 0) (((chan (thr 2 0) { promised := 1, qbase := 5 }).ep 0 7).slotAt 0 0) 72 = true ∧
    on.reachable (tillerNode 63) = true ∧ (on.ep 63 255).valid = false ∧ (0x7EFF * 2 ^ 16 + 8 * 256) / 256 % 16 ≤ 8 ∧ ((0x7EFF * 2 ^ 16 + 8 * 256) / 2 ^ 16 % 2 ^ 15 + 2 ^ 8) * 128 ≤ 0x400000 := by decide +kernel

/-! ## Vectors -/

/-- A vector register with the given elements of `w` bits. -/
def vreg (w : Nat) (l : List Nat) : VecReg := BitVec.ofNat 1024 (l.foldr (fun x r => x + 2 ^ w * r) 0)
/-- A thread with vector registers 0 (the mask), 1, 2 and 3, and `FPM`. -/
def vthr (level : Nat) (fpm : Word) : Ctx :=
  { thr level 0 with fpm := fpm, v := [(0, 0x55), (1, vreg 32 [0x3F800000, 0x40490FDB, 0xC0000000, 0x7F800000, 0x7FC00000, 0x00000001, 0xFF7FFFFF, 0x3F000001]),
                               (2, vreg 32 [0x40000000, 0xBF800000, 0x00800000, 0xFF800000, 0x3F800000, 0x3F000000, 0x7F7FFFFF, 0x34000000]), (3, vreg 32 [1, 2, 3, 4, 5, 0x40400000])] }
def vf (et : ElemTy) (m : Bool) : VFmt := ⟨3, m, et, 1, 2⟩

theorem hyp_vector : (with0 (vthr 2 0)).clear t0 4 = true ∧ field ((with0 (vthr 2 0)).ctx t0).fpm 8 5 = 0 ∧ elemFp (vf .i32 true).et = false ∧ (elemFmt (vf .f32 false).et).isSome = true ∧ arithLegal .fma (vf .f32 false) = true ∧
    arithLegal .and (vf .f32 false) = false ∧ (vf .f32 false).masked = false ∧ (vf .f32 true).masked = true ∧ ({ vf .i8 false with va := 0, vb := 0 } : VFmt).va = 0 ∧ (((with0 (vthr 2 0)).illegal t0).ctx t0).trapDue = none ∧
    (fmt32.decode 0x7FC00000).isNan = true ∧ (∃ w ∈ [0x3F800000, 0x7F800000], (fmt32.decode w).isNan = true ∨ MxTy.e4m3 ≠ .e5m2 ∧ (fmt32.decode w).isInf = true) := by decide +kernel

/-- The thread with every floating-point trap on, at level 1 with descriptor 0x10: a sum of infinities traps. -/
def traps : State := (tabled (vthr 1 0x1F00) {}).poke (xbase + 32 * 0x10) xdescBytes
theorem hyp_fpTrap : traps.clear t0 4 = true ∧ traps.descriptor t0 0x10 = some ⟨0x2000, 1, false, 0⟩ ∧ bit (traps.xdtb t0) 0 = true ∧
    (flagsOf ((List.range 32).map (fun i => fpArith fmt32 .add 0 false (vget (traps.vreg t0 1) 32 i) (vget (traps.vreg t0 2) 32 i) 0)) % 32 &&& field (traps.ctx t0).fpm 8 5) ≠ 0 := by decide +kernel

/-- A vector memory form at g1 of segment `n`, its stride or index register 2 or 0. -/
def vm (n : BitVec 2) (m : Bool) (rb : BitVec 5) : VMem := { v := 3, masked := m, et := .i32, ra := 1, seg := n, rb := rb }
theorem hyp_vectorMemory : let s := with0 { vthr 2 0 with g := [(1, 0x1000), (2, 12)] }
    s.clear t0 4 = true ∧ s.noReqs t0 = true ∧ (s.ctx t0).sent = 0 ∧ (vm 0 false 0).rb = 0 ∧
    (∀ i ∈ List.range 32, (s.reg t0 1 + word (i * 4)).toNat % 4 = 0 ∧ (s.reg t0 1 + word (i * 4)).toNat + 4 ≤ (segGet (s.ctx t0).segs 0).bound.toNat ∧
      isNear t0 ((segGet (s.ctx t0).segs 0).base.toNat + (s.reg t0 1 + word (i * 4)).toNat) = true ∧ isNear t0 ((segGet (s.ctx t0).segs 2).base.toNat + (s.reg t0 1 + word (i * 4)).toNat) = false) ∧
    (∀ i ∈ (List.range 32).filter (active true (s.vreg t0 0)), s.good (tidHalf t0) ((segGet (s.ctx t0).segs 0).base.toNat + (s.reg t0 1 + word (i * 4)).toNat) 4 = true ∧
      s.creditStep t0 ((segGet (s.ctx t0).segs 0).base.toNat + (s.reg t0 1 + word (i * 4)).toNat) 4 = .plain ∧ (s.ctx t0).watchpoint ((segGet (s.ctx t0).segs 0).base.toNat + (s.reg t0 1 + word (i * 4)).toNat) 4 true = none) := by decide +kernel

theorem hyp_vectorMemoryFaults : let s := with0 { vthr 2 0 with g := [(1, 0x1002), (2, 12)] }
    s.clear t0 4 = true ∧ (s.velems t0 (vm 0 false 0) .unit).head?.map (fun p => p.2.toNat % 4) = some 2 ∧ ((s.fault t0 8 0 (s.reg t0 1)).ctx t0).trapDue = none ∧ (vm 0 false 2).rb ≠ 0 := by decide +kernel

/-! ## Tiles -/

/-- A tile of `r` rows and `c` columns in a format, its bytes counting up. -/
def tl (e r c : Nat) : Tile := { data := (List.range 64).map (fun i => (i, BitVec.ofNat 8 (i + 1))), rows := r, cols := c, efmt := e, hasScale := efmtMx e, scale := if efmtMx e then [(0, 7)] else [] }
/-- An INT8 MMA with M = N = 4 and K = 16: D in tile 2, A in tile 0, B in tile 1. -/
def mm : MmaOp := ⟨2, 0, 1, false, false, 0x3F, 4⟩
def acc : AccMma := ⟨mm, 0, 0, [], false, [], none⟩
/-- Core 0 with its thread, owning every tile, tiles 0 to 3 and 5 (block-scaled) as that MMA wants them; the engine as given. -/
def tiled (c : Ctx) (k : Core) : State :=
  { on with cores := [(0, { k with ctx := [(0, c)], running := some 0, town := 0, tiles := [(0, tl 7 4 16), (1, tl 7 16 4), (2, tl 2 4 4), (3, tl 7 4 16), (5, tl 9 4 64)] })] }

theorem hyp_mma : (tiled (thr 2 0) {}).clearCompute t0 = true ∧ ((tiled (thr 2 0) {}).core 0).accepted = [] ∧ mmaFmt mm.fmt.toNat = some ⟨7, 7, 2, 1024, 128⟩ ∧
    ((tiled (thr 2 0) {}).core 0).mmaFault 0 mm ⟨7, 7, 2, 1024, 128⟩ false = none ∧ 4 ≤ ((tiled (thr 2 0) { mmaQueue := [acc, acc, acc, acc] }).core 0).accepted.length ∧
    (∀ x ∈ ((tiled (thr 2 0) { mmaQueue := [acc, acc, acc, acc] }).core 0).accepted, x.empties = []) ∧ ((with0 (thr 2 0)).core 0).mmaFault 0 mm ⟨7, 7, 2, 1024, 128⟩ false = some (2, 1) ∧
    (((with0 (thr 2 0)).fault t0 0xE (2 * 16 + 1) 0).ctx t0).trapDue = none ∧ mmaFmt ({ mm with fmt := 0x12 } : MmaOp).fmt.toNat = none ∧ (∀ mask, ((with0 (thr 2 0)).core 0).gang ≠ some (mask, 0)) ∧
    (((with0 (thr 2 0)).fault t0 0xF 1 0).ctx t0).trapDue = none := by
  refine ⟨by decide +kernel, by decide +kernel, by decide +kernel, by decide +kernel, by decide +kernel, by decide +kernel, by decide +kernel, by decide +kernel, by decide +kernel, ?_, by decide +kernel⟩
  intro mask h
  cases h

/-- Cores 0 and 1 in a gang; core 1 waits in MMA.G, or both MMAs stand at the heads of their queues. -/
def ganged (q : List AccMma) : State :=
  { on with cores := [(0, { ctx := [(0, thr 2 0)], running := some 0, town := 0, gang := some (3, 0), mmaQueue := q, tiles := [(0, tl 7 4 16), (1, tl 7 16 4), (2, tl 2 4 4)] }),
                      (1, { ctx := [(0, { thr 2 1 with st := .waiting, wait := some ⟨.gangMma, .mmaG ⟨1, 0⟩ mm⟩ })], town := 0, gang := some (3, 0), mmaQueue := q, tiles := [(0, tl 7 4 16), (1, tl 7 16 4), (2, tl 2 4 4)] })] }
theorem hyp_gang : (ganged []).clearCompute t0 = true ∧ ((ganged []).core 0).gang = some (3, 0) ∧ (ganged []).gangMembers 0 = [t0, ⟨1, 0⟩] ∧ (ganged []).gangWaits ⟨1, 0⟩ = some mm ∧
    (∀ x ∈ (ganged []).gangMembers 0, ((ganged []).core x.unit).mmaOpen = true) ∧
    (∀ p ∈ ((ganged []).gangMembers 0).zipIdx, ((ganged []).core p.1.unit).mmaFault p.1.ctx mm ⟨7, 7, 2, 1024, 128⟩ (((ganged []).gangMembers 0).length = 2 && p.2 = 1) = none) ∧
    (∀ c ∈ [0, 1], ((ganged [{ acc with gang := [0, 1] }]).core c).startable [0, 1] = true) := by decide +kernel

/-- A thread that waits for room in an open queue; an MMA at the head of the queue, and on the array. -/
def waitsRoom : State := { on with cores := [(0, { ctx := [(0, { thr 2 0 with st := .waiting, wait := some ⟨.mmaRoom, .mma t0 mm⟩ })] })] }
theorem hyp_mmaEvents : waitsRoom.coreOpen 0 = true ∧ (waitsRoom.core 0).mmaOpen = true ∧ (waitsRoom.core 0).roomWaiters ≠ [] ∧ ((tiled (thr 2 0) { mmaQueue := [acc] }).core 0).mmaArray = none ∧
    ((tiled (thr 2 0) { mmaArray := some acc }).core 0).mmaArray = some acc ∧ (((tiled (thr 2 0) { mmaArray := some acc }).core 0).tile 2).cols = (mmaMnk mm ⟨7, 7, 2, 1024, 128⟩).2.1 ∧
    (((tiled (thr 2 0) { mmaArray := some acc }).core 0).tile 2).efmt = 2 := by decide +kernel

/-- The layout of 4 rows of 16 bytes of INT8, and of 4 rows of 64 columns of an MX format. -/
def lay : Word := word (4 + 16 * 2 ^ 12 + 7 * 2 ^ 24)
/-- The tile instructions' thread: g1 an address, g2 a stride of 16 and that layout, g3 row 2, g4 an address of HBM's segment. -/
def tthr : Ctx := { thr 2 0 with g := [(1, 0x2000), (2, word (16 * 2 ^ 32) + lay), (3, 2), (4, lay)], v := [(7, 0x1122)] }
theorem hyp_tiles : let s := tiled tthr {}
    s.clearCompute t0 = true ∧ (s.core 0).owns 0 0 = true ∧ (s.core 0).tileBusy 0 true = false ∧ layoutOf lay = some (4, 16, 7) ∧ layoutOf 0 = none ∧ ((s.core 0).tile 0).isEmpty = false ∧ ((s.core 0).tile 0).part = false ∧
    (s.reg t0 3).toNat < ((s.core 0).tile 0).rows ∧ (s.reg t0 2).toNat % 2 ^ 32 = lay.toNat ∧ (s.reg t0 2).toNat / 2 ^ 32 = 16 ∧
    (∀ k, k < 4 → (s.reg t0 1 + word (k * 16)).toNat + 16 ≤ (segGet (s.ctx t0).segs 0).bound.toNat ∧ (s.ctx t0).watchpoint ((segGet (s.ctx t0).segs 0).base.toNat + (s.reg t0 1 + word (k * 16)).toNat) 16 false = none ∧
      isNear t0 ((segGet (s.ctx t0).segs 0).base.toNat + (s.reg t0 1 + word (k * 16)).toNat) = true ∧ isOwn t0 ((segGet (s.ctx t0).segs 0).base.toNat + (s.reg t0 1 + word (k * 16)).toNat) = true ∧
      s.good (tidHalf t0) ((segGet (s.ctx t0).segs 0).base.toNat + (s.reg t0 1 + word (k * 16)).toNat) 16 = true ∧
      isOwn t0 ((segGet (s.ctx t0).segs 2).base.toNat + (s.reg t0 1 + word (k * 16)).toNat) = false ∧ s.creditStep t0 ((segGet (s.ctx t0).segs 2).base.toNat + (s.reg t0 1 + word (k * 16)).toNat) 16 = .plain) ∧
    isNear t0 ((segGet (s.ctx t0).segs 2).base.toNat + (s.reg t0 1).toNat) = false ∧ efmtMx ((s.core 0).tile 5).efmt = true ∧ ((s.core 0).tile 5).hasScale = true ∧
    s.good (tidHalf t0) (clmAddr 0 0x2000) 8 = true ∧ (∀ i, i < 8 → ∀ j, j < 8 → i < j → s.cellOf (clmAddr 0 0x2000 + i) ≠ s.cellOf (clmAddr 0 0x2000 + j)) ∧
    ((tiled tthr { mmaQueue := [acc] }).core 0).accepted.any (fun x => x.op.td = (2 : TReg)) = true ∧ ((with0 tthr).core 0).owns 0 15 = false := by decide +kernel

theorem hyp_scaleAccess : (tiled tthr {}).access t0 0 ((tiled tthr {}).reg t0 1) (((tiled tthr {}).core 0).tile 5).scaleBytes 1 true = .go (.at' (clmAddr 0 0x2000) false) (tiled tthr {}) := rfl

/-- Core 0's thread with g3 = 3, core 1's waiting in GANG for the same mask. -/
def forms : State :=
  { on with cores := [(0, { ctx := [(0, { thr 2 0 with g := [(3, 3)] })], running := some 0 }), (1, { ctx := [(2, { thr 2 1 with st := .waiting, wait := some ⟨.gang 3, .gang ⟨1, 2⟩ 3⟩ })] })] }
theorem hyp_gangForms : forms.clearCompute t0 = true ∧ (forms.reg t0 3).toNat ∈ [3, 5, 6, 9, 10, 12, 15] ∧ (forms.core 0).gangWaiter 3 = none ∧ (forms.core 1).gangWaiter 3 = some 2 ∧ (forms.core 0).gang = none ∧
    ((forms.core 0).mmasOf 0 = []) ∧ ((tiled (thr 2 0) { mmaQueue := [acc] }).core 0).mmasOf 0 ≠ [] ∧ (((with0 (thr 2 0)).fault t0 0xF 4 0).ctx t0).trapDue = none ∧ (forms.reg t0 1).toNat ∉ [3, 5, 6, 9, 10, 12, 15] := by decide +kernel

/-! ## Stores, accumulation and credits -/

/-- Core 0's thread with slot 1 naming inbox 3 of tiller 1, 4 KiB of core 20's local memory, as given; g1 and g2 are addresses, g3 an operand, g4 the inbox. -/
def credT (x : CreditSlot) : Ctx :=
  { thr 2 0 with g := [(1, word (clmAddr 20 0)), (2, 0x1000), (3, 9), (4, word (64 + 3))], segs := { (thr 2 0).segs with s1 := ⟨0, 0xFFFFFFFFFFF⟩ }, crs := [(1, { x with tiller := 1, inbox := 3, valid := true })] }
def credS (x : CreditSlot) (b : Inbox) : State := { with0 (credT x) with tillers := [(1, { inboxes := [(3, { b with valid := true, store := 0, core := 4, base := 0, length := 64 })] })] }
theorem hyp_aow : (credS { range := some (clmAddr 20 0, clmAddr 20 0x1000), held := 2, gen := 5 } {}).clearCompute t0 = true ∧
    (credS { range := some (clmAddr 20 0, clmAddr 20 0x1000), held := 2, gen := 5 } {}).creditStep t0 (clmAddr 20 0) 8 = .held 1 ∧ (credS {} {}).creditStep t0 0x1000 8 = .plain ∧
    (credS { range := some (clmAddr 20 0, clmAddr 20 0x1000), n := 4 } {}).creditStep t0 (clmAddr 20 0) 8 = .wait 1 true ∧ (with0 (thr 2 0)).creditStep t0 (clmAddr 20 0) 8 = .exc 3 ∧
    (((with0 (thr 2 0)).fault t0 0x12 3 (word (clmAddr 20 0))).ctx t0).trapDue = none ∧ (credS {} {}).postedCount t0 < 16 := by decide +kernel
theorem hyp_aowAccess : (credS {} {}).access t0 1 ((credS {} {}).reg t0 1 + (0 : BitVec 9).signExtend 64 * 8) 8 8 true = .go (.at' (clmAddr 20 0) false) (credS {} {}) := rfl

theorem hyp_creditSteps : inboxTiller 0x1000 = none ∧ inboxTiller (clmAddr 0 0x40) = some (0, some 0) ∧ inboxTiller (clmAddr 20 0) = some (1, some 20) ∧ (some 20 : Option Nat) ≠ some 0 ∧ (∀ k, k < 4 → (((with0 (thr 2 0)).ctx t0).slot k).valid = false) := by decide +kernel

/-- A request in flight to a place: an AOW or a store, with its credit. -/
def flies (a : Nat) (k : ReqKind) (cr : Option (Nat × Nat)) (b : Inbox) : State := { credS {} b with reqs := [{ reqOf 7 t0 (word a) with kind := k, credit := cr }] }
theorem hyp_perform : let s := flies (clmAddr 20 0) (.store (leBytes 8 5)) (some (67, 5)) { gen := 5, auto := true }
    s.up = true ∧ s.reqs.find? (fun q => q.id = 7) = s.reqs.head? ∧ s.reqsUpTo { reqOf 7 t0 (word (clmAddr 20 0)) with kind := .store (leBytes 8 5), credit := some (67, 5) } = s.reqs ∧
    isCtl (clmAddr 20 0) = false ∧ s.routeErr (tidHalf t0) (clmAddr 20 0) = none ∧ s.needsCredit (some 0) (clmAddr 20 0) 8 = true ∧ s.good (tidHalf t0) (clmAddr 20 0) 8 = true ∧ (∀ i, i < 8 → s.unitBad (clmAddr 20 0 + i) = false) ∧
    (s.inboxesOver 1 (clmAddr 20 0) 8).find? (fun i => ((s.inbox 1 i).range 1).1 ≤ clmAddr 20 0 && clmAddr 20 0 + 8 ≤ ((s.inbox 1 i).range 1).2) = some 3 ∧ (s.inbox 1 3).gen = 5 ∧ (s.inbox 1 3).waiters = [] ∧
    s.needsCredit (some 0) (clmAddr 20 0x2000) 8 = true ∧ s.needsCredit (some 0) 0x1000 8 = false ∧ inStore (clmAddr 20 0) = true ∧ inStore 0x1000 = false ∧ (∃ o, locOf 0x1000 = .hbm o) := by
  refine ⟨by decide +kernel, by decide +kernel, by decide +kernel, by decide +kernel, by decide +kernel, by decide +kernel, by decide +kernel, by decide +kernel, by decide +kernel, by decide +kernel, by decide +kernel,
    by decide +kernel, by decide +kernel, by decide +kernel, by decide +kernel, 0x1000, by decide +kernel⟩

theorem hyp_creditCommands : inboxHandle ((credS {} {}).reg t0 4) = some (1, 3) ∧ ((credS {} {}).ctx t0).slotOf 1 3 = some 1 ∧ ((with0 (thr 2 0)).ctx t0).slotOf 0 7 = none ∧ inboxHandle ((with0 (thr 2 0)).reg t0 2) = some (0, 7) ∧
    ((credS {} {}).inbox 1 3).valid = true ∧ ((credS {} {}).inbox 1 3).waiters = [] ∧ (((credS {} {}).fault t0 0x12 5 67).ctx t0).trapDue = none ∧ (1 : Nat) ≠ tidTiller t0 ∧ 2 ^ 12 ≤ ((with0 (thr 2 0)).reg t0 1).toNat := by decide +kernel

/-- The same with inbox 7 of tiller 0, core 0's own. -/
def ownBox : State := { with0 (thr 2 0) with tillers := [(0, { inboxes := [(7, { valid := true, core := 0, avail := 65530 })] })] }
theorem hyp_creditReturn : ownBox.clearCompute t0 = true ∧ inboxHandle (ownBox.reg t0 2) = some (tidTiller t0, 7) ∧ (ownBox.inbox 0 7).core = t0.unit % 16 ∧ (ownBox.inbox 0 7).waiters = [] := by decide +kernel

/-- A message between slot 1 and that inbox. -/
def cmsg (b : CreditBody) : CreditMsg := ⟨t0, 1, 0, 3, 1, b⟩
def msgS (x : CreditSlot) (b : Inbox) (m : CreditBody) : State := { credS x b with creditMsgs := [cmsg m] }
theorem hyp_creditMessages : (msgS {} { avail := 3 } (.request 5)).creditMsgs.find? (fun m => m.t = t0 && m.slot = 1 && m.body.isRequest) = some (cmsg (.request 5)) ∧ (msgS {} { avail := 3 } (.request 5)).routeErr (tidHalf t0) (tmAddr 1 0) = none ∧
    ((msgS {} { avail := 3 } (.request 5)).inbox 1 3).avail ≠ 0 ∧ ((msgS {} {} (.request 5)).inbox 1 3).avail = 0 ∧ (msgS {} {} (.grant 3 5 none)).creditMsgs.find? (fun m => m.t = t0 && m.slot = 1 && !m.body.isRequest) = some (cmsg (.grant 3 5 none)) ∧
    (((msgS {} {} (.grant 3 5 none)).ctx t0).slot 1).valid = true ∧ (((msgS {} {} (.grant 3 5 none)).ctx t0).slot 1).seq = (cmsg (.grant 3 5 none)).seq ∧ ((msgS {} {} (.error 4)).ctx t0).wait = none ∧
    on.reachable (tillerNode 63) = true ∧ (on.inbox 63 63).waiters = [] := by decide +kernel

/-! ## DMA -/

/-- A copy of `n` bytes between parts of tiller memory 0, FENCE on, with its operation's other bits, credit word and DONE word. -/
def dmaOp (op n cred done : Nat) : List Byte :=
  leBytes 2 (0x200 + op) ++ leBytes 2 0xFFFF ++ leBytes 4 0 ++ leBytes 8 (tmAddr 0 0x1000) ++ leBytes 8 (tmAddr 0 0x2000) ++ leBytes 4 n ++ leBytes 8 0 ++ leBytes 4 cred ++ leBytes 8 0 ++ leBytes 4 done ++ leBytes 12 0
/-- Core 0's thread with a descriptor at 0x1000 of its local memory: g1 its address, g2 a channel, g5 that address plus 8; channel 5 as given. -/
def dmaT (lvl : Nat) (sel : Word) : Ctx := { thr lvl 0 with g := [(1, word (clmAddr 0 0x1000)), (2, sel), (3, 1), (4, 0), (5, word (clmAddr 0 0x1008)), (6, 0x1000), (7, 2)] }
def dmaS (lvl : Nat) (sel : Word) (op : Nat) (x : DmaChan) : State :=
  ({ on with cores := [(0, { ctx := [(0, dmaT lvl sel)], running := some 0, dma := [(5, x)] })] } : State).poke (clmAddr 0 0x1000) (dmaOp op 256 0 0)

theorem hyp_dmstart : let s := dmaS 2 5 0 {}
    s.clearCompute t0 = true ∧ (s.ctx t0).twin = false ∧ chSelect t0 (s.reg t0 2) = some (.core 0 5) ∧ isNear t0 (s.reg t0 1).toNat = true ∧ s.good (tidHalf t0) (s.reg t0 1).toNat 64 = true ∧ s.noReqs t0 = true ∧
    s.chMine t0 (.core 0 5) = true ∧ (s.chan (.core 0 5)).st = .idle ∧ (s.chan (.core 0 5)).en = true ∧ (s.reg t0 1).toNat % 64 = 0 ∧ s.descCheck (.core 0 5) (some (s.ctx t0).segs) (s.reg t0 1).toNat (descOf (s.peek (s.reg t0 1).toNat 64)) = none ∧
    (s.chan (.core 0 5)).runs = [] ∧ 0 < (descOf (s.peek (s.reg t0 1).toNat 64)).halfUnits ((descOf (s.peek (s.reg t0 1).toNat 64)).units []) ∧ isNear t0 (s.reg t0 6).toNat = false := by decide +kernel

theorem hyp_dmstartRefused : ((dmaS 2 5 0 {}).fault t0 0x13 5 0 |>.ctx t0).trapDue = none ∧ (dmaS 2 40 0 {}).chMine t0 (.tiller 0 8) = false ∧ chSelect t0 40 = some (.tiller 0 8) ∧ ((dmaS 2 5 0 { st := .running }).chan (.core 0 5)).st ≠ .idle ∧
    ((dmaS 2 5 0 { en := false }).chan (.core 0 5)).en = false ∧ ((dmaS 2 5 0 {}).reg t0 5).toNat % 64 ≠ 0 ∧
    (dmaS 2 5 0x800 {}).descCheck (.core 0 5) (some (dmaT 2 5).segs) (clmAddr 0 0x1000) (descOf ((dmaS 2 5 0x800 {}).peek (clmAddr 0 0x1000) 64)) = some 5 ∧ 2 ^ 6 ≤ ((dmaS 2 64 0 {}).reg t0 2).toNat := by decide +kernel

/-- Tiller 0's channel 17, the supervisor's, with a descriptor in tiller memory; and a channel at work on it. -/
def dcopy (op cred done : Nat) : Desc := descOf (dmaOp op 256 cred done)
def tch : ChanRef := .tiller 0 17
def tdma (x : DmaChan) (op cred done : Nat) : State := (tilS { dch := [(17, x)] }).poke (tmAddr 0 0x4000) (dmaOp op 256 cred done)
theorem hyp_dchCommands : chOk tch = true ∧ (tdma {} 0 0 0).reachable (tillerNode (chTiller tch)) = true ∧ (tdma {} 0 0 0).chOwner tch = owSup ∧ ((tdma {} 0 0 0).chan tch).st = .idle ∧ (tdma {} 0 0 0).good (chHalf tch) (tmAddr 0 0x4000) 64 = true ∧
    (tdma {} 0 0 0).descCheck tch none (tmAddr 0 0x4000) (descOf ((tdma {} 0 0 0).peek (tmAddr 0 0x4000) 64)) = none ∧ (tdma {} 0 0 0).chOwner (.tiller 0 3) ≠ owSup ∧ ((tdma { en := false } 0 0 0).chan tch).en = false ∧
    ((tdma { st := .draining } 0 0 0).chan tch).st = .draining := by decide +kernel

/-- The channel running that copy, its four writes of 64 bytes issued as given. -/
def running (op cred done : Nat) (x : DmaChan) (r : DescRun) : State :=
  tdma { x with st := .running, serial := 1, runs := [{ r with serial := 0, desc := dcopy op cred done }] } op cred done
theorem hyp_burstIssue : let s := running 0 0 0 {} {}
    engOk (.tiller 0) = true ∧ tch ∈ engChans (.tiller 0) ∧ s.engOn tch = true ∧ (∀ c' ∈ engChans (.tiller 0), c' ≠ tch → (s.chan c').st ≠ .running) ∧ ((s.chan tch).nextUnit).isSome = true ∧ (s.chan tch).prio < 4 ∧
    (s.chan tch).bursts.all (fun b => !b.left && !b.read) = true ∧ s.dmaReady tch = true ∧ (dcopy 0 0 0).credits = 0 ∧
    (∀ u0 ∈ ((s.chan tch).nextUnit.map Prod.snd).toList, u0.src.any (fun p => p.1.isSome) = true ∧ (∀ p ∈ u0.dst, s.reaches tch 0xFFFF none p.1 p.2 = true) ∧ ∀ p ∈ u0.src, s.reaches tch 0xFFFF none (p.1.getD 0) p.2 = true) ∧
    (((running 0 (7 + 4096) 0 { box := some 7 } {}).chan tch).box = some (dcopy 0 (7 + 4096) 0).inbox ∧ ((running 0 (7 + 4096) 0 { box := some 7 } {}).chan tch).held < 2) := by decide +kernel

/-- A burst of that copy: its read is out, or its write is. -/
def burst (b : Bool) : Burst := { id := 1, desc := 0, src := [(some (tmAddr 0 0x1000), 256)], dst := [(tmAddr 0 0x2000, 256)], data := if b then List.replicate 256 7 else [], read := b, left := b }
theorem hyp_readReturn : let s := running 0 0 0 { bursts := [burst false] } {}
    (s.chan tch).bursts.find? (fun b => !b.read) = some (burst false) ∧ s.readBack (burst false) = true ∧ s.dmaLocal (tmAddr 0 0x1000) = some (tmAddr 0 0x1000) ∧ s.good (chHalf tch) (tmAddr 0 0x1000) 256 = true ∧
    ((tdma { st := .draining, bursts := [{ burst false with dead := true }] } 0 0 0).chan tch).runs = [] := by decide +kernel

theorem hyp_writeAck : let s := running 0x800 0 (2 ^ 20 + 3 * 2 ^ 17) { bursts := [burst true] } { issued := 1, left := 1, halfDone := true }
    (s.chan tch).bursts.find? Burst.left = some (burst true) ∧ ((s.chan tch).runOf 0).isSome = true ∧ s.dmaLocal (tmAddr 0 0x2000) = some (tmAddr 0 0x2000) ∧ s.good (chHalf tch) (tmAddr 0 0x2000) 256 = true ∧
    (∀ q ∈ cutAt 128 (tmAddr 0 0x2000) 256, s.needsCredit none q.1 q.2 = false) ∧ (dcopy 0x800 0 (2 ^ 20 + 3 * 2 ^ 17)).aow = false ∧ (dcopy 0x800 0 (2 ^ 20 + 3 * 2 ^ 17)).fullInt = true ∧ (dcopy 0x800 0 (2 ^ 20 + 3 * 2 ^ 17)).fence = true ∧
    ((dcopy 0x800 0 (2 ^ 20 + 3 * 2 ^ 17)).units []).length = 1 := by decide +kernel

theorem hyp_drainAndGrant : ((tdma { st := .draining } 0 0 0).chan tch).bursts = [] ∧ ((tdma { st := .waitCredit, creditMsg := [(7, 3, 0, 0)], box := some 7, creditAsked := true } 0 0 0).chan tch).creditMsg = [(7, 3, 0, 0)] ∧
    (tdma { st := .draining } 0 0 0).engOn tch = true := by decide +kernel

/-! ## The sequencer -/

/-- A step record: step 9, any context, PC 0x100, sp 0x8000, arguments at 0x300, commit list at 0x400, DMA channel 0. -/
def srec (op cores rep dl lp : Nat) : List Byte :=
  leBytes 4 9 ++ leBytes 2 op ++ leBytes 2 cores ++ leBytes 1 0 ++ leBytes 1 rep ++ leBytes 6 0 ++ leBytes 4 0x100 ++ leBytes 4 0x8000 ++ leBytes 4 0x300 ++ leBytes 4 0x400 ++ leBytes 8 dl ++ leBytes 16 0 ++ leBytes 8 lp
/-- Tiller 0 running a schedule whose record 0 is given, with its argument words and a commit list of one FLIP; core 1's contexts are free. -/
def sched (x : SqCtx) (r : List Byte) : State :=
  (((tilS { sq := [(0, { x with st := .running, baseNow := tmAddr 0 0x10000, maxNow := 2 })], pairs := [(5, { valid := true, base := 0x2000, size := 64 })] }).poke (tmAddr 0 0x10000) r).poke (tmAddr 0 0x300)
    ((List.range 8).flatMap (fun i => leBytes 8 (i + 1)))).poke (tmAddr 0 0x400) (leBytes 8 1 ++ leBytes 8 (1 + 5 * 2 ^ 8))
/-- Whether a result is one, and whether it is the error `e`. -/
def good {α : Type} (r : Except Nat α) : Bool := match r with | .ok _ => true | .error _ => false
def errs {α : Type} (r : Except Nat α) (e : Nat) : Bool := match r with | .ok _ => false | .error n => n == e

theorem hyp_stepIssue : let s := sched {} (srec 0x71 6 0 0 (3 * 2 ^ 16)); let d := sched {} (srec 2 0 0 (tmAddr 0 0x4000) 0)
    s.sqOn 0 = true ∧ s.sqTurn 0 = some 0 ∧ good (s.nextRec 0 0) = true ∧ (∀ r ∈ (s.nextRec 0 0).toOption.toList, good (s.readArgs 0 0 r) = true ∧ good (s.readCommit 0 r) = true ∧ good (s.readChain 0 r) = true ∧ r.dma = false ∧
      r.pregrant = 0 ∧ r.dup = false ∧ r.thread = true ∧ r.cores.getLsbD 1 = true ∧ s.coreOpen 1 = true ∧ s.freeCtx 1 r.ctx = some 1) ∧ (s.sq 0 0).steps = [] ∧
    d.sqTurn 0 = some 0 ∧ (∀ r ∈ (d.nextRec 0 0).toOption.toList, r.dma = true ∧ r.thread = false ∧ d.chOwner (.tiller 0 r.dmaCh) = owSeq ∧ (d.chan (.tiller 0 r.dmaCh)).runs = []) ∧
    (let e := d.poke (tmAddr 0 0x4000) (dmaOp 0 256 0 0); good (e.startCheck (.tiller 0 0) (tmAddr 0 0x4000) none (e.readDesc (tillerHalf 0) (tmAddr 0 0x4000))) = true) ∧
    errs ((sched {} (srec 0x71 0 0 0 0)).nextRec 0 0) 1 = true ∧ (sched {} (srec 0x71 0 0 0 0)).sqTurn 0 = some 0 := by decide +kernel

theorem hyp_stepIssueBad : let s := (sched {} (srec 0x11 2 0 0 0)).poke (tmAddr 0 0x10000 + 46) [1]
    s.sqTurn 0 = some 0 ∧ (∀ r ∈ (s.nextRec 0 0).toOption.toList, errs (s.readArgs 0 0 r) 1 = true) ∧ good (s.nextRec 0 0) = true ∧
    (sched {} []).chOwner (.tiller 0 20) ≠ owSeq := by decide +kernel

/-- The oldest step of that schedule, complete, with its commit list. -/
def doneS (x : SqCtx) (l : List CommitEntry) : State := sched { x with steps := [{ stepOf 3 {} with commit := l }] } []
theorem hyp_stepCommit : let s := doneS {} [.flip 0 5]; let i := doneS {} [.inc (0x3FFF * 2 ^ 14 + 2 * 2 ^ 8 + 9) 4]
    s.mayCommit ⟨0, 0, 3⟩ = true ∧ s.watchMatch 0 0 0 = [] ∧ s.mirrorPairs 0 [.flip 0 5] = [] ∧ i.mayCommit ⟨0, 0, 3⟩ = true ∧ (i.node (tillerNode 0)).permits (tillerNode 2) = true ∧ (i.node (tillerNode 0)).waiting = [] ∧
    (i.node (tillerNode 0)).admits (planeOf (tillerNode 0) (tillerNode 2)) = true ∧ nodeHalf (tillerNode 0) = nodeHalf (tillerNode 2) ∧
    (({ i with nodes := [(tillerNode 0, { destLo := 0 })] } : State).node (tillerNode 0)).permits (tillerNode 2) = false ∧
    (tilS { c0 := [.flip 5, .inc 9 4] }).tiller 0 = { ({} : Tiller) with c0 := [.flip 5, .inc 9 4] } ∧ (tilS {}).loading 0 = false ∧ (tilS {}).reachable (tillerNode 0) = true := by decide +kernel

theorem hyp_scheduleCommands : let s := sched { steps := [{ stepOf 3 {} with rec' := { cls := 1 }, dmaDone := false }] } []
    (s.sq 0 0).st = .running ∧ ((tilS {}).sq 0 0).st = .idle ∧ (0x201 : Word).toNat % 8 = 1 ∧ s.attributed 0 0 .dmaError none = (s.sq 0 0).steps ∧ s.findReport 0 0 .dmaError = none ∧ (tilS {}).attributed 0 0 .dmaError none = [] ∧
    (∀ k, k < 8 → ((tilS {}).sq 0 k).st ≠ .running ∧ ((tilS {}).sq 0 k).st ≠ .aborting) ∧ (s.pair 0 5).valid = true ∧ (s.pair 0 6).valid = false ∧ s.sqOn 0 = true ∧ (s.tiller 0).spareLost = false ∧ s.spareFree 0 = true ∧
    (let r := sched { steps := [{ stepOf 3 {} with rec' := { cls := 1 }, replayDue := true }] } []; (r.sq 0 0).steps.find? Step.replayDue = (r.sq 0 0).steps.head? ∧ (∀ x ∈ (r.sq 0 0).steps, r.replayQuiet 0 x = true)) := by decide +kernel

/-! ## Thallus -/

/-- An array header: controller tiller 0, up to 2 waves, CLASS, WAVES, WAIT0 on counter 0 reaching `wait`, commit list, WAVE_LIM. -/
def hdr (cls waves wait commit lim : Nat) : List Byte :=
  leBytes 1 0 ++ leBytes 1 2 ++ leBytes 2 cls ++ leBytes 4 waves ++ leBytes 6 0 ++ leBytes 2 (if wait = 0 then 0 else 1) ++ leBytes 4 wait ++ leBytes 4 0 ++ leBytes 4 commit ++ leBytes 8 0 ++ leBytes 4 lim ++ leBytes 24 0
/-- Region 0 of the first block in mode THALLUS, with its header, tiller 0's part and its units. -/
def arrS (h : List Byte) (th : Thallus) (us : Sparse Machine.Unit) : State :=
  { tilS { th := { th with on := true }, pairs := [(5, { valid := true, base := 0x2000, size := 64 })] } with regions := [(0, { st := .serving, mode := 2, blocks := 1, array := h })], units := us }
def wave1 (st : WaveState) (n : Nat) (bl : List (Nat × Nat)) : Thallus := { st := st, wave := 1, inflight := [(0, n, bl)] }

theorem hyp_waves : let s := arrS (hdr 0 4 0 0xFFFFFFFF 0) { st := .running } []; let w := arrS (hdr 0 1 5 0xFFFFFFFF 100) (wave1 .running 0 []) []
    s.arr 0 ≠ [] ∧ arrCtrl (s.arr 0) = 0 ∧ s.thOn 0 = true ∧ (s.th 0).st = .running ∧ (s.th 0).inflight.length < arrMax (s.arr 0) ∧ (fld (s.arr 0) 14 1).testBit 0 = false ∧ arrWaves (s.arr 0) = 4 ∧ s.regionOf 0 = some 0 ∧
    s.reachable (tillerNode 0) = true ∧ arrWaves (w.arr 0) ≤ (w.th 0).wave ∧ reached (w.evc 0 (fld (w.arr 0) 8 1)) 5 = false ∧ (fld (w.arr 0) 14 1).testBit 0 = true ∧ arrLimit (w.arr 0) ≠ 0 ∧ (w.th 0).inflight ≠ [] ∧
    arrLimit (s.arr 0) = 0 ∧ ((arrS (hdr 0 4 0 0 0) {} []).th 0).st = .idle ∧ (({ s with west := { s.west with st := .parked } } : State).reachable (tillerNode 0)) = false := by decide +kernel

theorem hyp_purge : let s := arrS (hdr 0 4 0 0xFFFFFFFF 0) { wave1 .replaying 1 [] with purging := true } [(1, { valid := true })]; let o := arrS (hdr 0 4 0 0 0) { purging := true, epoch := 1, queues := [(0, { transit := [⟨[], 0, false, false⟩] })] } []
    0 ∈ s.regionTillers 0 ∧ (s.th 0).purging = true ∧ (s.th 0).queues = [] ∧ (s.th 0).spareFor = none ∧ s.regionUnits 0 = [1] ∧ (∃ t ∈ o.regionTillers 0, ∃ e ∈ (o.th t).queues, ∃ k ∈ e.2.transit, k.epoch ≠ (o.th t).epoch) := by decide +kernel

theorem hyp_waveCommit : let s := (arrS (hdr 0 1 0 0x400 0) (wave1 .running 0 []) [(1, { valid := true, wave := 1 })]).poke (tmAddr 0 0x400) (leBytes 8 1 ++ leBytes 8 (1 + 5 * 2 ^ 8))
    s.thOn 0 = true ∧ s.waveReady 0 = some 0 ∧ s.watchMatch 0 0xFFFFFFFF 0 = [] ∧ s.waveList 0 = some ([5].map (CommitEntry.flip 0)) ∧ s.mirrorPairs 0 ([5].map (CommitEntry.flip 0)) = [] ∧
    (arrS (hdr 0 1 0 0 0) (wave1 .running 0 []) [(1, { valid := true })]).waveReady 0 = none := by decide +kernel

theorem hyp_waveFaults : let s := arrS (hdr 1 4 0 0 0) (wave1 .running 1 []) []; let p := arrS (hdr 2 4 0 0 0) (wave1 .running 1 []) []
    (s.th 0).inflight = [(0, 1, [])] ∧ arrClass (s.arr 0) = 1 ∧ waveFaultCore (.coreFault 0x40) = some 1 ∧ (s.tiller (1 / 16)).spareLost = false ∧ arrClass ((arrS (hdr 0 4 0 0 0) (wave1 .running 1 []) []).arr 0) = 0 ∧ s.spareFree (1 / 16) = true ∧
    arrClass (p.arr 0) = 2 ∧ (∀ k, k < 8 → ∀ x ∈ (p.sq (1 / 16) k).steps, x.live = []) ∧ ((arrS (hdr 1 4 0 0 0) (wave1 .running 3 []) []).th 0).inflight = [(0, 3, [])] ∧ ((arrS (hdr 1 4 0 0 0) {} []).th 0).inflight = [] := by decide +kernel

/-- A token of the current epoch; an input queue of a unit; an output queue. -/
def tok (d : List Byte) (last null : Bool) : Token := ⟨d, 0, last, null⟩
def iq (u p : Nat) (l : List Token) : TQueue := { valid := true, producer := 9, consumer := u, cport := p, depth := 16, tokens := l }
def oq (u p k : Nat) : TQueue := { valid := true, producer := u, pport := p, consumer := 9, depth := 16, credits := k }
/-- Tiller 0 with one unit, its input queues 0 to 2 and its output queues 10 and 11, with `k` credits each; a wave runs. -/
def unitS (u : Nat) (x : Machine.Unit) (l0 l1 l2 : List Token) (k : Nat) : State :=
  arrS (hdr 0 4 0 0 0) { wave1 .running 0 [] with queues := [(0, iq u 0 l0), (1, iq u 1 l1), (2, iq u 2 l2), (10, oq u 0 k), (11, oq u 1 k)] } [(u, { x with valid := true })]
def blk (n : Nat) : List Byte := leBytes 64 n

theorem hyp_tokens : let s := arrS (hdr 0 4 0 0 0) { queues := [(3, { iq 1 0 [] with transit := [tok (blk 1) false false], returning := [0] }), (4, { iq 1 0 [] with transit := [⟨blk 1, 15, false, false⟩] })] } []
    (s.queue 0 3).transit = [tok (blk 1) false false] ∧ (s.th 0).on = true ∧ (s.th 0).epoch = 0 ∧ (s.queue 0 4).transit = [⟨blk 1, 15, false, false⟩] ∧ (s.queue 0 3).returning = [0] ∧ (s.queue 0 5).transit = [] ∧ (s.queue 0 5).returning = [] := by
  decide +kernel

/-- F-unit 0 of core 0: X of one token, one operation X + CONST (F32) into R, one token out. -/
def fU (fires : Nat) : Machine.Unit := { rec' := { fires := fires, width := 1 + 64, nops := 1, const := 0x3F800000, ops := [5 * 256 + 6 * 2 ^ 15 + 3 * 2 ^ 21] } }
theorem hyp_fire : let s := unitS 1 (fU 2) [tok (blk 0x40000000) false false] [] [] 3; let e := unitS 1 (fU 1) [tok (blk 0) true true] [] [] 3
    s.unitLive 1 0 = true ∧ uKind 1 = 1 ∧ s.inQueue 1 0 = some 0 ∧ s.creditsAt 1 0 1 = true ∧ (s.unitOf 1).rec'.fires ≠ 0 ∧ (s.unitOf 1).fired + 1 ≠ (s.unitOf 1).rec'.fires ∧ s.tokensAt 1 0 = [tok (blk 0x40000000) false false] ∧
    (unitS 1 (fU 2) [] [] [] 3).tokensAt 1 0 = [] ∧ (unitS 1 (fU 2) [tok (blk 0) false false] [] [] 0).creditsAt 1 0 1 = false ∧ (e.tokensAt 1 0).head? = some (tok (blk 0) true true) ∧ (e.unitOf 1).fired + 1 = (e.unitOf 1).rec'.fires ∧
    ((unitS 1 (fU 2) [tok (blk 0) true false] [] [] 3).tokensAt 1 0).any Token.last = true ∧ (s.th (arrCtrl (s.arr 0))).st = .running := by decide +kernel

/-- M-unit 0 of core 0: FP16 operands of 4 x 16 and 16 x 4, FP32 sums, as the format code has it. -/
def mU : Machine.Unit := { rec' := { fires := 1, fmt := 0x8, shape := 0x3E } }
theorem hyp_fireM : let s := (unitS 0 mU [tok (blk 1) false false, tok (blk 1) true false] [tok (blk 1) false false, tok (blk 1) true false] [] 3).modTh 0 (fun t => { t with queues := t.queues.filter (fun q => q.1 ≠ 2) })
    s.inQueue 0 2 = none ∧ s.creditsAt 0 0 1 = true ∧ (s.tokensAt 0 0).length = 2 ∧ (s.tokensAt 0 1).length = 2 ∧ s.unitLive 0 0 = true ∧ uKind 0 = 0 ∧ (mmaFmt mU.rec'.fmt).isSome = true ∧ (∀ f ∈ (mmaFmt mU.rec'.fmt).toList, mmaMnk mU.mma f = (4, 4, 16) ∧ mTokens f.a 64 = 2 ∧ mTokens f.b 64 = 2) := by decide +kernel

/-- S-, P- and steering units. -/
def sU (mode fires : Nat) (r : UnitRec) : Machine.Unit := { rec' := { r with mode := mode, fires := fires } }
theorem hyp_fireBlocks : let r := unitS 2 (sU 0 2 { addr := 0x100 }) [] [] [] 3; let g := unitS 2 (sU 2 2 { addr := 0x100 }) [tok (blk 5) false false] [] [] 3
    r.unitLive 2 0 = true ∧ uKind 2 = 2 ∧ r.waveOpen 0 2 = true ∧ r.good (tillerHalf 0) (r.unitAddr 2 (r.unitBegin 2 |>.unitOf 2)) 64 = true ∧ ({ r with tillers := [(0, { th := { on := true } })] } : State).waveOpen 0 2 = false ∧
    (g.tokenData 2 0 1).length = 64 ∧ r.creditsAt 2 0 1 = true ∧ aowOpOf 0 ≠ none ∧ (r.unitBegin 2 |>.unitBase 2 (r.unitOf 2)) = clmAddr 0 0x100 ∧ (fld (blk (2 ^ 20)) 0 4 = 2 ^ 20) ∧ (∀ k, k < 8 → inStore (clmAddr 0 0x100 + 8 * k) = true) ∧
    uKind 3 = 3 ∧ (unitS 3 (sU 1 2 { addr := 0x1000, session := 4 }) [tok (blk 5) false false] [] [] 3).unitLive 3 0 = true ∧
    ((unitS 3 { sU 0 2 { addr := 0x1000, session := 4 } with fetched := [(0, 0, blk 7)] } [] [] [] 3).unitOf 3).fetched = [(0, 0, blk 7)] := by decide +kernel

theorem hyp_fireSteering : uKind 4 = 4 ∧ (tok (blk 1) false false).cond = true ∧ (tok (blk 0) true false).cond = false ∧
    ((unitS 4 (sU 0 2 {}) [tok (blk 9) false false] [] [tok (blk 1) false false] 3).tokensAt 4 2).head? = some (tok (blk 1) false false) ∧ (unitS 4 (sU 0 2 {}) [] [] [] 3).creditsAt 4 1 1 = true ∧ (unitS 4 (sU 0 2 {}) [] [] [] 3).unitLive 4 0 = true ∧
    (5 : Nat) < 512 ∧ (unitS 4 (sU 3 2 { count := 5 }) [tok (blk 9) false false] [] [] 6).creditsAt 4 0 (5 + 1) = true ∧ ((unitS 4 (sU 3 2 { count := 5 }) [] [] [] 6).unitOf 4).loopLeft = none := by decide +kernel

/-! ## Stolon -/

/-- Module 9 with ports 3 and 5 as given, each destination's choices 3, then 5; modules 0 to 100 may read, write and do AOWs in tiller memory 0 and count counter 8 of tiller 0;
multicast group 2 names ports 3 and 5, group 4 port 3 and the local group 1, tillers 0 and 1. -/
def stolS (p3 p5 : Port) : State :=
  { tilS { inboxes := [(5, { valid := true, avail := 2, gen := 3 }), (6, { valid := true, avail := 0 })] } with
    ports := [(3, p3), (5, p5)], boot := { on.boot with standalone := false, moduleId := 9 },
    loader := { on.loader with routes := [⟨0, 16383, 3, 5, 255, 0⟩], expose := [.memory 7 0 100 (tmAddr 0 0) 0x10000, .counters 8 8 0 100 1],
                               templates := [(4, { valid := true, rights := 7, tagShare := 2, base := 0x1000, length := 0x1000, credit := 0 })],
                               stolonGroups := [(2, { valid := true, members := 40 }), (4, { valid := true, members := 8, local' := 1 })], dieGroups := [(1, { valid := true, members := 3 })] } }
def upP : Port := { en := true, st := .up, lanes := 4, peerId := 7, c0Sent := 0 }
def stP (st : PortState) : Port := { en := true, st := st, lanes := 4, peerId := 7 }
/-- A packet to module 20, a flit kept with it, a flit that arrives with packets. -/
def pk : Packet := { dest := 20, cls := .request, hops := 0, body := .creditReq 1 2 3 }
def kf (n : Nat) : KeptFlit := ⟨n, pk⟩
def flit (n : BitVec 12) (l : List FlitPkt) : FlitIn := { seq := n, good := true, protocolError := false, packets := l }
def fpk (d : BitVec 14) : FlitPkt := { dest := d, cls := .request, hops := 3, type := 1, origin := 7, tag := ⟨0, 0⟩ }

theorem hyp_linkControl : let s := stolS (stP .disabled) upP
    s.portReach 3 = true ∧ s.linkPort 3 = true ∧ ({ stP .disabled with en := false } : Port).en = false ∧ (stolS (stP .handover) upP).portReach 3 = true ∧ ({ s with loader := { s.loader with bond := 2 } } : State).linkPort 3 = false ∧
    (s.choices (stP .up).peerId).find? (fun r => decide (r ≠ 3) && s.portUp r) = some 5 ∧ (upP).txWait = [] ∧ upP.kept.length < s.replayRoom 5 ∧ upP.c0Sent < upP.c0Allot ∧
    ({ s with west := { s.west with st := .parked }, east := { s.east with st := .parked } } : State).portReach 3 = false := by decide +kernel

/-- An IDENT of module 7, or one a check refuses. -/
def ident (w : Word) (m : BitVec 14) (b : Bool) : Ident := ⟨w, m, 2, b⟩
def idW : Word := 0x53A1000010000000
theorem hyp_linkTraining : let s := stolS (stP .training) upP
    s.up = true ∧ (s.port 3).st = .training ∧ field idW 48 16 = 0x53A1 ∧ field idW 28 4 = 1 ∧ (ident idW 7 false).module.toNat ≠ s.moduleId ∧ (ident idW 7 false).bond = s.bonded 3 ∧ field (0 : Word) 48 16 ≠ 0x53A1 ∧
    field (0x53A1000000000000 : Word) 28 4 = 0 ∧ (ident idW 9 false).module.toNat = s.moduleId ∧ (ident idW 7 true).bond ≠ s.bonded 3 ∧ sget 0xFFFF s.loader.peers 3 = 0xFFFF ∧
    sget 0xFFFF ({ s with loader := { s.loader with peers := [(3, 8)] } } : State).loader.peers 3 = 8 ∧ ((stolS (stP .refused) upP).port 3).en = true := by decide +kernel

theorem hyp_linkFlits : let s := stolS { upP with rxSeq := 4095, kept := [kf 5, kf 6], txWait := [pk], naks := 7, nakSeq := 5 } upP
    (s.port 3).st = .up ∧ (flit 4095 []).good = true ∧ (flit 4095 []).seq.toNat = (s.port 3).rxSeq ∧ (flit 1 []).seq.toNat ≠ (s.port 3).rxSeq ∧ (∀ k ∈ (flit 4095 [fpk 9]).packets, k.dest.toNat = s.moduleId) ∧ (fpk 20).dest.toNat ≠ s.moduleId ∧
    (fpk 20).hops.toNat < 31 ∧ (stolS (stP .training) upP).wayOpen 20 5 = true ∧ (s.port 3).kept.any (fun k => k.seq = (6 : BitVec 12).toNat) = true ∧ (s.port 3).kept.any (fun k => k.seq = (7 : BitVec 12).toNat) = false ∧
    (∀ k ∈ (s.port 3).txWait, k.mcTag = none) ∧ 7 ≤ (s.port 3).naks ∧ (s.port 3).nakSeq = (5 : BitVec 12).toNat ∧ (s.port 3).kept ≠ [] ∧ (1 : Nat) < s.fullLanes 3 ∧ (s.port 3).lanesDropped.contains 1 = false ∧ 2 ≤ (s.port 3).lanes ∧
    (stolS { upP with lanes := 1 } upP).port 3 = { upP with lanes := 1 } := by decide +kernel

theorem hyp_linkHandover : let s := stolS { stP .handover with kept := [kf 5, kf 6] } upP
    (s.port 3).st = .handover ∧ s.holds = [] ∧ (∀ k ∈ afterSeq (s.port 3).kept 5, k.packet.mcTag = none ∧ (s.routeOf k.packet.dest).isSome ∧ k.packet.hops < 31) ∧ afterSeq (s.port 3).kept 5 = [kf 6] ∧ s.routeOf pk.dest = some 5 ∧
    (s.port 5).txWait = [] ∧ (s.port 5).kept.length < s.replayRoom 5 := by decide +kernel

theorem hyp_routeHold : let h : Hold := { port := 3, restore := true, before := [5], after := [3, 5], packets := [(pk, false)] }; let s : State := { stolS upP upP with holds := [h] }
    s.holds.findIdx? (fun h => h.restore && s.covers h 20) = some 0 ∧ s.holds[0]? = some h ∧ h.packets.filter (fun k => k.1.dest = 20) = [(pk, false)] ∧
    (s.modHold 0 (fun h => { h with done := nins 20 h.done, packets := h.packets.filter (fun k => k.1.dest ≠ 20) })).wayOpen 20 3 = true ∧ (stolS upP upP).holds.findIdx? (fun h => h.restore && (stolS upP upP).covers h 20) = none := by decide +kernel

/-- Session 5, to module 20, with its home's node as given; a load of core 0 that asks for it. -/
def sesS (e : Session) (n : PortNode) : State :=
  { stolS upP upP with sessions := [(5, e)], portNodes := [(0, n)], reqs := [{ reqOf 7 t0 (word 0x1000) with kind := .load 8, session := some (20, 5) }, { reqOf 8 t0 (word 0x1000) with kind := .store (leBytes 8 7), session := some (20, 5) }] }
def opened : Session := { st := 1, rights := 7, module := 20, tagShare := 2, base := 0x1000, length := 0x1000 }
def ask (id : Nat) (k : SessKind) : SessReq := { sess := 5, dest := 20, offset := 0x1000, length := 8, kind := k, from' := .access id }
def rdQ : SessReq := ask 7 .read
def wrQ : SessReq := ask 8 (.write (leBytes 8 7))
theorem hyp_sessionRequests : let s := sesS opened {}; let c := sesS { opened with credit := 3 * 4096 + 6 } {}
    rdQ.sess < 16384 ∧ s.up = true ∧ s.wantsReq rdQ = true ∧ s.inHand rdQ = false ∧ s.blocked (nodeHalf (portNodeNode (2 * sessHome rdQ.sess))) = false ∧ (s.portNode 0).waiting = [] ∧ s.mayLeave rdQ = true ∧ s.wayOpen (s.session 5).module 3 = true ∧
    s.lacksCredit wrQ = false ∧ (sesS { opened with outstanding := 2 } {}).mayLeave rdQ = false ∧ c.lacksCredit wrQ = true ∧ c.wayOpen 20 3 = true ∧ s.wantsReq wrQ = true ∧
    ({ s with loader := { s.loader with routes := [] } } : State).routeOf 20 = none ∧ s.wantsReq (ask 9 .read) = false ∧ ({ s with west := { s.west with st := .parked } } : State).blocked (nodeHalf (portNodeNode 0)) = true := by decide +kernel

/-- A tag of node 0 held by session 5 for that load. -/
def held (n : Nat) : PortNode := { tags := [(n, some { sess := some 5, req := .access 7, write := false, branches := [], failed := false })] }
theorem hyp_sessionAnswers : let s := sesS { opened with outstanding := 1 } (held 3)
    sget none (s.portNode 0).tags 3 = some { sess := some 5, req := .access 7, write := false, branches := [], failed := false } ∧ s.loader.closing.contains 5 = false ∧ (s.portNode 0).waiting = [] ∧ sget none (s.portNode 0).tags 4 = none ∧
    sget none (sesS opened { reclaimed := [(3, some 5)] } |>.portNode 0).reclaimed 3 = some 5 ∧ sget none (s.portNode 0).reclaimed 4 = none := by decide +kernel

theorem hyp_sessionCommands : let s := sesS { opened with held := 3 } {}; let w : Word := 1 + 6 * 16 + 20 * 2 ^ 18 + 4 * 2 ^ 32; let c : Word := 2 + 5 * 16
    s.portReach 0 = true ∧ (s.portNode 0).busy = false ∧ field w 0 3 = 1 ∧ field w 4 14 = 6 ∧ field w 18 14 = 20 ∧ field w 32 10 = 4 ∧ sessHome 6 = 0 ∧ (s.session 6).st = 0 ∧ (sget {} s.loader.templates 4).valid = true ∧ field c 0 3 = 2 ∧ field c 4 14 = 5 ∧
    (s.session 5).st = 1 ∧ s.wayOpen 20 3 = true ∧ (s.session 5).held ≠ 0 ∧ sessHome 1024 ≠ 0 := by decide +kernel

theorem hyp_sessionTimers : let s := sesS { opened with st := 2, outstanding := 1 } (held 3); let g := sesS { opened with asked := true, busyRetry := true } {}
    (s.session 5).st = 2 ∧ s.sessTags 5 = [⟨0, 3⟩] ∧ (s.session 5).outstanding = (s.sessTags 5).length ∧ swf none (s.portNode 0).tags = true ∧ (g.session 5).busyRetry = true ∧ (g.session 5).asked = true ∧ g.wayOpen 20 3 = true ∧ ((sesS opened {}).session 5).asked = false := by
  decide +kernel

/-- A multicast's tag with branches on ports 3 and 5; a multicast received and not yet acknowledged. -/
def mcS (l : List Nat) : State := sesS opened { tags := [(3, some { sess := none, req := .dma (.tiller 0 17) 1024, write := true, branches := l, failed := false })] }
theorem hyp_multicastAcks : (mcS [3, 5]).receives 3 = true ∧ sget none ((mcS [3, 5]).portNode 0).tags 3 = some { sess := none, req := .dma (.tiller 0 17) 1024, write := true, branches := [3, 5], failed := false } ∧ [3, 5].erase 3 ≠ [] ∧ [3].erase 3 = [] ∧
    (let s : State := { sesS opened {} with mcPending := [{ port := 5, origin := 20, tag := ⟨0, 3⟩, failed := false, left := [3] }] }; sget none (s.portNode 0).tags 3 = none ∧ s.portUp 5 = true ∧ (s.port 5).kept.length < s.replayRoom 5) := by decide +kernel

/-- A request of module 20 at an offset, with GEN and data. -/
def rq (a gen : Nat) (d : List Byte) : RemoteReq := { origin := 20, tag := ⟨1, 2⟩, hops := 1, offset := a, gen := gen, length := d.length, data := d }
theorem hyp_remoteRequests : let s := stolS upP upP; let k := rq (tmAddr 0 0x1000) 0 (leBytes 8 5)
    s.receives 3 = true ∧ s.wayOpen k.origin 3 = true ∧ s.rel.st = 0 ∧ ({ s with rel := { s.rel with st := 1 } } : State).rel.st ≠ 0 ∧ touchesCtl 0x1F000000000 8 = true ∧ s.exposed 0 20 (tmAddr 0 0x1000) 8 = true ∧ s.exposed 1 20 (tmAddr 1 0) 8 = false ∧
    touchesCtl k.offset 8 = false ∧ s.good (portHalf 3) k.offset 8 = true ∧ (∀ y ∈ cutAt 128 k.offset 8, s.routeErr (portHalf 3) y.1 = none) ∧ inStore k.offset = true ∧ s.unitBad k.offset = false ∧
    (match s.creditCheck none k.offset 8 (some 0) with | .ok none => true | _ => false) = true ∧ cutAt 128 k.offset 8 = [(k.offset, 8)] ∧ s.exposed 2 20 (tmAddr 0 0x1004) 8 = true ∧ (tmAddr 0 0x1004) % 8 ≠ 0 := by decide +kernel

/-- The same, the inbox at 0x2000 of the tiller's memory. -/
def boxS (b : Inbox) : State := { stolS upP upP with tillers := [(0, { inboxes := [(5, { b with valid := true, store := 2, base := 0x80, length := 1, gen := 3 })] })] }
theorem hyp_remoteCredits : let s := boxS { auto := true }
    (match s.creditCheck none (tmAddr 0 0x2000) 8 (some 3) with | .ok (some (0, 5)) => true | _ => false) = true ∧ (match s.creditCheck none (tmAddr 0 0x2000) 8 (some 4) with | .error e => e != dUncorrectable | _ => false) = true ∧
    (s.inbox 0 5).waiters = [] ∧ s.routeErr (portHalf 3) (tmAddr 0 0x2000) = none ∧ s.good (portHalf 3) (tmAddr 0 0x2000) 8 = true ∧ s.exposed 1 20 (tmAddr 0 0x2000) 8 = true := by decide +kernel

theorem hyp_remoteOthers : let s := stolS upP upP
    s.counterOpen 20 0 8 = true ∧ s.counterOpen 20 0 9 = false ∧ nodeHalf (portNodeNode 3) = nodeHalf (tillerNode 0) ∧ (sget {} s.loader.stolonGroups 9).valid = false ∧ (sget {} s.loader.stolonGroups 4).local' ≠ 0xFF ∧ s.mcastAddrs 1 0x1000 = [tmAddr 0 0x1000, tmAddr 1 0x1000] ∧
    (∀ r, r < 32 → bit (sget {} s.loader.stolonGroups 4).members r = true → r = 3) ∧ (sget {} s.loader.stolonGroups 2).local' = 0xFF ∧ (∀ r, r < 32 → bit (sget {} s.loader.stolonGroups 2).members r = true → r = 3 ∨ r = 5) ∧
    bit (sget {} s.loader.stolonGroups 2).members 5 = true ∧ s.portUp 5 = true ∧ s.routeErr (portHalf 3) (tmAddr 0 0) = none ∧ (s.inbox 0 5).avail ≠ 0 ∧ (s.inbox 0 6).avail = 0 ∧ s.stolonWaiters 0 < 1024 ∧ 1024 ≤ (boxS { waiters := List.replicate 1024 (.stolon 3 20 ⟨1, 2⟩, 1) }).stolonWaiters 0 ∧ (s.inbox 0 7).valid = false ∧
    s.reachable (tillerNode 0) = true ∧ (3 : BitVec 4).toNat = (s.inbox 0 5).gen ∧ (s.inbox 0 5).waiters = [] ∧
    (∀ a ∈ s.mcastAddrs 1 0x1000, s.good (portHalf 3) a 8 = true ∧ ∀ y ∈ cutAt 128 a 8, s.routeErr (portHalf 3) y.1 = none ∧ (match s.creditCheck none y.1 y.2 none with | .ok none => true | _ => false) = true) := by decide +kernel

theorem hyp_portRelease : let x : Port := { upP with c0Wait := List.replicate 18 { pk with cls := .control } }
    min x.c0Wait.length x.c0Allot = 16 ∧ x.kept.length + 16 ≤ (stolS x upP).replayRoom 3 ∧ (∀ k ∈ x.c0Wait, k.cls = .control) ∧ ((stolS (stP .down) upP).port 3).st ≠ .up := by decide +kernel

/-! ## Registers and memory -/

theorem hyp_registerWrites : let s := tilS { windows := [(5, { w1Next := 77 })] }
    locOf (0x1F000000000 + 0x30008) = .ctl 0 0x30008 ∧ s.ctlReach 0 = true ∧ ctlReg 0 0x30008 = some .thlSrc ∧ (CtlReg.thlSrc).machineOnly = false ∧ locOf 0x1000 = .hbm 0x1000 ∧ ctlReg 0 0x30100 = some (.regionBlocks 0) ∧ ctlReg 0 0x80 = some (.lmGeom 15) ∧
    ctlReg 1 0xF0000 = some .meshSlot ∧ ctlReg (tillerNode 0) 0x230058 = some (.window 5 1) ∧ ctlReg (tillerNode 0) 0x230050 = some (.window 5 0) ∧ s.ctlReach (tillerNode 0) = true ∧ s.power.alertSrc < 1024 ∧ stackNode 0 = 1 ∧
    ctlReg 0 0x7FF0 = none ∧ ({ s with west := { s.west with st := .parked } } : State).ctlReach (tillerNode 0) = false ∧ (List.range 12).find? (fun i => stackNode i = 1) = some 0 ∧ (sget {} (s.tiller 0).windows 5).w1Next = 77 := by decide +kernel

theorem hyp_memoryStaysCanonical : Memory.wf ({ on with pending := [.railsInRegulation] } : State).mem = true ∧ ∃ u, Machine.step { State.reset with pending := [.railsInRegulation] } = .next u := ⟨by decide, _, rfl⟩

/-! ## Ill-formed commands -/

theorem test_wf_units : (∀ i ∈ [Instr.rstCore 1024, .rstLink 32, .rachisParkedAnswer .west 10 .control none, .meshSlotWrite 100 0, .meshFlitReceive 100 .east 0 .control .none, .meshFlitReceive 12 .east 2 .control .none, .meshFlitReceive 9 .north 0 .control .none,
    .meshFlitReceive 90 .south 0 .control .none, .meshFlitReceive 19 .east 0 .control .none, .meshFlitReceive 20 .west 0 .control .none, .regionQuiescent 16, .nop ⟨0, 8⟩, .nop ⟨1024, 1⟩, .nop ⟨1040, 0⟩, .channelCreditRequest ⟨1024, 0⟩, .channelMessageArrive 64 0,
    .channelMessageArrive 0 256, .crgAvailWrite 0 64 0, .sramScrub (.clm 1024), .sramScrub (.tm 64), .sramBankFail (.eb 0) 16, .sramBankFail (.clm 0) 32], i.wellFormed = false) := by decide

theorem test_wf_engines : (∀ i ∈ [Instr.dchDescStart 0 32 0, .dchEnWrite (.core 0 8) 0, .dchEnWrite (.tiller 64 0) 0, .dmaBurstIssue (.core 1024), .stepIssue 64 0, .stepIssue 0 8, .commitFlipArrive 0 64, .evcIncrement 0 256, .stepFault 0 0 (.coreFault 16), .dupSelftest 0 0 [16],
    .takeoverCopyDone 64 false, .waveStart 16, .unitFire 5, .unitFire 0x1003, .tokenArrive 0 512], i.wellFormed = false) := by decide

theorem test_wf_fabric : (Instr.hbmRead 0xBFFFFFFFFF 2).wellFormed = false ∧ (Instr.hbmPatrolScrub 12).wellFormed = false ∧ (Instr.hbmLaneRepair 384 true).wellFormed = false ∧ (Instr.sessionRequest { rdQ with sess := 16384 }).wellFormed = false ∧
    (Instr.tagTimeout ⟨16, 0⟩).wellFormed = false ∧ (Instr.tagTimeout ⟨0, 8192⟩).wellFormed = false ∧ (Instr.sessOpen 16 0).wellFormed = false ∧ (Instr.sessCloseTimeout 16384).wellFormed = false ∧ (Instr.mcAckReceive 32 ⟨0, 0⟩ false).wellFormed = false ∧
    (Instr.remoteWindowWrite 0 64 0).wellFormed = false ∧ (Instr.cacheMissFill 0 0x300000000 none none).wellFormed = false ∧ (Instr.coherenceProbe 16 0 false).wellFormed = false ∧ (Instr.culmNodeFail 4 0).wellFormed = false ∧ (Instr.ethDbTx 2 0).wellFormed = false ∧
    (Instr.pcieLinkChange 2 6 0 false).wellFormed = false ∧ (Instr.pcieLinkChange 2 0 9 false).wellFormed = false ∧ (Instr.healthReport { rep with node := 100 }).wellFormed = false ∧ (Instr.smpEnable 4 0).wellFormed = false ∧
    (Instr.watchRecordArrived 0 9).wellFormed = false := by decide

/-! ## Values that the spec works out -/

/-- Chapter 0, "locating one core": core 9 of the tiller at (6, 3). -/
theorem test_locateCore : tillerNode 21 = 36 ∧ tillerBlock 21 = 6 ∧ tillerHalf 21 = .east ∧ clmAddr 345 0 = 0x10215900000 ∧ ebAddr 345 0 = 0x10301590000 ∧ tmAddr 21 0 = 0x10115000000 ∧ locOf 0x1F024000000 = .ctl 36 0 := by decide
/-- Chapter 12, "placing a circuit matrix": two HALF ranges, then a single DIE range (stack H11, channel 5, pseudo-channel 1). -/
theorem test_hbmPlace : hbmPlaceFrom [] [⟨0, 384, 1, 0⟩, ⟨384, 384, 1, 1⟩] 0x12345000 = (56, 0x184000) ∧ State.reset.hbmPlace 0x12345000 = (11 * 32 + 5 * 2 + 1, 0xC2000) := by decide
/-- Chapter 7, Table 11: a block of MXFP4; with FTZ element 2 is flushed. -/
theorem test_mxBlock : let l := [0x42C00000, 0xC2300000, 0x41200000, 0x40400000, 0xBFA00000] ++ List.replicate 27 0
    (mxBlock .e2m1 false 0 l).1 = 0x83 ∧ ((mxBlock .e2m1 false 0 l).2.1.take 6) = [7, 0xD, 1, 0, 8, 0] ∧ (mxBlock .e2m1 true 0 l).1 = 0x83 ∧ (mxBlock .e2m1 true 0 l).2.1.getD 2 9 = 0 := by decide +kernel
/-- Chapter 11, the extraction kernel: token counts and operation words. -/
theorem test_lane : mTokens 3 (32 * 64) = 64 ∧ mTokens 3 (32 * 32) = 32 ∧ fOpOk 1 0x54E = true ∧ fOpOk 1 0x62B618 = true ∧ fOpOk 0 0x8500 = true ∧ fOpOk 0 0x633502 = true ∧ fOpOk 1 0x8500 = false := by decide
/-- Chapter 18, "a strap fault in rack 19": the CLAIM frame's bytes 0 to 19. -/
theorem test_claimFrame : (chainFrame 1 1 1234 0xA1700002C41 0).take 20 = [1, 1, 0xD2, 4, 0x41, 0x2C, 0, 0, 0x17, 0xA, 0, 0, 0, 0, 0, 0, 0, 0, 0, 0] := by decide +kernel
/-- The checksum and hash of "123456789" and "abc" as their standards give them. -/
theorem test_checksums : crc32 [0x31, 0x32, 0x33, 0x34, 0x35, 0x36, 0x37, 0x38, 0x39] = 0xCBF43926 ∧ (sha256 [0x61, 0x62, 0x63]).take 4 = [0xBA, 0x78, 0x16, 0xBF] := by decide +kernel
/-- Chapter 19, the image check: LM_IDENT, TILLERS and CORES of LM_GEOM word 0, TM_KIB and HBM_GIB. -/
theorem test_identity : Config.lmIdent = 0x53A14D3110010000 ∧ field (Config.lmGeom 0) 0 20 = 0x10040 := by decide

/-! ## Single steps -/

/-- R98: division rounds toward zero; by zero it gives all ones, and the remainder is the dividend. -/
theorem test_div : mulDivOp .div (-7) 2 = -3 ∧ mulDivOp .rem (-7) 2 = -1 ∧ mulDivOp .div 5 0 = -1 ∧ mulDivOp .remu 5 0 = 5 := by decide

/-- Table 6 of chapter 3: `addi g1, -1` in the short form takes 1 from g1 and 2 bytes of PC. -/
theorem test_addi : (match exec (.shortAlu t0 (.addi 1 0x3F)) (with0 (thr 2 0)) with | .next u => u.reg t0 1 == 0xFFF && (u.ctx t0).pc == 0x102 | _ => false) = true := by decide +kernel
/-- R98: MULHU of two numbers of all ones. -/
theorem test_mulhu : (match exec (.muldiv t0 .mulhu 3 1 1) (with0 { thr 2 0 with g := [(1, 2 ^ 64 - 1)] }) with | .next u => u.reg t0 3 == 2 ^ 64 - 2 | _ => false) = true := by decide +kernel
/-- R228: an inbox of 48 credits grants 16 and keeps 32. -/
theorem test_grant : (match exec (.creditReqReceive 3 20 ⟨1, 2⟩ 5 16) (boxS { avail := 48 }) with | .next u => (u.inbox 0 5).avail == 32 | _ => false) = true := by decide +kernel
/-- R260: a counter wraps at 2^32. -/
theorem test_counterWraps : (match exec (.evcIncrement 0 9) (tilS { evc := [(9, 0xFFFFFFFE)], c0 := [.inc 9 4] }) with | .next u => u.evc 0 9 == 2 | _ => false) = true := by decide +kernel
/-- R277: the FLIP of a declared pair moves its live half. -/
theorem test_flip : (match exec (.commitFlipArrive 0 5) (tilS { c0 := [.flip 5], pairs := [(5, { valid := true, base := 0x2000, size := 64 })] }) with | .next u => (u.pair 0 5).start false == 0x2040 && (u.pair 0 5).start true == 0x2000 | _ => false) = true := by
  decide +kernel
/-- R340: a flit with the expected SEQ moves the expected SEQ on past 4,095 to 0. -/
theorem test_seqWraps : (match exec (.dataFlitReceive 3 (flit 4095 [])) (stolS { upP with rxSeq := 4095 } upP) with | .next u => (u.port 3).rxSeq == 0 | _ => false) = true := by decide +kernel
/-- R297: an F-unit's X + CONST, 2 + 1 in F32. -/
theorem test_fUnit : (match exec (.unitFire 1) (unitS 1 (fU 2) [tok (leBytes 4 0x40000000 ++ List.replicate 60 0) false false] [] [] 3) with
    | .next u => (u.queue 0 10).transit.map (fun k => fld k.data 0 4) == [0x40400000] | _ => false) = true := by decide +kernel

end Sys2Proof.Tests
end

section
/-! SUPPORT. What a wake of waiting threads leaves as it was: every part of the state outside cores, Culm cores and nodes. -/

namespace Sys2Proof.Machine

variable {α : Type}

/-- A part of the state that lies in no core, no Culm core and no mesh node: what a thread that wakes, retires or halts leaves
as it was. -/
structure OutsideThreads (π : State → α) : Prop where
  cores : ∀ (s : State) c, π { s with cores := c } = π s
  culm : ∀ (s : State) c, π { s with culm := c } = π s
  nodes : ∀ (s : State) c, π { s with nodes := c } = π s

theorem outsideThreads_mem : OutsideThreads State.mem := ⟨fun _ _ => rfl, fun _ _ => rfl, fun _ _ => rfl⟩
theorem outsideThreads_evc (T i : Nat) : OutsideThreads (fun s => s.evc T i) := ⟨fun _ _ => rfl, fun _ _ => rfl, fun _ _ => rfl⟩

namespace OutsideThreads

variable {π : State → α} (hπ : OutsideThreads π)
include hπ

theorem modCtx (s : State) (t : Tid) (f : Ctx → Ctx) : π (s.modCtx t f) = π s := by
  unfold State.modCtx
  split
  · exact hπ.cores s _
  · exact hπ.culm s _

theorem setReg (s : State) (t : Tid) (r : Reg) (v : Word) : π (s.setReg t r v) = π s := by
  unfold State.setReg
  split
  · rfl
  · exact hπ.modCtx s t _

theorem count (s : State) (node ev : Nat) (q : Nat → Bool) (n : Nat) : π (s.count node ev q n) = π s := by
  unfold State.count
  dsimp only
  split
  · rfl
  · exact hπ.nodes s _

theorem retired (s : State) (t : Tid) : π (s.retired t) = π s := by
  unfold State.retired State.otcAdd
  dsimp only
  split
  · rw [hπ.count, hπ.modCtx, hπ.modCtx]
  · rw [hπ.modCtx, hπ.modCtx]

theorem advance (s : State) (t : Tid) (len : Nat) : π (s.advance t len) = π s := by
  unfold State.advance
  rw [hπ.retired, hπ.modCtx]

theorem schedule (s : State) (core : Nat) (stalled : Option Nat) : π (s.schedule core stalled) = π s := by
  unfold State.schedule
  dsimp only
  split
  · rfl
  · split
    · exact hπ.cores s _
    · rfl

theorem makeReady (s : State) (t : Tid) : π (s.makeReady t) = π s := by
  unfold State.makeReady
  split
  · rw [hπ.schedule, hπ.modCtx]
  · exact hπ.modCtx s t _

theorem leave (s : State) (t : Tid) (st : CtxState) : π (s.leave t st) = π s := by
  unfold State.leave
  split
  · rw [hπ.schedule]
    exact (hπ.cores _ _).trans (hπ.modCtx s t _)
  · exact hπ.modCtx s t _

theorem haltNow (s : State) (t : Tid) (cause which : Nat) : π (s.haltNow t cause which) = π s := by
  unfold State.haltNow
  rw [hπ.leave, hπ.modCtx]

theorem settleDebug (s : State) (t : Tid) : π (s.settleDebug t) = π s := by
  unfold State.settleDebug
  dsimp only
  split
  · exact hπ.haltNow s t 1 0
  split
  · exact hπ.haltNow s t 2 0
  split
  · exact hπ.modCtx s t _
  · rfl

theorem endWait (s : State) (t : Tid) (r : Reg) (v : Word) : π (s.endWait t r v) = π s := by
  unfold State.endWait
  rw [hπ.settleDebug, hπ.makeReady, hπ.advance, hπ.setReg]

theorem wakeCounters (s : State) (T : Nat) : π (s.wakeCounters T) = π s := by
  unfold State.wakeCounters forAll
  refine List.foldlRecOn (motive := fun u => π u = π s) _ _ rfl fun u hu d _ => ?_
  split
  · split
    · rw [hπ.endWait, hu]
    · exact hu
  · exact hu

end OutsideThreads
end Sys2Proof.Machine
end

section
/-! SUPPORT. Bits of fields, one rule for each answer of REGISTER_WRITE, and what a write of a register changes. -/

namespace Sys2Proof.Machine

/-! ## Bits -/

theorem testBit_field {n : Nat} (w : BitVec n) (lo width k : Nat) : (field w lo width).testBit k = (decide (k < width) && w.getLsbD (lo + k)) := by
  simp [field, Nat.testBit_mod_two_pow, Nat.testBit_shiftRight, BitVec.getLsbD]

/-- Word 0 of a remote window entry keeps bit 0 and bits 12 to 57 (R357). -/
theorem getLsbD_windowWord0 (w : Word) {k : Nat} (hk : k < 64) :
    (windowWord0 w).getLsbD k = if k = 0 then w.getLsbD 0 else (decide (12 ≤ k ∧ k < 58) && w.getLsbD k) := by
  have hb : field w 0 1 < 2 ^ 12 := Nat.lt_trans (Nat.mod_lt _ (by decide)) (by decide)
  rw [windowWord0, word, BitVec.getLsbD_ofNat, Nat.add_comm, Nat.mul_comm, Nat.testBit_two_pow_mul_add _ hb, testBit_field, testBit_field]
  by_cases h0 : k = 0
  · simp [h0]
  by_cases h12 : k < 12
  · have hlo : ¬ 12 ≤ k := by omega
    simp [h12, h0, hlo]
  · have hlt : k - 12 < 46 ↔ k < 58 := by omega
    have hadd : 12 + (k - 12) = k := by omega
    simp [h12, h0, hk, hlt, hadd, Nat.le_of_not_lt h12]

/-- Writing a one clears an alert bit, writing a zero keeps it (R458). -/
theorem testBit_clearAlerts (a : Nat) (w : Word) {k : Nat} (hk : k < 10) :
    (a &&& (0x3FF ^^^ field w 0 10)).testBit k = (a.testBit k && !w.getLsbD k) := by
  have hm : (0x3FF : Nat).testBit k = true := by
    rw [show (0x3FF : Nat) = 2 ^ 10 - 1 from rfl, Nat.testBit_two_pow_sub_one]
    exact decide_eq_true hk
  simp [Nat.testBit_and, Nat.testBit_xor, hm, testBit_field, hk]

/-! ## A change of one unit, with its frame -/

theorem State.modNode_frame (s : State) (n : Nat) (f : Node → Node) :
    (s.modNode n f).node n = f (s.node n) ∧ (∀ m, m ≠ n → (s.modNode n f).node m = s.node m) ∧ ({ s.modNode n f with nodes := s.nodes } : State) = s :=
  ⟨s.node_modNode_same n f, fun _ h => s.node_modNode_ne f h, rfl⟩

theorem State.modTiller_frame (s : State) (T : Nat) (f : Tiller → Tiller) :
    (∀ T', T' ≠ T → (s.modTiller T f).tiller T' = s.tiller T') ∧ ({ s.modTiller T f with tillers := s.tillers } : State) = s :=
  ⟨fun _ h => s.tiller_modTiller_ne f h, rfl⟩

/-- A tiller with one remote window entry changed. -/
def Tiller.modWindow (x : Tiller) (i : Nat) (f : Window → Window) : Tiller := { x with windows := sput {} x.windows i (f (sget {} x.windows i)) }

theorem Tiller.window_modWindow_same (x : Tiller) (i : Nat) (f : Window → Window) :
    sget {} (x.modWindow i f).windows i = f (sget {} x.windows i) := sget_sput_same _ _ _ _

theorem Tiller.window_modWindow_ne (x : Tiller) {i j : Nat} (f : Window → Window) (h : j ≠ i) :
    sget {} (x.modWindow i f).windows j = sget {} x.windows j := sget_sput_ne _ _ _ h

/-! ## REGISTER_WRITE -/

/-- The registers that a write at a level reaches: LM_IDENT and LM_GEOM, which ignore it, are all that level 2 names (R490, R491). -/
def CtlReg.writtenAt (r : CtlReg) (l : Lvl) : Prop :=
  match l with
  | .machine => True
  | .supervisor => r.machineOnly = false
  | .task => r = .lmIdent ∨ ∃ k, r = .lmGeom k

/-- An aligned word's write passes the access check exactly at a register that its level may write. -/
theorem State.ctlCheck_write_iff (s : State) (n o : Nat) (l : Lvl) (r : CtlReg) :
    s.ctlCheck n o 8 true (lvlNum l) none true = .ok r ↔ o % 8 = 0 ∧ ctlReg n o = some r ∧ r.writtenAt l := by
  unfold State.ctlCheck
  by_cases ho : o % 8 = 0
  · cases hr : ctlReg n o with
    | none => simp [ho]
    | some q =>
      cases l with
      | machine => simp [ho, lvlNum, CtlReg.writtenAt]
      | supervisor =>
        by_cases hm : q.machineOnly = true
        · simpa [ho, lvlNum, CtlReg.writtenAt, hm] using fun h : q = r => h ▸ hm
        · simpa [ho, lvlNum, CtlReg.writtenAt, hm] using fun h : q = r => h ▸ Bool.of_not_eq_true hm
      | task =>
        simp only [ho, lvlNum, CtlReg.writtenAt, Nat.reduceLeDiff, if_false, ne_eq, not_true_eq_false, Bool.not_true, Bool.false_eq_true, or_self, true_and, Option.some.injEq]
        split
        next => exact ⟨fun h => ⟨Except.ok.inj h, .inl (Except.ok.inj h).symm⟩, fun h => congrArg _ h.1⟩
        next k => exact ⟨fun h => ⟨Except.ok.inj h, .inr ⟨k, (Except.ok.inj h).symm⟩⟩, fun h => congrArg _ h.1⟩
        next =>
          simp only [Bool.false_and, Bool.false_eq_true, if_false, reduceCtorEq, false_iff, not_and]
          rintro rfl
          simp
        next hi hg _ =>
          simp only [reduceCtorEq, false_iff, not_and]
          rintro rfl (h | ⟨k, h⟩)
          · exact hi h
          · exact hg k h
  · simp [ho]

/-- A write is the register's own, where the node is reached and the level may write the register. -/
theorem exec_registerWrite {s : State} {l : Lvl} {addr n o : Nat} {r : CtlReg} (w : Word) (ha : locOf addr = .ctl n o) (hn : s.ctlReach n = true)
    (ho : o % 8 = 0) (hr : ctlReg n o = some r) (hl : r.writtenAt l) : exec (.registerWrite l addr w) s = .next (s.regWrite n r w) := by
  have hc := (s.ctlCheck_write_iff n o l r).mpr ⟨ho, hr, hl⟩
  show execRegisterWrite l addr w s = _
  simp [execRegisterWrite, ha, hn, hc]

/-- A write changes nothing where every register that it may reach ignores it. -/
theorem exec_registerWrite_ignored {s : State} {l : Lvl} {addr : Nat} {w : Word}
    (h : ∀ n o r, locOf addr = .ctl n o → s.ctlReach n = true → o % 8 = 0 → ctlReg n o = some r → r.writtenAt l → s.regWrite n r w = s) :
    exec (.registerWrite l addr w) s = .next s := by
  show execRegisterWrite l addr w s = _
  unfold execRegisterWrite
  congr 1
  split
  next n o ha =>
    split
    · rfl
    next hn =>
      split
      next r hc =>
        obtain ⟨ho, hr, hl⟩ := (s.ctlCheck_write_iff n o l r).mp hc
        exact h n o r ha (by simpa using hn) ho hr hl
      · rfl
  · rfl

/-- The registers, and the words of a table or of a group, that software only reads (R491 and the register maps). -/
def CtlReg.ReadOnly (r : CtlReg) : Prop :=
  r ∈ [CtlReg.lmIdent, .halfState, .thlStatus, .regionState, .regionMode, .thlLastId, .cnState, .relStat, .hlHead, .hlLost, .pwrStat, .bootStat,
    .chainStat, .fuseStat, .fuseSerial, .tbOffset, .rachisStat, .tspare, .thsWstat, .thsFault, .twStat, .pciStat] ∨
  ∃ i, r = .lmGeom i ∨ r = .regionBlocks i ∨ r = .healthLog i ∨ r = .sqReg i 2 ∨ ∃ j, r = .meas i j ∨ r = .sessEntry i j ∨ r = .sqBuf i (j + 1)

theorem State.regWrite_readOnly (s : State) (n : Nat) (w : Word) {r : CtlReg} (h : r.ReadOnly) : s.regWrite n r w = s := by
  obtain h | ⟨i, rfl | rfl | rfl | rfl | ⟨j, rfl | rfl | rfl⟩⟩ := h
  · simp only [List.mem_cons, List.not_mem_nil, or_false] at h
    obtain rfl | rfl | rfl | rfl | rfl | rfl | rfl | rfl | rfl | rfl | rfl | rfl | rfl | rfl | rfl | rfl | rfl | rfl | rfl | rfl | rfl | rfl := h <;> rfl
  all_goals rfl

/-- Word 0 of a window is the write that its command makes, word 1 is staged in the entry (R357). -/
theorem State.regWrite_window (s : State) (n i : Nat) (w : Word) :
    s.regWrite n (.window i 0) w = s.writeWindow0 ((nodeTiller n).getD 0) i w ∧
      s.regWrite n (.window i 1) w = s.modTiller ((nodeTiller n).getD 0) (·.modWindow i (fun e => { e with w1Next := windowWord1 w })) := ⟨rfl, rfl⟩

theorem State.writeWindow0_eq (s : State) (T i : Nat) (w : Word) :
    s.writeWindow0 T i w = s.modTiller T (·.modWindow i (fun e => { e with w0 := windowWord0 w, w1 := e.w1Next })) := rfl

/-- A change of a window entry, and what it leaves: the tiller's other entries, the other tillers and the rest of the state. -/
theorem State.modWindow_frame (s : State) (T i : Nat) (f : Window → Window) :
    sget {} ((s.modTiller T (·.modWindow i f)).tiller T).windows i = f (sget {} (s.tiller T).windows i) ∧
      (∀ j, j ≠ i → sget {} ((s.modTiller T (·.modWindow i f)).tiller T).windows j = sget {} (s.tiller T).windows j) ∧
      (∀ T', T' ≠ T → (s.modTiller T (·.modWindow i f)).tiller T' = s.tiller T') ∧ ({ s.modTiller T (·.modWindow i f) with tillers := s.tillers } : State) = s := by
  rw [State.tiller_modTiller_same]
  exact ⟨Tiller.window_modWindow_same .., fun j hj => Tiller.window_modWindow_ne _ _ hj, s.modTiller_frame T _⟩

/-- The command for word 0 of a window entry is the register's write, at a tiller that is reached (R357). -/
theorem exec_remoteWindowWrite (s : State) {T i : Nat} (w : Word) (hT : T < 64) (hi : i < 64) :
    exec (.remoteWindowWrite T i w) s = .next (if s.reachable (tillerNode T) then s.writeWindow0 T i w else s) := by
  show execRemoteWindowWrite T i w s = _
  simp [execRemoteWindowWrite, onUnit, hT, hi]

/-- The counter that was set, whatever wait its value ends. -/
theorem State.evc_setEvc (s : State) (T i v j : Nat) : (s.setEvc T i v).evc T j = if j = i then v % 2 ^ 32 else s.evc T j := by
  unfold State.setEvc
  rw [(outsideThreads_evc T j).wakeCounters]
  by_cases h : j = i <;> simp [State.evc, h, bv]

theorem State.mem_setEvc (s : State) (T i v : Nat) : (s.setEvc T i v).mem = s.mem := by
  unfold State.setEvc
  rw [outsideThreads_mem.wakeCounters, State.mem_modTiller]

/-- Debug words 4 to 7 are the breakpoints (R443). -/
theorem State.regWrite_breakpoint (s : State) (n : Nat) (t : Tid) {j : Nat} (w : Word) (hj : j < 4) :
    s.regWrite n (.dbg t (4 + j)) w = s.modCtx t (fun c => { c with dbg := { c.dbg with bp := sput 0 c.dbg.bp j (word (field w 0 48)) } }) := by
  match j, hj with
  | 0, _ => rfl
  | 1, _ => rfl
  | 2, _ => rfl
  | 3, _ => rfl

/-- HBM_SCRUB takes the PERIOD of the controller's next scrub pass (R328). -/
theorem State.regWrite_hbmScrub (s : State) {n i : Nat} (w : Word) (hi : (List.range 12).find? (fun i => stackNode i = n) = some i) :
    s.regWrite n (.hbm 3) w = s.modStack i (fun x => { x with periodNext := field w 0 8 }) := by
  simp [State.regWrite, State.hbmWrite, hi]

/-- Bit 63 of AOW_STAT clears its two counts (R219). -/
theorem State.regWrite_aowStat (s : State) (n : Nat) (w : Word) :
    s.regWrite n .aowStat w = if w.getLsbD 63 then s.modTiller ((nodeTiller n).getD 0) (fun x => { x with aowInv := 0, aowOvf := 0 }) else s := rfl

theorem Ends.next {u : State} {P : State → Prop} (h : P u) : Ends (.next u) P := ⟨u, rfl, h⟩

end Sys2Proof.Machine
end

section
namespace Sys2Proof.Machine

/-- Settles O59. A write that the access check stops or that reaches a read-only register is ignored; any other is `State.regWrite`
of its register, which changes one unit by `modNode`, `modTiller`, `modStack` or `modCtx`, so that the frame of that change is
the frame of the write. An event counter also ends waits, which lie outside the counters and memory. -/
theorem registerWrites : Obligations.RegisterWrites := by
  unfold Obligations.RegisterWrites
  refine ⟨fun s addr w => ?_, fun s l addr w => ⟨fun ha => ?_, fun n o ha h => ?_⟩, ?_, fun s T i w hT hi => ⟨fun hr => ?_, fun hr => ?_⟩⟩
  · refine exec_registerWrite_ignored fun n o r _ _ _ _ hl => ?_
    obtain rfl | ⟨k, rfl⟩ := hl <;> rfl
  · exact exec_registerWrite_ignored fun n o r hn => absurd hn (ha n o)
  · refine exec_registerWrite_ignored fun n' o' r ha' hn ho hr hl => ?_
    obtain ⟨rfl, rfl⟩ : n = n' ∧ o = o' := by simpa [ha] using ha'
    obtain h | h | h | ⟨q, hq, hm, rfl⟩ := h
    · simp [hn] at h
    · exact absurd ho h
    · simp [hr] at h
    · obtain rfl : r = q := by simpa [hr] using hq
      simp [CtlReg.writtenAt, hm] at hl
  · intro s l addr w n o r T hl ha hn ho hr hm hT
    have hw : exec (.registerWrite l addr w) s = .next (s.regWrite n r w) := by
      refine exec_registerWrite w ha hn ho hr ?_
      cases l with
      | machine => trivial
      | supervisor => simpa [CtlReg.writtenAt] using hm
      | task => exact absurd rfl hl
    rw [hw]
    refine ⟨fun h => by rw [s.regWrite_readOnly n w h], by rintro rfl; rfl, by rintro rfl; rfl, by rintro rfl; rfl, by rintro rfl; rfl, ?alertSrc, ?xintTgt,
      by rintro rfl; exact .next (s.modNode_frame n _), by rintro rfl; exact .next (s.modNode_frame n _), by rintro rfl; exact .next (s.modNode_frame n _),
      by rintro rfl; exact .next (s.modNode_frame n _), ?evc, ?windowWord1, ?windowWord0, ?aowStat, ?breakpoint, ?hbmScrub⟩
    case alertSrc =>
      rintro rfl -
      exact .next ⟨fun k hk => testBit_clearAlerts _ w hk, rfl, rfl⟩
    case xintTgt =>
      rintro i rfl
      exact .next ⟨sget_sput_same _ _ _ _, fun j hj => sget_sput_ne _ _ _ hj, rfl⟩
    case evc =>
      rintro i rfl
      subst hT
      exact .next ⟨by simp [State.regWrite, State.evc_setEvc, field], fun j hj => by simp [State.regWrite, State.evc_setEvc, hj], State.mem_setEvc ..⟩
    case windowWord1 =>
      rintro i rfl
      subst hT
      rw [(s.regWrite_window n i w).2]
      exact .next (s.modWindow_frame _ i _)
    case windowWord0 =>
      rintro i rfl rfl hr hT' hi
      rw [(s.regWrite_window _ i w).1, ← hT, exec_remoteWindowWrite s w hT' hi, if_pos hr]
    case aowStat =>
      rintro rfl
      subst hT
      rw [State.regWrite_aowStat]
      split
      · exact .next ⟨by simp, by simp, by simp, s.modTiller_frame _ _⟩
      · exact .next ⟨rfl, rfl, rfl, fun _ _ => rfl, rfl⟩
    case breakpoint =>
      rintro t j rfl hj ht
      rw [s.regWrite_breakpoint n t w hj]
      exact .next ⟨by simp, fun i hi => by simp [hi], by simp, by simp, by simp, by simp, by simp⟩
    case hbmScrub =>
      rintro i k rfl hi rfl
      rw [s.regWrite_hbmScrub w hi]
      exact .next ⟨by simp, by simp, fun j hj => s.stack_modStack_ne _ hj, rfl⟩
  · rw [exec_remoteWindowWrite s w hT hi, hr]
    rfl
  · rw [exec_remoteWindowWrite s w hT hi, if_pos hr, State.writeWindow0_eq]
    obtain ⟨he, hf⟩ := s.modWindow_frame T i (fun e => { e with w0 := windowWord0 w, w1 := e.w1Next })
    refine .next ⟨⟨?_, fun k hk h0 => ?_⟩, ?_, ?_, hf⟩
    · rw [he, getLsbD_windowWord0 w (by decide), if_pos rfl]
    · rw [he, getLsbD_windowWord0 w hk, if_neg h0]
    · rw [he]
    · rw [he]

end Sys2Proof.Machine
end

section
/-! SUPPORT. What the work of regions leaves as it was: threads, steps, channels, arrays and packets change nothing of the Keeper's side
of the state. -/

namespace Sys2Proof.Machine

/-- The Keeper's side of the state: all of it but cores, nodes, tillers and array units, memory and the caches over it, what is on its
way between them and the fabric, the stamps and samples taken of them, and the count of free values drawn. -/
def State.keeperSide (s : State) : State :=
  { s with cores := [], culm := [], nodes := [], tillers := [], units := [], mem := [], badWords := [], ceWords := [], cache := [], reqs := [],
           creditMsgs := [], chCredits := [], faultReports := [], ports := [], portNodes := [], holds := [], time := {}, samplers := [], freeCtr := 0 }

/-- A fold keeps what each of its steps keeps. -/
theorem forAll_keeps {α β : Type} {π : State → β} {f : State → α → State} (h : ∀ u a, π (f u a) = π u) (l : List α) (s : State) :
    π (forAll l s f) = π s :=
  List.foldlRecOn (motive := fun u => π u = π s) _ _ rfl fun u hu a _ => (h u a).trans hu

/-! ## Units of the state -/

theorem outsideThreads_keeperSide : OutsideThreads State.keeperSide := ⟨fun _ _ => rfl, fun _ _ => rfl, fun _ _ => rfl⟩

variable (s : State)

@[simp] theorem State.keeperSide_modCore (n : Nat) (f : Core → Core) : (s.modCore n f).keeperSide = s.keeperSide := rfl
@[simp] theorem State.keeperSide_modCulm (n : Nat) (f : CulmCore → CulmCore) : (s.modCulm n f).keeperSide = s.keeperSide := rfl
@[simp] theorem State.keeperSide_modNode (n : Nat) (f : Node → Node) : (s.modNode n f).keeperSide = s.keeperSide := rfl
@[simp] theorem State.keeperSide_modTiller (n : Nat) (f : Tiller → Tiller) : (s.modTiller n f).keeperSide = s.keeperSide := rfl
@[simp] theorem State.keeperSide_modSq (T k : Nat) (f : SqCtx → SqCtx) : (s.modSq T k f).keeperSide = s.keeperSide := rfl
@[simp] theorem State.keeperSide_modEp (T e : Nat) (f : Endpoint → Endpoint) : (s.modEp T e f).keeperSide = s.keeperSide := rfl
@[simp] theorem State.keeperSide_modInbox (T i : Nat) (f : Inbox → Inbox) : (s.modInbox T i f).keeperSide = s.keeperSide := rfl
@[simp] theorem State.keeperSide_modTh (T : Nat) (f : Thallus → Thallus) : (s.modTh T f).keeperSide = s.keeperSide := rfl
@[simp] theorem State.keeperSide_modUnit (n : Nat) (f : Unit → Unit) : (s.modUnit n f).keeperSide = s.keeperSide := rfl
@[simp] theorem State.keeperSide_modStep (r : StepRef) (f : Step → Step) : (s.modStep r f).keeperSide = s.keeperSide := rfl
@[simp] theorem State.keeperSide_modPort (n : Nat) (f : Port → Port) : (s.modPort n f).keeperSide = s.keeperSide := rfl
@[simp] theorem State.keeperSide_modPortNode (n : Nat) (f : PortNode → PortNode) : (s.modPortNode n f).keeperSide = s.keeperSide := rfl
@[simp] theorem State.keeperSide_modHold (i : Nat) (f : Hold → Hold) : (s.modHold i f).keeperSide = s.keeperSide := rfl
@[simp] theorem State.keeperSide_modSampler (n : Nat) (f : Sampler → Sampler) : (s.modSampler n f).keeperSide = s.keeperSide := rfl
@[simp] theorem State.keeperSide_setLine (l : Nat) (x : CacheLine) : (s.setLine l x).keeperSide = s.keeperSide := rfl
@[simp] theorem State.keeperSide_draw (w : Nat) : (s.draw w).2.keeperSide = s.keeperSide := rfl
@[simp] theorem State.keeperSide_stamp (n : Nat) : (s.stamp n).2.keeperSide = s.keeperSide := rfl
@[simp] theorem State.keeperSide_reportFault (T : Nat) (f : StepFault) (r : Option StepRef) : (s.reportFault T f r).keeperSide = s.keeperSide := rfl
@[simp] theorem State.keeperSide_answerCh (w : ChWaiter) (h : Nat) (b : ChBody) : (s.answerCh w h b).keeperSide = s.keeperSide := rfl
@[simp] theorem State.keeperSide_orphanReqs (t : Tid) : (s.orphanReqs t).keeperSide = s.keeperSide := rfl
@[simp] theorem State.keeperSide_abortSq (T k err : Nat) : (s.abortSq T k err).keeperSide = s.keeperSide := rfl
@[simp] theorem State.keeperSide_dogRestart (n : Nat) : (s.dogRestart n).keeperSide = s.keeperSide := rfl

@[simp] theorem State.keeperSide_modChan (c : ChanRef) (f : DmaChan → DmaChan) : (s.modChan c f).keeperSide = s.keeperSide := by
  cases c <;> rfl

@[simp] theorem State.keeperSide_modCtx (t : Tid) (f : Ctx → Ctx) : (s.modCtx t f).keeperSide = s.keeperSide :=
  outsideThreads_keeperSide.modCtx s t f
@[simp] theorem State.keeperSide_modSlot (t : Tid) (k : Nat) (f : CreditSlot → CreditSlot) : (s.modSlot t k f).keeperSide = s.keeperSide :=
  outsideThreads_keeperSide.modCtx s t _
@[simp] theorem State.keeperSide_setReg (t : Tid) (r : Reg) (v : Word) : (s.setReg t r v).keeperSide = s.keeperSide :=
  outsideThreads_keeperSide.setReg s t r v
@[simp] theorem State.keeperSide_count (n ev : Nat) (q : Nat → Bool) (k : Nat) : (s.count n ev q k).keeperSide = s.keeperSide :=
  outsideThreads_keeperSide.count s n ev q k
@[simp] theorem State.keeperSide_makeReady (t : Tid) : (s.makeReady t).keeperSide = s.keeperSide := outsideThreads_keeperSide.makeReady s t
@[simp] theorem State.keeperSide_leave (t : Tid) (st : CtxState) : (s.leave t st).keeperSide = s.keeperSide := outsideThreads_keeperSide.leave s t st
@[simp] theorem State.keeperSide_endWait (t : Tid) (r : Reg) (v : Word) : (s.endWait t r v).keeperSide = s.keeperSide :=
  outsideThreads_keeperSide.endWait s t r v

@[simp] theorem State.keeperSide_forAll {α : Type} (l : List α) {f : State → α → State} (h : ∀ u a, (f u a).keeperSide = u.keeperSide) :
    (forAll l s f).keeperSide = s.keeperSide := forAll_keeps h l s

/-! ## Memory as an agent writes it -/

@[simp] theorem State.keeperSide_writeAcc (h : Half) (a : Nat) (d : List Byte) : (s.writeAcc h a d).2.keeperSide = s.keeperSide := by
  unfold State.writeAcc
  split
  · rfl
  · split <;> rfl

@[simp] theorem State.keeperSide_culmPoke (a : Nat) (d : List Byte) : (s.culmPoke a d).keeperSide = s.keeperSide := by
  unfold State.culmPoke
  refine s.keeperSide_forAll _ fun u p => ?_
  dsimp only
  split <;> simp

@[simp] theorem State.keeperSide_writeAs (t : Tid) (a : Nat) (d : List Byte) : (s.writeAs t a d).2.keeperSide = s.keeperSide := by
  unfold State.writeAs
  split
  · simp
  · split <;> simp

variable {s}

/-- An answer that is `s` itself or keeps its Keeper's side. -/
theorem State.keeperSide_ite_snd {α : Type} {c : Prop} [Decidable c] {a : α} {r : α × State} (h : r.2.keeperSide = s.keeperSide) :
    (if c then (a, s) else r).2.keeperSide = s.keeperSide := by
  split
  · rfl
  · exact h

theorem State.keeperSide_translate {t : Tid} {lvl va a : Nat} {k : PgKind} {b : Bool} {u : State} (h : s.translate t lvl va k = .ok (a, b, u)) :
    u.keeperSide = s.keeperSide := by
  unfold State.translate at h
  dsimp only at h
  split at h
  · cases h; rfl
  split at h
  · cases h
  split at h
  · cases h
  split at h
  · cases h
  cases h
  rw [State.keeperSide_modCulm]
  exact State.keeperSide_ite_snd (s.keeperSide_writeAs ..)

theorem State.keeperSide_local {t : Tid} {lvl va a : Nat} {k : PgKind} {b : Bool} {u : State} (h : s.local t lvl va k = .ok (a, b, u)) :
    u.keeperSide = s.keeperSide := by
  unfold State.local at h
  split at h
  · cases h; rfl
  · exact State.keeperSide_translate h

/-! ## Packets and class-0 messages -/

variable (s)

@[simp] theorem State.keeperSide_putOnLink (p : Nat) (k : Packet) : (s.putOnLink p k).keeperSide = s.keeperSide := by
  unfold State.putOnLink State.transmit
  dsimp only
  split <;> simp

@[simp] theorem State.keeperSide_leaveBy (p : Nat) (k : Packet) (own : Bool) : (s.leaveBy p k own).keeperSide = s.keeperSide := by
  unfold State.leaveBy
  dsimp only
  split
  · simp
  · split <;> simp

theorem State.keeperSide_trySend {s u : State} {k : Packet} {own : Bool} (h : s.trySend k own = .gone u) : u.keeperSide = s.keeperSide := by
  unfold State.trySend State.routeSend at h
  split at h
  · cases h
    simp
  split at h
  · split at h <;> cases h
  split at h
  · cases h
  · cases h
    simp

@[simp] theorem State.keeperSide_send (h : Nat) (k : Packet) (own : Bool) : (s.send h k own).1.keeperSide = s.keeperSide := by
  unfold State.send
  split
  next hs => exact State.keeperSide_trySend hs
  · rfl
  · rfl

@[simp] theorem State.keeperSide_flyOne (src dst : Nat) (m : C0Msg) : (s.flyOne src dst m).keeperSide = s.keeperSide := by
  unfold State.flyOne
  split
  · simp
  split
  · simp
  · split <;> simp
  · split <;> simp

@[simp] theorem State.keeperSide_injectC0 (src dst : Nat) (m : C0Msg) : (s.injectC0 src dst m).1.keeperSide = s.keeperSide := by
  unfold State.injectC0 State.flyC0
  dsimp only
  split
  · simp
  split
  · simp
  · dsimp only
    split <;> simp

@[simp] theorem State.keeperSide_increment (src m t c n : Nat) : (s.increment src m t c n).1.keeperSide = s.keeperSide := by
  unfold State.increment
  split
  · simp
  · split <;> simp

/-! ## Credits -/

@[simp] theorem State.keeperSide_grantTo (T i : Nat) (who : CreditWho) (k : Nat) : (s.grantTo T i who k).keeperSide = s.keeperSide := by
  cases who with
  | slot t sl seq => rfl
  | pregrant tl sc n core => rfl
  | dma c => exact s.keeperSide_modChan c _
  | stolon port origin tag => exact s.keeperSide_send ..

@[simp] theorem State.keeperSide_serveInbox (T i fuel : Nat) : (s.serveInbox T i fuel).keeperSide = s.keeperSide := by
  induction fuel generalizing s with
  | zero => rfl
  | succ fuel ih =>
    unfold State.serveInbox
    dsimp only
    split
    · rfl
    · split
      · rfl
      · simp [ih]

@[simp] theorem State.keeperSide_returnCredits (T i gen k : Nat) : (s.returnCredits T i gen k).keeperSide = s.keeperSide := by
  unfold State.returnCredits State.setAvail
  dsimp only
  split <;> simp

@[simp] theorem State.keeperSide_releaseSlots (t : Tid) : (s.releaseSlots t).keeperSide = s.keeperSide := by
  unfold State.releaseSlots
  refine s.keeperSide_forAll _ fun u k => ?_
  dsimp only
  split <;> simp

/-! ## Exceptions in a thread -/

@[simp] theorem State.keeperSide_mailboxWake (core : Nat) : (s.mailboxWake core).keeperSide = s.keeperSide := by
  unfold State.mailboxWake
  dsimp only
  split <;> simp

@[simp] theorem State.keeperSide_writeMailbox (t : Tid) (pc addr : Word) (code orig level st : Nat) :
    (s.writeMailbox t pc addr code orig level st).keeperSide = s.keeperSide := by
  unfold State.writeMailbox
  split
  · simp
  dsimp only
  split
  · simp
  split
  · simp
  · split <;> simp

@[simp] theorem State.keeperSide_clearMailbox (t : Tid) : (s.clearMailbox t).keeperSide = s.keeperSide := by
  unfold State.clearMailbox
  split
  · dsimp only
    split <;> simp
  · rfl

@[simp] theorem State.keeperSide_fence (t : Tid) (pc addr : Word) (code orig level : Nat) : (s.fence t pc addr code orig level).keeperSide = s.keeperSide := by
  simp [State.fence]

@[simp] theorem State.keeperSide_entered (t : Tid) (e : Exc) (n p : Nat) (d : XDesc) (segs : Option Segs) (spill : Bool) (sp : Word) :
    (s.entered t e n p d segs spill sp).keeperSide = s.keeperSide := by
  unfold State.entered
  dsimp only
  split <;> simp

theorem State.keeperSide_entryWrite {s u : State} {t : Tid} {n : Nat} {g : Seg} {o : Word} {d : List Byte} (h : s.entryWrite t n g o d = some u) :
    u.keeperSide = s.keeperSide := by
  unfold State.entryWrite at h
  split at h
  · cases h
  next hl =>
    dsimp only at h
    split at h
    · cases h
    · cases h
      rw [State.keeperSide_writeAs, State.keeperSide_local hl]

/-- A write that an entry makes only where `c` holds. -/
theorem State.keeperSide_ite_entryWrite {s u : State} {c : Prop} [Decidable c] {t : Tid} {n : Nat} {g : Seg} {o : Word} {d : List Byte}
    (h : (if c then s.entryWrite t n g o d else some s) = some u) : u.keeperSide = s.keeperSide := by
  split at h
  · exact State.keeperSide_entryWrite h
  · cases h
    rfl

theorem State.keeperSide_tryEnter {s u : State} {t : Tid} {e : Exc} {n p : Nat} {d : XDesc} (h : s.tryEnter t e n p d = .done u) :
    u.keeperSide = s.keeperSide := by
  unfold State.tryEnter at h
  dsimp only at h
  split at h
  · cases h
  split at h
  · cases h
  split at h
  · cases h
  next h1 =>
    split at h
    · cases h
    next h2 =>
      cases h
      rw [State.keeperSide_entered, State.keeperSide_ite_entryWrite h2, State.keeperSide_ite_entryWrite h1]

@[simp] theorem State.keeperSide_badDescriptor (t : Tid) (e : Exc) (p addr : Nat) : (s.badDescriptor t e p addr).keeperSide = s.keeperSide := by
  unfold State.badDescriptor
  dsimp only
  split
  · simp
  split
  · simp
  split
  next hd => exact State.keeperSide_tryEnter hd
  · simp
  · simp

@[simp] theorem State.keeperSide_stackEntry (t : Tid) (e : Exc) (n p det : Nat) (sp : Word) : (s.stackEntry t e n p det sp).keeperSide = s.keeperSide := by
  unfold State.stackEntry
  split
  · simp
  dsimp only
  split
  · simp
  split
  next hd => exact State.keeperSide_tryEnter hd
  · simp
  · simp

@[simp] theorem State.keeperSide_raise (t : Tid) (e : Exc) : (s.raise t e).keeperSide = s.keeperSide := by
  unfold State.raise State.raiseX State.enterUnder
  split
  · split
    · simp
    · dsimp only
      split
      next hd => exact State.keeperSide_tryEnter hd
      · simp
      · simp
  · simp

@[simp] theorem State.keeperSide_raiseWaiting (t : Tid) (e : Exc) : (s.raiseWaiting t e).keeperSide = s.keeperSide := by
  unfold State.raiseWaiting
  dsimp only
  split <;> simp

end Sys2Proof.Machine
end

section
/-! SUPPORT. The Keeper's side of the state under DMA channels, threads that start, wait and end, steps and arrays. -/

namespace Sys2Proof.Machine

variable (s : State)

/-! ## DMA channels -/

@[simp] theorem State.keeperSide_dropCredits (c : ChanRef) : (s.dropCredits c).keeperSide = s.keeperSide := by
  unfold State.dropCredits
  dsimp only
  split <;> simp

@[simp] theorem State.keeperSide_dropReserved (bs : List Burst) : (s.dropReserved bs).keeperSide = s.keeperSide := by
  unfold State.dropReserved
  refine s.keeperSide_forAll _ fun u b => ?_
  split <;> simp

@[simp] theorem State.keeperSide_pulse (core e : Nat) : (s.pulse core e).keeperSide = s.keeperSide := by
  unfold State.pulse
  dsimp only
  split
  · simp
  · split <;> simp

@[simp] theorem State.keeperSide_dmaInt (c : ChanRef) (d : Desc) (off : Nat) : (s.dmaInt c d off).keeperSide = s.keeperSide := by
  unfold State.dmaInt State.dmaPoint
  dsimp only
  split <;> simp

@[simp] theorem State.keeperSide_dmaFull (c : ChanRef) (d : Desc) : (s.dmaFull c d).keeperSide = s.keeperSide := by
  unfold State.dmaFull State.dmaTrigger
  dsimp only
  split
  · rw [State.keeperSide_dmaInt]
    split
    · simp
    · split <;> simp
  · split
    · simp
    · split <;> simp

@[simp] theorem State.keeperSide_dmaEvc (c : ChanRef) (d : Desc) : (s.dmaEvc c d).1.keeperSide = s.keeperSide := by
  unfold State.dmaEvc
  dsimp only
  split
  · split
    · simp
    · refine List.foldlRecOn (motive := fun r : State × Bool => r.1.keeperSide = s.keeperSide) _ _ rfl fun r hr p _ => ?_
      simp [hr]
  · simp

@[simp] theorem State.keeperSide_dmaStepError (step : Option StepRef) (code : Nat) : (s.dmaStepError step code).keeperSide = s.keeperSide := by
  unfold State.dmaStepError
  split
  · rfl
  · split <;> simp

@[simp] theorem State.keeperSide_fireRun (c : ChanRef) (n : Nat) : (s.fireRun c n).keeperSide = s.keeperSide := by
  unfold State.fireRun State.modRun
  split
  · rfl
  · split
    · dsimp only
      simp only [apply_ite State.keeperSide, State.keeperSide_dmaStepError, State.keeperSide_modChan, State.keeperSide_dmaEvc, State.keeperSide_dmaFull,
        State.keeperSide_dmaInt, ite_self]
    · rfl

@[simp] theorem State.keeperSide_chainDone (c : ChanRef) (step : Option StepRef) : (s.chainDone c step).keeperSide = s.keeperSide := by
  unfold State.chainDone
  split
  · rfl
  · dsimp only
    split <;> simp

@[simp] theorem State.keeperSide_dmaSettle (c : ChanRef) : (s.dmaSettle c).keeperSide = s.keeperSide := by
  unfold State.dmaSettle
  dsimp only
  rw [State.keeperSide_forAll _ _ fun u r => u.keeperSide_chainDone c r]
  split <;> simp

@[simp] theorem State.keeperSide_dmaDisable (c : ChanRef) : (s.dmaDisable c).keeperSide = s.keeperSide := by
  unfold State.dmaDisable
  dsimp only
  split <;> simp

/-! ## Channels of threads -/

@[simp] theorem State.keeperSide_serveEp (T e : Nat) : (s.serveEp T e).keeperSide = s.keeperSide := by
  unfold State.serveEp
  refine s.keeperSide_forAll _ fun u w => ?_
  split
  · dsimp only
    split <;> simp
  · rfl

@[simp] theorem State.keeperSide_returnChCredit (h : Nat) : (s.returnChCredit h).keeperSide = s.keeperSide := by
  simp [State.returnChCredit]

@[simp] theorem State.keeperSide_disown (t : Tid) (T e : Nat) : (s.disown t T e).keeperSide = s.keeperSide := by
  unfold State.disown
  split <;> simp

@[simp] theorem State.keeperSide_releaseChannels (t : Tid) : (s.releaseChannels t).keeperSide = s.keeperSide := by
  unfold State.releaseChannels
  dsimp only
  rw [State.keeperSide_forAll _ _ fun u p => by simp]
  refine (State.keeperSide_modCtx _ t _).trans ?_
  split <;> simp

/-! ## Gangs -/

@[simp] theorem State.keeperSide_dissolve (core : Nat) : (s.dissolve core).keeperSide = s.keeperSide := by
  unfold State.dissolve
  dsimp only
  rw [State.keeperSide_forAll, State.keeperSide_forAll]
  · simp
  · intro u t
    split <;> simp

@[simp] theorem State.keeperSide_dropGangMmas (t : Tid) : (s.dropGangMmas t).keeperSide = s.keeperSide := by
  unfold State.dropGangMmas
  refine s.keeperSide_forAll _ fun u l => u.keeperSide_forAll _ fun u c => ?_
  dsimp only
  rw [State.keeperSide_forAll, State.keeperSide_modCore]
  intro u k
  split <;> simp

@[simp] theorem State.keeperSide_formGang (quad mask : Nat) : (s.formGang quad mask).keeperSide = s.keeperSide := by
  unfold State.formGang
  dsimp only
  split <;> simp

@[simp] theorem State.keeperSide_leaveGang (t : Tid) : (s.leaveGang t).keeperSide = s.keeperSide := by
  unfold State.leaveGang
  split
  · split <;> simp
  · rfl

/-! ## Threads that end -/

@[simp] theorem State.keeperSide_leaveStep (t : Tid) (code : Option Nat) : (s.leaveStep t code).keeperSide = s.keeperSide := by
  unfold State.leaveStep
  dsimp only
  cases (s.ctx t).step with
  | none => rfl
  | some r =>
    cases code with
    | none => cases (s.ctx t).dup <;> simp
    | some k =>
      cases (s.ctx t).dup with
      | false => simp [apply_ite State.keeperSide]
      | true =>
        dsimp only
        rw [State.keeperSide_modStep]
        split <;> simp [apply_ite State.keeperSide]

@[simp] theorem State.keeperSide_loadPregrant (r : StepRef) (x : Step) (t : Tid) : (s.loadPregrant r x t).keeperSide = s.keeperSide := by
  unfold State.loadPregrant
  dsimp only
  split
  · simp
  · split <;> simp

@[simp] theorem State.keeperSide_serveFork (r : StepRef) (c : Nat) (twin : Bool) : (s.serveFork r c twin).keeperSide = s.keeperSide := by
  unfold State.serveFork
  dsimp only
  split
  · rfl
  split
  · rfl
  split
  · rfl
  · rw [State.keeperSide_makeReady]
    split <;> simp

@[simp] theorem State.keeperSide_serveForks (core : Nat) : (s.serveForks core).keeperSide = s.keeperSide := by
  simp [State.serveForks]

@[simp] theorem State.keeperSide_wakeJoins (core : Nat) : (s.wakeJoins core).keeperSide = s.keeperSide := by
  unfold State.wakeJoins
  refine s.keeperSide_forAll _ fun u j => ?_
  dsimp only
  split
  · split <;> simp
  · rfl

@[simp] theorem State.keeperSide_kill (t : Tid) : (s.kill t).keeperSide = s.keeperSide := by
  unfold State.kill State.endThread
  split
  · rfl
  · simp

@[simp] theorem State.keeperSide_killQuiet (t : Tid) : (s.killQuiet t).keeperSide = s.keeperSide := by
  unfold State.killQuiet
  dsimp only
  split <;> simp

@[simp] theorem State.keeperSide_stopCtx0 (core : Nat) : (s.stopCtx0 core).keeperSide = s.keeperSide := by
  simp [State.stopCtx0]

@[simp] theorem State.keeperSide_startCtx0 (core : Nat) : (s.startCtx0 core).keeperSide = s.keeperSide := by
  unfold State.startCtx0
  dsimp only
  split
  · split <;> simp
  · simp

/-! ## Steps, schedule contexts and arrays -/

@[simp] theorem State.keeperSide_unlaunch (r : StepRef) (x : Step) : (s.unlaunch r x).keeperSide = s.keeperSide := by
  unfold State.unlaunch
  dsimp only
  rw [State.keeperSide_modStep]
  split
  · split <;> simp
  · simp

@[simp] theorem State.keeperSide_purgeSq (T : Nat) : (s.purgeSq T).keeperSide = s.keeperSide := by
  simp [State.purgeSq]

@[simp] theorem State.keeperSide_cntReset (n : Nat) : (s.cntReset n).keeperSide = s.keeperSide := by
  unfold State.cntReset
  dsimp only
  rw [State.keeperSide_forAll, State.keeperSide_modNode]
  intro u i
  split
  · split <;> simp
  · rfl

@[simp] theorem State.keeperSide_sqCommand (T k op : Nat) : (s.sqCommand T k op).keeperSide = s.keeperSide := by
  unfold State.sqCommand State.startSq
  split
  · dsimp only
    split <;> simp
  · simp
  · simp
  · simp
  · rfl

@[simp] theorem State.keeperSide_arrayStop (r err : Nat) : (s.arrayStop r err).keeperSide = s.keeperSide := by
  unfold State.arrayStop State.purgeStart
  dsimp only
  split
  · rw [State.keeperSide_modTh]
    exact s.keeperSide_forAll _ fun u T => u.keeperSide_modTh T _
  · rfl

@[simp] theorem State.keeperSide_waveCommand (r op : Nat) : (s.waveCommand r op).keeperSide = s.keeperSide := by
  unfold State.waveCommand
  dsimp only
  split
  · split
    · rw [State.keeperSide_modTh]
      exact s.keeperSide_forAll _ fun u n => u.keeperSide_modUnit n _
    · rfl
  · simp
  · simp
  · simp
  · rfl

end Sys2Proof.Machine
end

section
/-! SUPPORT. What DRAIN, RESUME and PURGE change of the regions of a mask, and the schedule contexts that DRAIN stops. -/

namespace Sys2Proof.Machine

/-! ## Folds over units -/

/-- A fold in which the step for `a` turns `P` into `Q`, no other step ends `P` and no step ends `Q`. -/
theorem forAll_reaches {α : Type} {f : State → α → State} {P Q : State → Prop} {a : α} (hP : ∀ u b, b ≠ a → P u → P (f u b)) (ha : ∀ u, P u → Q (f u a))
    (hQ : ∀ u b, Q u → Q (f u b)) {l : List α} {s : State} (hl : a ∈ l) (hs : P s) : Q (forAll l s f) := by
  induction l generalizing s with
  | nil => simp at hl
  | cons b l ih =>
    by_cases hb : b = a
    · subst hb
      exact List.foldlRecOn (motive := Q) l f (ha s hs) fun u hu c _ => hQ u c hu
    · exact ih ((List.mem_cons.mp hl).resolve_left (Ne.symm hb)) (hP s b hb hs)

/-- A fold whose steps change a part of the state by an idempotent `g`, or leave it as it is. -/
theorem forAll_applies {α β : Type} {f : State → α → State} {π : State → β} {g : β → β} (hg : ∀ x, g (g x) = g x) {c : α → Prop} [DecidablePred c]
    (h : ∀ u a, π (f u a) = if c a then g (π u) else π u) (l : List α) (s : State) :
    π (forAll l s f) = if ∃ a ∈ l, c a then g (π s) else π s := by
  induction l generalizing s with
  | nil => simp [forAll]
  | cons a l ih =>
    show π (forAll l (f s a) f) = _
    rw [ih, h]
    by_cases ha : c a
    · by_cases hl : ∃ b ∈ l, c b <;> simp [ha, hl, hg]
    · simp [ha]

/-! ## One region -/

/-- The Keeper's side but for the regions. -/
def State.keeperRest (s : State) : State := { s.keeperSide with regions := [] }

/-- Of the Keeper's side at most region `r` has changed: it has entered state `st` where `p` holds of it. -/
def State.movesRegion (s u : State) (r : Nat) (p : Region → Bool) (st : RegState) : Prop :=
  (p (s.region r) = true → u.keeperSide = (s.modRegion r (fun x => { x with st := st })).keeperSide) ∧
  (p (s.region r) = false → u.keeperSide = s.keeperSide)

section
variable {s u : State} {r : Nat} {p : Region → Bool} {st : RegState}

theorem State.region_of_keeperSide (h : u.keeperSide = s.keeperSide) (k : Nat) : u.region k = s.region k := by
  show u.keeperSide.region k = s.keeperSide.region k
  rw [h]

theorem State.keeperSide_modRegion_congr (h : u.keeperSide = s.keeperSide) (f : Region → Region) :
    (u.modRegion r f).keeperSide = (s.modRegion r f).keeperSide :=
  congrArg (State.modRegion · r f) h

theorem State.movesRegion.region (h : s.movesRegion u r p st) (k : Nat) :
    u.region k = if k = r ∧ p (s.region k) then { s.region k with st := st } else s.region k := by
  obtain ⟨hp, hn⟩ := h
  cases hb : p (s.region r) with
  | true =>
    rw [State.region_of_keeperSide (hp hb)]
    by_cases hk : k = r
    · simp [hk, hb]
    · simp [hk]
  | false =>
    rw [State.region_of_keeperSide (hn hb), if_neg]
    rintro ⟨rfl, hk⟩
    simp [hb] at hk

theorem State.movesRegion.keeperRest (h : s.movesRegion u r p st) : u.keeperRest = s.keeperRest := by
  cases hb : p (s.region r) with
  | true => exact congrArg (fun v : State => { v with regions := [] }) (h.1 hb)
  | false => exact congrArg (fun v : State => { v with regions := [] }) (h.2 hb)

end

/-- Whether DRAIN acts on a region (R76). -/
def Region.drains (x : Region) : Bool := x.st = .serving
/-- Whether RESUME acts on a region (R74). -/
def Region.resumes (x : Region) : Bool := x.st = .draining || (x.st = .quiescent && x.mode ≠ 0)
/-- Whether PURGE acts on a region (R77). -/
def Region.purges (x : Region) : Bool := x.st = .serving || x.st = .draining

/-- A schedule context that runs stops (R284). -/
def SqCtx.stop (q : SqCtx) : SqCtx := if q.st = .running then { q with st := .stopped } else q

/-- A wave controller that runs stops, at once or after its replay (R305). -/
def Tiller.stopArray (x : Tiller) : Tiller :=
  if x.th.st = .running then { x with th := { x.th with st := .stopped } }
  else if x.th.st = .replaying then { x with th := { x.th with stopAfter := true } } else x

/-- What DRAIN does to the sequencer and the wave controller of a tiller (R284, R305). -/
def State.stopTiller (s : State) (T : Nat) : State :=
  (forAll (List.range 8) s (fun s k => s.modSq T k SqCtx.stop)).modTiller T Tiller.stopArray

theorem State.drainRegion_eq (s : State) (r : Nat) :
    s.drainRegion r = if (s.region r).st ≠ .serving then s
      else forAll (s.regionTillers r) (s.modRegion r (fun x => { x with st := .draining })) State.stopTiller := rfl

@[simp] theorem State.keeperSide_stopTiller (s : State) (T : Nat) : (s.stopTiller T).keeperSide = s.keeperSide := by
  unfold State.stopTiller
  rw [State.keeperSide_modTiller]
  exact s.keeperSide_forAll _ fun u k => u.keeperSide_modSq T k _

theorem State.movesRegion_drainRegion (s : State) (r : Nat) : s.movesRegion (s.drainRegion r) r Region.drains .draining := by
  rw [State.drainRegion_eq]
  constructor
  · intro h
    have hst : (s.region r).st = .serving := by simpa [Region.drains] using h
    simp [hst]
  · intro h
    have hst : (s.region r).st ≠ .serving := by simpa [Region.drains] using h
    simp [hst]

theorem State.movesRegion_resumeRegion (s : State) (r : Nat) : s.movesRegion (s.resumeRegion r) r Region.resumes .serving := by
  have hr : s.resumeRegion r = if !(s.region r).resumes then s else _ := rfl
  constructor
  · intro h
    rw [hr, h, if_neg (by simp), State.keeperSide_forAll]
    · split <;> simp
    · intro u c
      split <;> simp
  · intro h
    rw [hr, h, if_pos (by simp)]

theorem State.movesRegion_purgeRegion (s : State) (r : Nat) : s.movesRegion (s.purgeRegion r) r Region.purges .quiescent := by
  unfold State.purgeRegion
  constructor
  · intro h
    have hst : (s.region r).st = .serving ∨ (s.region r).st = .draining := by simpa [Region.purges] using h
    rw [if_neg fun hn => hst.elim hn.1 hn.2]
    refine State.keeperSide_modRegion_congr ?_ _
    split
    · rw [State.keeperSide_arrayStop]
      exact s.keeperSide_forAll _ fun u T => by simp
    · exact s.keeperSide_forAll _ fun u T => by simp
  · intro h
    rw [if_pos (by simpa [Region.purges] using h)]

/-! ## The regions of a mask -/

section
variable {f : State → Nat → State} {p : Region → Bool} {st : RegState}

theorem State.region_forAll_moves (hf : ∀ (s : State) r, s.movesRegion (f s r) r p st) (s : State) (l : List Nat) (r : Nat) :
    (forAll l s f).region r = if r ∈ l ∧ p (s.region r) then { s.region r with st := st } else s.region r := by
  induction l generalizing s with
  | nil => simp [forAll]
  | cons a l ih =>
    show (forAll l (f s a) f).region r = _
    rw [ih, (hf s a).region]
    by_cases hra : r = a
    · by_cases hp : p (s.region a) = true <;> simp [hra, hp]
    · simp [hra]

theorem State.keeperRest_forAll_moves (hf : ∀ (s : State) r, s.movesRegion (f s r) r p st) (s : State) (l : List Nat) :
    (forAll l s f).keeperRest = s.keeperRest :=
  forAll_keeps (fun u r => (hf u r).keeperRest) l s

end

theorem mem_bitsOf {n w k : Nat} : k ∈ bitsOf n w ↔ k < n ∧ w.testBit k = true := by
  simp [bitsOf]

/-! ## DRAIN -/

theorem State.mem_stopTiller (s : State) (T : Nat) : (s.stopTiller T).mem = s.mem := by
  unfold State.stopTiller
  rw [State.mem_modTiller]
  exact forAll_keeps (π := State.mem) (fun u k => u.mem_modTiller T _) _ _

theorem State.mem_drainRegion (s : State) (r : Nat) : (s.drainRegion r).mem = s.mem := by
  rw [State.drainRegion_eq]
  split
  · rfl
  · exact forAll_keeps (π := State.mem) State.mem_stopTiller _ _

theorem SqCtx.stop_stop (q : SqCtx) : q.stop.stop = q.stop := by
  unfold SqCtx.stop
  split <;> simp_all

theorem SqCtx.st_stop {q : SqCtx} (h : q.st = .running) : q.stop.st = .stopped := by
  simp [SqCtx.stop, h]

theorem State.sq_modSq (s : State) (T k T' k' : Nat) (f : SqCtx → SqCtx) :
    (s.modSq T k f).sq T' k' = if T' = T ∧ k' = k then f (s.sq T' k') else s.sq T' k' := by
  unfold State.sq State.modSq
  by_cases hT : T' = T
  · by_cases hk : k' = k
    · simp [hT, hk]
    · simp [hT, hk]
  · simp [hT]

theorem Tiller.sq_stopArray (x : Tiller) : x.stopArray.sq = x.sq := by
  unfold Tiller.stopArray
  split
  · rfl
  · split <;> rfl

theorem State.sq_modTiller_of_sq (s : State) (T T' k : Nat) {f : Tiller → Tiller} (hf : ∀ x, (f x).sq = x.sq) :
    (s.modTiller T f).sq T' k = s.sq T' k := by
  unfold State.sq
  by_cases hT : T' = T
  · rw [hT, State.tiller_modTiller_same, hf]
  · rw [State.tiller_modTiller_ne _ _ hT]

theorem State.sq_stopTiller (s : State) (T T' k : Nat) :
    (s.stopTiller T).sq T' k = if T' = T ∧ k < 8 then (s.sq T' k).stop else s.sq T' k := by
  have hk : (∃ j ∈ List.range 8, T' = T ∧ k = j) ↔ T' = T ∧ k < 8 :=
    ⟨fun ⟨_, hj, hT, hk⟩ => ⟨hT, hk ▸ List.mem_range.mp hj⟩, fun ⟨hT, hk⟩ => ⟨k, List.mem_range.mpr hk, hT, rfl⟩⟩
  unfold State.stopTiller
  rw [State.sq_modTiller_of_sq _ _ _ _ Tiller.sq_stopArray,
    forAll_applies (π := fun u => u.sq T' k) SqCtx.stop_stop (c := fun j => T' = T ∧ k = j) fun u j => u.sq_modSq T j T' k _]
  simp only [hk]

theorem State.sq_drainRegion (s : State) (r T k : Nat) :
    (s.drainRegion r).sq T k = if (s.region r).st = .serving ∧ T ∈ s.regionTillers r ∧ k < 8 then (s.sq T k).stop else s.sq T k := by
  have hT : (∃ T' ∈ s.regionTillers r, T = T' ∧ k < 8) ↔ T ∈ s.regionTillers r ∧ k < 8 :=
    ⟨fun ⟨_, hm, hT, hk⟩ => ⟨hT ▸ hm, hk⟩, fun ⟨hm, hk⟩ => ⟨T, hm, rfl, hk⟩⟩
  rw [State.drainRegion_eq]
  by_cases h : (s.region r).st = .serving
  · rw [if_neg (fun hn => hn h), forAll_applies (π := fun u => u.sq T k) SqCtx.stop_stop (c := fun T' => T = T' ∧ k < 8) fun u T' => u.sq_stopTiller T' T k]
    simp only [hT, h, true_and]
    rfl
  · simp [h]

/-- DRAIN of a mask stops the running schedule contexts of every SERVING region that it names. -/
theorem State.sq_forAll_drainRegion {s : State} {l : List Nat} {r T k : Nat} (hr : r ∈ l) (hst : (s.region r).st = .serving) (hT : T ∈ s.regionTillers r)
    (hk : k < 8) : (forAll l s State.drainRegion).sq T k = (s.sq T k).stop := by
  refine forAll_reaches (P := fun u => u.region r = s.region r ∧ (u.sq T k = s.sq T k ∨ u.sq T k = (s.sq T k).stop))
    (Q := fun u => u.sq T k = (s.sq T k).stop) (a := r) ?_ ?_ ?_ hr ⟨rfl, .inl rfl⟩
  · rintro u b hb ⟨hu, hq⟩
    refine ⟨by rw [(u.movesRegion_drainRegion b).region, if_neg fun h => hb h.1.symm, hu], ?_⟩
    rw [State.sq_drainRegion]
    split
    · obtain hq | hq := hq <;> simp [hq, SqCtx.stop_stop]
    · exact hq
  · rintro u ⟨hu, hq⟩
    have hT' : T ∈ u.regionTillers r := by
      unfold State.regionTillers
      rwa [hu]
    rw [State.sq_drainRegion, hu, if_pos ⟨hst, hT', hk⟩]
    obtain hq | hq := hq <;> simp [hq, SqCtx.stop_stop]
  · intro u b hq
    rw [State.sq_drainRegion]
    split <;> simp [hq, SqCtx.stop_stop]

end Sys2Proof.Machine
end

section
/-! SUPPORT. How the Keeper carries a loader command out, and what the events of a load do to its regions. -/

namespace Sys2Proof.Machine

/-! ## The Keeper carries a command out -/

/-- The state with a loader command written and waiting. -/
def State.thlAsked (s : State) (op : Nat) (p : Bool) (m : Nat) : State :=
  { s with loader := { s.loader with op := op, purgeBit := p, mask := m, busy := true, waiting := true } }

/-- The state with a loader command being carried out. -/
def State.thlBegun (s : State) (op : Nat) (p : Bool) (m : Nat) : State :=
  { s with loader := { s.loader with op := op, purgeBit := p, mask := m, busy := true, waiting := false } }

/-- The state after a loader command has ended with an outcome. -/
def State.thlEnded (s : State) (e : Refuse) : State := (s.loadStatus e).loadIdle

theorem field_thlWord (op : Nat) (p : Bool) (m : BitVec 16) (h : op < 8) :
    field (thlWord op p m) 0 3 = op ∧ bit (thlWord op p m) 3 = p ∧ field (thlWord op p m) 16 16 = m.toNat := by
  have hm := m.isLt
  have hp : b2n p = if p then 1 else 0 := rfl
  have hw : (thlWord op p m).toNat = op + b2n p * 8 + m.toNat * 65536 := by
    unfold thlWord word
    rw [BitVec.toNat_ofNat, Nat.mod_eq_of_lt]
    cases p <;> simp [hp] <;> omega
  refine ⟨?_, ?_, ?_⟩
  · unfold field
    rw [hw]
    cases p <;> simp [hp] <;> omega
  · unfold bit
    rw [hw, Nat.testBit_eq_decide_div_mod_eq]
    cases p <;> simp [hp] <;> omega
  · unfold field
    rw [hw, Nat.shiftRight_eq_div_pow]
    cases p <;> simp [hp] <;> omega

theorem State.writeThlCmd_thlWord {s : State} {op : Nat} (p : Bool) (m : BitVec 16) (hb : s.loader.busy = false) (h0 : op ≠ 0) (h4 : op ≤ 4) :
    s.writeThlCmd (thlWord op p m) = (s.thlAsked op p m.toNat).keeperNext := by
  obtain ⟨hop, hp, hm⟩ := field_thlWord op p m (by omega)
  unfold State.writeThlCmd
  rw [hop, hp, hm, if_neg (by simp [hb])]
  exact if_neg (by omega)

/-- With nothing that waits the Keeper takes up nothing. -/
theorem State.keeperNext_nothing {s : State} (hw : s.loader.waiting = false) (hd : s.rel.wdrDue = none) (hr : s.boot.rstBusy = false)
    (hh : s.halfBusy = false) : s.keeperNext = s := by
  simp [State.keeperNext, State.keeperFree, hw, hd, hr, hh]

/-- The Keeper carries out the command that waits, and then goes on. -/
theorem State.keeperNext_thlRun {s : State} (hw : s.loader.waiting = true) (hd : s.rel.wdr = .none) (hv : s.thlRun.loader.waiting = false) :
    s.keeperNext = s.thlRun.keeperNext := by
  simp [State.keeperNext, State.keeperIdle, hw, hd, hv]

/-- What `State.keeperClear` says, one clause at a time. -/
theorem State.keeperClear_iff {s : State} : s.keeperClear = true ↔
    s.up = true ∧ s.blocked .west = false ∧ s.loader.busy = false ∧ s.loader.waiting = false ∧ s.loader.isReset = false ∧ s.rel.wdr = .none ∧
      s.rel.wdrDue = none ∧ s.boot.rstBusy = false ∧ s.halfBusy = false := by
  simp [State.keeperClear, and_assoc]

theorem State.loader_thlEnded (s : State) (e : Refuse) :
    (s.thlEnded e).loader.busy = false ∧ (s.thlEnded e).loader.waiting = false ∧ (s.thlEnded e).loader.code = e.code := by
  unfold State.thlEnded State.loadIdle
  dsimp only
  split <;> exact ⟨rfl, rfl, rfl⟩

/-- The end of a command that no reset carries changes the loader alone. -/
theorem State.thlEnded_eq {s : State} (h : s.loader.isReset = false) (e : Refuse) : s.thlEnded e = { s with loader := (s.thlEnded e).loader } := by
  have hr : (s.loadStatus e).loader.isReset = false := h
  simp [State.thlEnded, State.loadIdle, hr]
  rfl

theorem State.fields_of_keeperRest {s u : State} (h : u.keeperRest = s.keeperRest) :
    u.loader = s.loader ∧ u.rel = s.rel ∧ u.boot = s.boot ∧ u.halfBusy = s.halfBusy := by
  have hloader := congrArg State.loader h
  have hrel := congrArg State.rel h
  have hboot := congrArg State.boot h
  have hhalf := congrArg State.halfBusy h
  exact ⟨hloader, hrel, hboot, hhalf⟩

/-- A command that ends with nothing else waiting leaves the Keeper idle. -/
theorem State.keeperNext_of_ends {s v : State} {e : Refuse} (hc : s.keeperClear = true) {op : Nat} {p : Bool} {m : Nat}
    (hrun : (s.thlAsked op p m).thlRun = v.thlEnded e) (hl : v.loader.isReset = s.loader.isReset) (hrel : v.rel = s.rel) (hboot : v.boot = s.boot)
    (hbusy : v.halfBusy = s.halfBusy) :
    (s.thlAsked op p m).keeperNext = v.thlEnded e := by
  obtain ⟨-, -, -, -, hreset, hwdr, hdue, hrst, hhalf⟩ := State.keeperClear_iff.mp hc
  obtain ⟨-, hw, -⟩ := v.loader_thlEnded e
  have he := State.thlEnded_eq (hl.trans hreset) e
  have hnext := State.keeperNext_thlRun (s := s.thlAsked op p m) rfl hwdr (hrun ▸ hw)
  rw [hnext, hrun]
  refine State.keeperNext_nothing hw ?_ ?_ ?_ <;> rw [he]
  · exact (congrArg Rel.wdrDue hrel).trans hdue
  · exact (congrArg Boot.rstBusy hboot).trans hrst
  · exact hbusy.trans hhalf

/-! ## DRAIN, RESUME and PURGE -/

/-- What a loader command that is not LOAD does to each region of its mask. -/
def State.regionCmd (op : Nat) : State → Nat → State :=
  match op with
  | 1 => State.drainRegion
  | 2 => State.resumeRegion
  | _ => State.purgeRegion

theorem State.thlRun_regionCmd {s : State} {op m : Nat} {p : Bool} (hop : op ≠ 3) (hb : s.blocked .west = false) : (s.thlAsked op p m).thlRun =
    (forAll (bitsOf 16 m) (s.thlBegun op p m) (State.regionCmd op)).thlEnded ⟨0, 0, 0⟩ := by
  have hb' : ¬(s.thlAsked op p m).blocked .west = true := by simpa using (show (s.thlAsked op p m).blocked .west = false from hb)
  unfold State.thlRun State.regionCmd
  dsimp only
  rw [if_neg (show ¬(s.thlAsked op p m).loader.op = 3 from hop), if_neg hb']
  show (match op with | 1 => _ | 2 => _ | _ => _) = _
  split <;> rfl

section
variable {s : State} (m : BitVec 16)

theorem State.exec_thlCmd {c : Instr} {op : Nat} {p : Bool} (hc : s.keeperClear = true) (h0 : op ≠ 0) (h4 : op ≤ 4)
    (hx : exec c s = .next (if s.up then s.writeThlCmd (thlWord op p m) else s)) : exec c s = .next (s.thlAsked op p m.toNat).keeperNext := by
  obtain ⟨hup, -, hb, -⟩ := State.keeperClear_iff.mp hc
  rw [hx, if_pos hup, State.writeThlCmd_thlWord p m hb h0 h4]

/-- A command over regions, carried out with nothing else in the Keeper's hand: the regions of the mask change, and the command ends with
code 0. -/
theorem State.exec_regionCmd {c : Instr} {op : Nat} {g : Region → Bool} {st : RegState} (hc : s.keeperClear = true) (h0 : op ≠ 0) (h3 : op ≠ 3) (h4 : op ≤ 4)
    (hf : ∀ (s : State) r, s.movesRegion (State.regionCmd op s r) r g st)
    (hx : exec c s = .next (if s.up then s.writeThlCmd (thlWord op false m) else s)) :
    ∃ l : Loader, l.busy = false ∧ l.code = 0 ∧
      exec c s = .next { forAll (bitsOf 16 m.toNat) (s.thlBegun op false m.toNat) (State.regionCmd op) with loader := l } := by
  have hk := State.keeperRest_forAll_moves hf (s.thlBegun op false m.toNat) (bitsOf 16 m.toNat)
  obtain ⟨-, hb, -, -, hreset, -⟩ := State.keeperClear_iff.mp hc
  obtain ⟨hl, hrel, hboot, hbusy'⟩ := State.fields_of_keeperRest hk
  have hl' := congrArg Loader.isReset hl
  obtain ⟨hbusy, -, hcode⟩ := State.loader_thlEnded (forAll (bitsOf 16 m.toNat) (s.thlBegun op false m.toNat) (State.regionCmd op)) ⟨0, 0, 0⟩
  refine ⟨_, hbusy, hcode, ?_⟩
  rw [State.exec_thlCmd m hc h0 h4 hx, State.keeperNext_of_ends hc (State.thlRun_regionCmd h3 hb) hl' hrel hboot hbusy']
  exact congrArg _ (State.thlEnded_eq (hl'.trans hreset) _)

/-- What such a command leaves of a region. -/
theorem State.region_forAll_thlBegun {f : State → Nat → State} {g : Region → Bool} {st : RegState} (hf : ∀ (s : State) r, s.movesRegion (f s r) r g st) (op r : Nat)
    (hr : r < 16) : (forAll (bitsOf 16 m.toNat) (s.thlBegun op false m.toNat) f).region r =
      if m.getLsbD r = true ∧ g (s.region r) = true then { s.region r with st := st } else s.region r := by
  rw [State.region_forAll_moves hf]
  simp only [mem_bitsOf, hr, true_and]
  rfl

end

/-! ## LOAD -/

/-- The state in which an image is checked. -/
def State.loadBegun (s : State) (p : Bool) (m : Nat) : State :=
  { s with loader := { s.loader with op := 3, purgeBit := p, mask := m, busy := true, waiting := false, skipped := 0 } }

section
variable {s : State} {p : Bool} {m : Nat}

theorem State.thlRun_load_ok {v : State} (hi : (s.loadBegun p m).imageGo m p s.loader.src = .ok v) : (s.thlAsked 3 p m).thlRun = v := by
  unfold State.thlRun
  dsimp only
  rw [if_pos (show (s.thlAsked 3 p m).loader.op = 3 from rfl)]
  split
  next w hw => exact Except.ok.inj (hw.symm.trans hi)
  next e he => exact absurd (he.symm.trans hi) (by simp)

theorem State.thlRun_load_error {e : Refuse} (hi : (s.loadBegun p m).imageGo m p s.loader.src = .error e) :
    (s.thlAsked 3 p m).thlRun = (s.loadBegun p m).thlEnded e := by
  unfold State.thlRun
  dsimp only
  rw [if_pos (show (s.thlAsked 3 p m).loader.op = 3 from rfl)]
  split
  next w hw => exact absurd (hw.symm.trans hi) (by simp)
  next e' he =>
    obtain rfl := Except.error.inj (he.symm.trans hi)
    rfl

end

/-- LOAD of an image that is accepted answers with the image taken (R81). -/
theorem State.exec_thlLoad_ok {s v : State} {m : BitVec 16} {p : Bool} (hc : s.keeperClear = true)
    (hi : (s.loadBegun p m.toNat).imageGo m.toNat p s.loader.src = .ok v) (hv : v.loader.waiting = false) : exec (.thlLoad m p) s = .next v.keeperNext := by
  obtain ⟨-, -, -, -, -, hwdr, -⟩ := State.keeperClear_iff.mp hc
  have hrun : (s.thlAsked 3 p m.toNat).thlRun = v := State.thlRun_load_ok hi
  have hnext := State.keeperNext_thlRun (s := s.thlAsked 3 p m.toNat) rfl hwdr (hrun ▸ hv)
  rw [State.exec_thlCmd m hc (by decide) (by decide) rfl, hnext, hrun]

/-- LOAD of an image that is refused ends with the refusal's code and changes nothing beside the loader (R82). -/
theorem State.exec_thlLoad_error {s : State} {m : BitVec 16} {p : Bool} {e : Refuse} (hc : s.keeperClear = true)
    (hi : (s.loadBegun p m.toNat).imageGo m.toNat p s.loader.src = .error e) :
    ∃ l : Loader, l.busy = false ∧ l.code = e.code ∧ exec (.thlLoad m p) s = .next { s with loader := l } := by
  obtain ⟨-, -, -, -, hreset, -⟩ := State.keeperClear_iff.mp hc
  have hrun : (s.thlAsked 3 p m.toNat).thlRun = (s.loadBegun p m.toNat).thlEnded e := State.thlRun_load_error hi
  obtain ⟨hbusy, -, hcode⟩ := (s.loadBegun p m.toNat).loader_thlEnded e
  refine ⟨_, hbusy, hcode, ?_⟩
  rw [State.exec_thlCmd m hc (by decide) (by decide) rfl, State.keeperNext_of_ends hc hrun rfl rfl rfl rfl]
  exact congrArg _ (State.thlEnded_eq (s := s.loadBegun p m.toNat) hreset e)

/-! ## Quiescence and the phases of a load -/

theorem State.exec_regionQuiescent {s : State} {r : Nat} (hr : r < 16) (hup : s.up = true) (hst : (s.region r).st = .draining) (hq : s.meetsQuiet r = true) :
    exec (.regionQuiescent r) s = .next (s.modRegion r (fun x => { x with st := .quiescent })) := by
  show execRegionQuiescent r s = _
  simp [execRegionQuiescent, onUnit, hr, hup, hst, hq]

theorem State.exec_regionDrainTimeout {s : State} {r : Nat} (hr : r < 16) (hup : s.up = true) (hst : (s.region r).st = .draining)
    (hq : s.meetsQuiet r = false) (hl : s.loader.drainLim ≠ 0) : exec (.regionDrainTimeout r) s = .next (s.loadStatus ⟨0x1A, 0, 0⟩) := by
  show execRegionDrainTimeout r s = _
  simp [execRegionDrainTimeout, onUnit, hr, hup, hst, hq, hl]

theorem State.exec_regionWriteDone {s : State} {r : Nat} (hr : r < 16) (hup : s.up = true) (hst : (s.region r).st = .loading)
    (hw : s.loader.toWrite.contains r = true) : exec (.regionWriteDone r) s = .next (s.regionWritten r) := by
  show execRegionWriteDone r s = _
  rw [execRegionWriteDone, onUnit, if_pos (by simpa using hr), if_pos ⟨hup, hst, hw⟩]

theorem State.region_regionWritten (s : State) (r : Nat) : ((s.regionWritten r).region r).st = .checking := by
  unfold State.regionWritten
  dsimp only
  rw [State.region_modRegion_same]

/-- A check that no core fails, with no takeover under way, ends a region's CHECKING. -/
theorem State.exec_regionCheckDone {s : State} {r : Nat} {res : CheckResult} (hr : r < 16) (hup : s.up = true) (hst : (s.region r).st = .checking)
    (hc : s.loader.toCheck.contains r = true) (ht : (s.regionTillers r).any (fun T => (s.tiller T).takeover.isSome) = false)
    (hres : ∀ c, res ≠ .failCore c) : exec (.regionCheckDone r res) s = .next (s.regionChecked r (res = .pass)) := by
  show execRegionCheckDone r res s = _
  rw [execRegionCheckDone, onUnit, if_pos (by simpa using hr)]
  dsimp only
  rw [if_neg (by simp only [hup, hst, hc, ht]; simp)]
  cases res with
  | pass => rfl
  | fail => rfl
  | failCore c => exact absurd rfl (hres c)

/-- A report is queued at its node or counted as lost: it changes nothing of the loader and of memory (R420). -/
theorem State.log_frame (s : State) (x : Report) : (s.log x).loader = s.loader ∧ (s.log x).mem = s.mem := by
  have hn : (s.noteFault x).loader = s.loader ∧ (s.noteFault x).mem = s.mem := by
    unfold State.noteFault
    split
    · exact ⟨rfl, rfl⟩
    · split <;> exact ⟨rfl, rfl⟩
  unfold State.log
  dsimp only
  split <;> exact hn

/-- The loader with a region checked: `code` is the load's where no region failed before (R79). -/
def State.noteChecked (s : State) (r code : Nat) : State :=
  s.modLoader (fun l => { l with toCheck := l.toCheck.erase r, failed := if l.failed = 0 then code else l.failed })

/-- A region that serves a mode 2 array without AUTOSTART starts nothing (R313). -/
theorem State.serveRegion_still {s : State} {r : Nat} (hm : (s.region r).mode = 2) (ha : (s.region r).arrayAuto = false) (hs : (s.region r).autostart = []) :
    s.serveRegion r = s.modRegion r (fun x => { x with st := .serving }) := by
  simp [State.serveRegion, hm, ha, hs, forAll]

/-- What follows the end of a region's CHECKING: the last region ends the load. -/
def State.afterCheck (s : State) : State := if s.loader.toCheck.isEmpty then s.loadEnd else s

theorem State.afterCheck_modRegion {s : State} (h : s.loader.toCheck.isEmpty = false) (r : Nat) (f : Region → Region) :
    (s.modRegion r f).afterCheck = s.modRegion r f :=
  if_neg (by simp [h])

section
variable {s : State} {r : Nat} (hsame : s.loader.changed = false)
include hsame

theorem State.regionChecked_pass : s.regionChecked r true =
    (if (s.region r).mode = 0 then (s.noteChecked r 0).modRegion r (fun x => { x with st := .quiescent })
      else (s.noteChecked r 0).serveRegion r).afterCheck := by
  unfold State.regionChecked
  dsimp only
  rw [hsame]
  rfl

theorem State.regionChecked_fail (hf : s.loader.failed = 0) : s.regionChecked r false =
    (((s.log (report 0xC 0x19 0xA false 0 0 0x19)).noteChecked r 0x19).modRegion r (fun x => { x with st := .quiescent, mode := 0 })).afterCheck := by
  unfold State.regionChecked
  dsimp only
  rw [hsame, hf]
  rfl

end

end Sys2Proof.Machine
end

section
namespace Sys2Proof.Machine

/-- Settles O17. DRAIN, RESUME and PURGE move each region of the mask by `State.movesRegion` and keep the rest of the Keeper's side, so
that nothing else is due when the command ends; LOAD is `State.thlRun_load`. The events change one region by `modRegion`; in CHECKING
with regions left the load does not end. -/
theorem loaderCommandsAndEvents : Obligations.LoaderCommandsAndEvents := by
  unfold Obligations.LoaderCommandsAndEvents
  refine ⟨fun s m hc => ⟨?drain, ?resume, ?purge, fun p => ?load⟩, fun s r hr hup hst => ⟨fun hq => ?_, fun hq hl => ?_⟩, fun s r hr hup hst hw => ?_,
    fun s r hr hup hst hcheck hmore ht hsame => ⟨fun hm => ?idle, fun hm ha hs => ?serve, fun hf => ?fail⟩⟩
  case drain =>
    obtain ⟨l, hb, h0, hx⟩ := State.exec_regionCmd (op := 1) m hc (by decide) (by decide) (by decide) State.movesRegion_drainRegion (c := .thlDrain m) rfl
    rw [hx]
    refine .next ⟨hb, h0, forAll_keeps (π := State.mem) State.mem_drainRegion _ _, fun r hr => ?_, fun r T k hr hm hst hT hk hq => ?_⟩
    · refine (congrArg Region.st (State.region_forAll_thlBegun m State.movesRegion_drainRegion 1 r hr)).trans ?_
      simp [apply_ite Region.st, Region.drains]
    · have hmem : r ∈ bitsOf 16 m.toNat := mem_bitsOf.mpr ⟨hr, hm⟩
      have h := State.sq_forAll_drainRegion (s := s.thlBegun 1 false m.toNat) hmem hst hT hk
      exact (congrArg SqCtx.st h).trans (SqCtx.st_stop hq)
  case resume =>
    obtain ⟨l, hb, h0, hx⟩ := State.exec_regionCmd (op := 2) m hc (by decide) (by decide) (by decide) State.movesRegion_resumeRegion (c := .thlResume m) rfl
    rw [hx]
    refine .next ⟨hb, h0, fun r hr hm hst => ?_⟩
    have hg : (s.region r).resumes = true := by simpa [Region.resumes] using hst
    refine (congrArg Region.st (State.region_forAll_thlBegun m State.movesRegion_resumeRegion 2 r hr)).trans ?_
    rw [if_pos ⟨hm, hg⟩]
  case purge =>
    obtain ⟨l, hb, h0, hx⟩ := State.exec_regionCmd (op := 4) m hc (by decide) (by decide) (by decide) State.movesRegion_purgeRegion (c := .thlPurge m) rfl
    rw [hx]
    refine .next ⟨hb, h0, fun r hr hm hst => ?_⟩
    have hg : (s.region r).purges = true := by simpa [Region.purges] using hst
    refine (congrArg Region.st (State.region_forAll_thlBegun m State.movesRegion_purgeRegion 4 r hr)).trans ?_
    rw [if_pos ⟨hm, hg⟩]
  case load =>
    split
    next v hi => exact State.exec_thlLoad_ok hc hi
    next e hi =>
      obtain ⟨l, hb, hcode, hx⟩ := State.exec_thlLoad_error hc hi
      rw [hx]
      exact .next ⟨hb, hcode, rfl, rfl⟩
  · exact State.exec_regionQuiescent hr hup hst hq
  · exact State.exec_regionDrainTimeout hr hup hst hq hl
  · rw [State.exec_regionWriteDone hr hup hst hw]
    exact .next (s.region_regionWritten r)
  case idle =>
    rw [State.exec_regionCheckDone hr hup hst hcheck ht (by simp), show decide (CheckResult.pass = .pass) = true from rfl,
      State.regionChecked_pass hsame, if_pos hm, State.afterCheck_modRegion (s := s.noteChecked r 0) hmore]
    exact .next ⟨by simp, rfl⟩
  case serve =>
    have hserve := State.serveRegion_still (s := s.noteChecked r 0) hm ha hs
    rw [State.exec_regionCheckDone hr hup hst hcheck ht (by simp), show decide (CheckResult.pass = .pass) = true from rfl,
      State.regionChecked_pass hsame, if_neg (by simp [hm]), hserve, State.afterCheck_modRegion (s := s.noteChecked r 0) hmore]
    exact .next ⟨by simp, rfl⟩
  case fail =>
    obtain ⟨hloader, hmem⟩ := s.log_frame (report 0xC 0x19 0xA false 0 0 0x19)
    rw [State.exec_regionCheckDone hr hup hst hcheck ht (by simp), show decide (CheckResult.fail = .pass) = false from rfl,
      State.regionChecked_fail hsame hf]
    generalize s.log (report 0xC 0x19 0xA false 0 0 0x19) = w at hloader hmem ⊢
    have hleft : (w.noteChecked r 0x19).loader.toCheck.isEmpty = false := by rwa [← hloader] at hmore
    rw [State.afterCheck_modRegion hleft]
    exact .next ⟨by simp, by simp, by simp [State.noteChecked, State.modLoader, hloader, hf], hmem⟩

end Sys2Proof.Machine
end

section
/-! SUPPORT. A context of a compute core under the operations that choose, start and retire the threads of its core. -/

namespace Sys2Proof.Machine

variable (s : State)

/-! ## Contexts -/

/-- A change of one thread's context leaves every other context, whatever numbers name them, where either is a compute core's. -/
theorem State.ctx_modCtx_other {t o : Tid} (hu : o.unit < 1024 ∨ t.unit < 1024) (h : o ≠ t) (f : Ctx → Ctx) : (s.modCtx t f).ctx o = s.ctx o := by
  unfold State.modCtx
  split
  · unfold State.ctx
    split
    · by_cases hn : o.unit = t.unit
      · have hc : o.ctx ≠ t.ctx := fun hc => h (by cases o; cases t; simp_all)
        rw [hn, State.core_modCore_same, sget_sput_ne _ _ _ hc]
      · rw [State.core_modCore_ne _ _ hn]
    · rfl
  next ht => simp [State.ctx, hu.resolve_right ht]

/-- A change of a core that keeps its contexts. -/
theorem State.ctx_modCore {n : Nat} {f : Core → Core} (d : Tid) (hf : ∀ c, (f c).ctx = c.ctx := by intros; rfl) : (s.modCore n f).ctx d = s.ctx d := by
  unfold State.ctx
  split
  · by_cases hn : d.unit = n
    · rw [hn, State.core_modCore_same, hf]
    · rw [State.core_modCore_ne _ _ hn]
  · simp [State.culmCore]

/-- A change of a context leaves the rest of every core. -/
theorem State.core_modCtx {α : Type} {π : Core → α} (hπ : ∀ (c : Core) l, π { c with ctx := l } = π c) (t : Tid) (f : Ctx → Ctx) (n : Nat) :
    π ((s.modCtx t f).core n) = π (s.core n) := by
  unfold State.modCtx
  split
  · by_cases hn : n = t.unit
    · rw [hn, State.core_modCore_same, hπ]
    · rw [State.core_modCore_ne _ _ hn]
  · rfl

/-! ## Choosing a thread (R139) -/

/-- Only a READY context is chosen. -/
theorem Core.ready_of_choose {c : Core} {i k : Nat} {start : Bool} {stalled : Option Nat} (h : c.choose i start stalled = some k) : c.ready k = true := by
  unfold Core.choose at h
  split at h
  next hu =>
    obtain rfl : 0 = k := by simpa using h
    simp_all
  · split at h
    next j hj =>
      obtain rfl : j = k := by simpa using h
      cases start <;> simp_all [Option.filter_eq_some_iff]
    · split at h
      next j hj =>
        obtain rfl : j = k := by simpa using h
        have := List.find?_some hj
        simp_all
      · exact List.find?_some h

/-- What `Core.run` does to the context it runs. -/
def Ctx.run (c : Ctx) : Ctx := { c with st := .running, fetchBuf := [] }

/-- Scheduling a core leaves a context as it is or runs it, a READY one. -/
theorem State.ctx_schedule (core : Nat) (stalled : Option Nat) (d : Tid) :
    (s.schedule core stalled).ctx d = s.ctx d ∨ (s.ctx d).st = .ready ∧ (s.schedule core stalled).ctx d = (s.ctx d).run := by
  unfold State.schedule
  dsimp only
  split
  · exact .inl rfl
  split
  next k hk =>
    by_cases hd : d.unit < 1024 ∧ d.unit = core ∧ d.ctx = k
    · obtain ⟨hu, rfl, rfl⟩ := hd
      refine .inr ⟨by simpa [Core.ready, State.ctx, hu] using Core.ready_of_choose hk, ?_⟩
      simp [State.ctx, hu, State.setCore, State.core, Core.run, Ctx.run]
    · refine .inl ?_
      unfold State.ctx
      split
      next hu =>
        by_cases hc : d.unit = core
        · have hne : d.ctx ≠ k := fun hk => hd ⟨hu, hc, hk⟩
          simp [State.setCore, State.core, Core.run, hc, hne]
        · simp [State.setCore, State.core, hc]
      · rfl
  · exact .inl rfl

theorem State.ctx_schedule_of_not_ready {core : Nat} {stalled : Option Nat} {d : Tid} (h : (s.ctx d).st ≠ .ready) :
    (s.schedule core stalled).ctx d = s.ctx d :=
  (s.ctx_schedule core stalled d).resolve_right fun hr => h hr.1

/-- Scheduling changes of a core only its contexts, which of them runs and the urgency of context 0. -/
theorem State.core_schedule {α : Type} {π : Core → α} (hπ : ∀ (c : Core) k, π (c.run k) = π c) (core : Nat) (stalled : Option Nat) (n : Nat) :
    π ((s.schedule core stalled).core n) = π (s.core n) := by
  unfold State.schedule
  dsimp only
  split
  · rfl
  split
  · by_cases hn : n = core
    · simp [State.setCore, State.core, hn, hπ]
    · simp [State.setCore, State.core, hn]
  · rfl

/-! ## A thread that becomes READY -/

/-- A thread that has become READY keeps the rest of its context but the fetch buffer, which is empty where its idle core runs it at
once. -/
theorem State.ctx_makeReady_same {t : Tid} (ht : t.unit < 1024) :
    ∃ st l, (st = .ready ∨ st = .running) ∧ (s.makeReady t).ctx t = { s.ctx t with st := st, wait := none, fetchBuf := l } := by
  unfold State.makeReady
  rw [if_pos ht]
  obtain h | ⟨-, h⟩ := (s.modCtx t (fun c => { c with st := .ready, wait := none })).ctx_schedule t.unit none t
  · exact ⟨.ready, (s.ctx t).fetchBuf, .inl rfl, by rw [h, State.ctx_modCtx_same]⟩
  · exact ⟨.running, [], .inr rfl, by rw [h, State.ctx_modCtx_same]; rfl⟩

/-- Another thread that is not READY keeps its context when one becomes READY. -/
theorem State.ctx_makeReady_other {t o : Tid} (ho : o.unit < 1024 ∨ t.unit < 1024) (h : o ≠ t) (hr : (s.ctx o).st ≠ .ready) : (s.makeReady t).ctx o = s.ctx o := by
  unfold State.makeReady
  split
  · rw [State.ctx_schedule_of_not_ready _ (by rwa [s.ctx_modCtx_other ho h]), s.ctx_modCtx_other ho h]
  · exact s.ctx_modCtx_other ho h _

theorem State.core_makeReady {α : Type} {π : Core → α} (hctx : ∀ (c : Core) l, π { c with ctx := l } = π c) (hrun : ∀ (c : Core) k, π (c.run k) = π c) (t : Tid) (n : Nat) :
    π ((s.makeReady t).core n) = π (s.core n) := by
  unfold State.makeReady
  split
  · rw [State.core_schedule _ hrun, s.core_modCtx hctx]
  · exact s.core_modCtx hctx t _ n

/-! ## A thread that retires an instruction -/

theorem State.cores_count (node ev : Nat) (q : Nat → Bool) (n : Nat) : (s.count node ev q n).cores = s.cores := by
  unfold State.count
  dsimp only
  split <;> rfl

theorem State.ctx_count (node ev : Nat) (q : Nat → Bool) (n : Nat) (d : Tid) : (s.count node ev q n).ctx d = s.ctx d := by
  unfold State.count
  dsimp only
  split <;> rfl

/-- Another thread keeps its context when one retires an instruction. -/
theorem State.ctx_advance_other {t o : Tid} (ho : o.unit < 1024 ∨ t.unit < 1024) (h : o ≠ t) (len : Nat) : (s.advance t len).ctx o = s.ctx o := by
  unfold State.advance State.retired State.otcAdd
  dsimp only
  split
  · rw [State.ctx_count, State.ctx_modCtx_other _ ho h, State.ctx_modCtx_other _ ho h, s.ctx_modCtx_other ho h]
  · rw [State.ctx_modCtx_other _ ho h, State.ctx_modCtx_other _ ho h, s.ctx_modCtx_other ho h]

theorem State.core_advance {α : Type} {π : Core → α} (hπ : ∀ (c : Core) l, π { c with ctx := l } = π c) (t : Tid) (len n : Nat) :
    π ((s.advance t len).core n) = π (s.core n) := by
  have hc : ∀ (u : State) a b c d, (u.count a b c d).core n = u.core n := fun u a b c d => by simp only [State.core, State.cores_count]
  unfold State.advance State.retired State.otcAdd
  dsimp only
  split
  · rw [hc, State.core_modCtx _ hπ, State.core_modCtx _ hπ, State.core_modCtx _ hπ]
  · rw [State.core_modCtx _ hπ, State.core_modCtx _ hπ, State.core_modCtx _ hπ]

end Sys2Proof.Machine
end

section
/-! SUPPORT. What leaves every core, and every schedule context of a tiller, as it was: memory as a compute thread writes it, stamps,
packets and the channels of threads. -/

namespace Sys2Proof.Machine

/-- The cores of the state and the schedule contexts of its tillers: where threads and the steps they belong to are kept. -/
def State.threadSide (s : State) : Sparse Core × (Nat → Nat → SqCtx) := (s.cores, s.sq)

variable (s : State)

theorem State.threadSide_modTiller (T : Nat) {f : Tiller → Tiller} (hf : ∀ x, (f x).sq = x.sq) : (s.modTiller T f).threadSide = s.threadSide :=
  congrArg (Prod.mk s.cores) (funext fun _ => funext fun _ => s.sq_modTiller_of_sq _ _ _ hf)

@[simp] theorem State.threadSide_modEp (T e : Nat) (f : Endpoint → Endpoint) : (s.modEp T e f).threadSide = s.threadSide :=
  s.threadSide_modTiller T fun _ => rfl
@[simp] theorem State.threadSide_modInbox (T i : Nat) (f : Inbox → Inbox) : (s.modInbox T i f).threadSide = s.threadSide :=
  s.threadSide_modTiller T fun _ => rfl
@[simp] theorem State.threadSide_modCulm (n : Nat) (f : CulmCore → CulmCore) : (s.modCulm n f).threadSide = s.threadSide := rfl
@[simp] theorem State.threadSide_modPort (n : Nat) (f : Port → Port) : (s.modPort n f).threadSide = s.threadSide := rfl
@[simp] theorem State.threadSide_modPortNode (n : Nat) (f : PortNode → PortNode) : (s.modPortNode n f).threadSide = s.threadSide := rfl
@[simp] theorem State.threadSide_modHold (i : Nat) (f : Hold → Hold) : (s.modHold i f).threadSide = s.threadSide := rfl
@[simp] theorem State.threadSide_setLine (l : Nat) (x : CacheLine) : (s.setLine l x).threadSide = s.threadSide := rfl
@[simp] theorem State.threadSide_stamp (n : Nat) : (s.stamp n).2.threadSide = s.threadSide := rfl
@[simp] theorem State.threadSide_reportFault (T : Nat) (f : StepFault) (r : Option StepRef) : (s.reportFault T f r).threadSide = s.threadSide := rfl
@[simp] theorem State.threadSide_answerCh (w : ChWaiter) (h : Nat) (b : ChBody) : (s.answerCh w h b).threadSide = s.threadSide := rfl
@[simp] theorem State.threadSide_orphanReqs (t : Tid) : (s.orphanReqs t).threadSide = s.threadSide := rfl

@[simp] theorem State.threadSide_count (n ev : Nat) (q : Nat → Bool) (k : Nat) : (s.count n ev q k).threadSide = s.threadSide := by
  unfold State.count
  dsimp only
  split <;> rfl

@[simp] theorem State.threadSide_forAll {α : Type} (l : List α) {f : State → α → State} (h : ∀ u a, (f u a).threadSide = u.threadSide) :
    (forAll l s f).threadSide = s.threadSide := forAll_keeps h l s

/-! ## Memory -/

@[simp] theorem State.threadSide_writeAcc (h : Half) (a : Nat) (d : List Byte) : (s.writeAcc h a d).2.threadSide = s.threadSide := by
  unfold State.writeAcc
  split
  · rfl
  · split <;> rfl

@[simp] theorem State.threadSide_culmPoke (a : Nat) (d : List Byte) : (s.culmPoke a d).threadSide = s.threadSide := by
  unfold State.culmPoke
  refine s.threadSide_forAll _ fun u p => ?_
  dsimp only
  split <;> simp

@[simp] theorem State.threadSide_writeAs (t : Tid) (a : Nat) (d : List Byte) : (s.writeAs t a d).2.threadSide = s.threadSide := by
  unfold State.writeAs
  split
  · simp
  · split <;> simp

variable {s} in
theorem State.threadSide_translate {t : Tid} {lvl va a : Nat} {k : PgKind} {b : Bool} {u : State} (h : s.translate t lvl va k = .ok (a, b, u)) :
    u.threadSide = s.threadSide := by
  unfold State.translate at h
  dsimp only at h
  split at h
  · cases h; rfl
  split at h
  · cases h
  split at h
  · cases h
  split at h
  · cases h
  cases h
  rw [State.threadSide_modCulm, apply_ite Prod.snd, apply_ite State.threadSide, State.threadSide_writeAs, ite_self]

variable {s} in
theorem State.threadSide_local {t : Tid} {lvl va a : Nat} {k : PgKind} {b : Bool} {u : State} (h : s.local t lvl va k = .ok (a, b, u)) :
    u.threadSide = s.threadSide := by
  unfold State.local at h
  split at h
  · cases h; rfl
  · exact State.threadSide_translate h

variable {s} in
theorem State.threadSide_entryWrite {u : State} {t : Tid} {n : Nat} {g : Seg} {o : Word} {d : List Byte} (h : s.entryWrite t n g o d = some u) :
    u.threadSide = s.threadSide := by
  unfold State.entryWrite at h
  split at h
  · cases h
  next hl =>
    dsimp only at h
    split at h
    · cases h
    · cases h
      rw [State.threadSide_writeAs, State.threadSide_local hl]

variable {s} in
/-- A write that an entry makes only where `c` holds. -/
theorem State.threadSide_ite_entryWrite {u : State} {c : Prop} [Decidable c] {t : Tid} {n : Nat} {g : Seg} {o : Word} {d : List Byte}
    (h : (if c then s.entryWrite t n g o d else some s) = some u) : u.threadSide = s.threadSide := by
  split at h
  · exact State.threadSide_entryWrite h
  · cases h
    rfl

/-! ## Packets -/

@[simp] theorem State.threadSide_leaveBy (p : Nat) (k : Packet) (own : Bool) : (s.leaveBy p k own).threadSide = s.threadSide := by
  have hl : (s.putOnLink p k).threadSide = s.threadSide := by
    unfold State.putOnLink State.transmit
    dsimp only
    split <;> simp
  unfold State.leaveBy
  dsimp only
  split
  · simp
  · split <;> simp [hl]

variable {s} in
theorem State.threadSide_trySend {u : State} {k : Packet} {own : Bool} (h : s.trySend k own = .gone u) : u.threadSide = s.threadSide := by
  unfold State.trySend State.routeSend at h
  split at h
  · cases h
    simp
  split at h
  · split at h <;> cases h
  split at h
  · cases h
  · cases h
    simp

@[simp] theorem State.threadSide_send (h : Nat) (k : Packet) (own : Bool) : (s.send h k own).1.threadSide = s.threadSide := by
  unfold State.send
  split
  next hs => exact State.threadSide_trySend hs
  · rfl
  · exact s.threadSide_modPortNode h _

/-! ## Channels of threads -/

@[simp] theorem State.threadSide_serveEp (T e : Nat) : (s.serveEp T e).threadSide = s.threadSide := by
  unfold State.serveEp
  refine s.threadSide_forAll _ fun u w => ?_
  split
  · dsimp only
    split <;> simp
  · rfl

@[simp] theorem State.threadSide_returnChCredit (h : Nat) : (s.returnChCredit h).threadSide = s.threadSide := by
  simp [State.returnChCredit]

@[simp] theorem State.threadSide_disown (t : Tid) (T e : Nat) : (s.disown t T e).threadSide = s.threadSide := by
  unfold State.disown
  split <;> simp

end Sys2Proof.Machine
end

section
/-! SUPPORT. A killed context: what a thread's end sets free stays free, and every work that the end leads to keeps it so. -/

namespace Sys2Proof.Machine

/-- Context `o` of a compute core stands killed by a `CTX_CTL` that was not refused: it is FREE, ERR is clear, and no fork waits for a
context of its core (R131, R135). -/
structure State.Killed (s : State) (o : Tid) : Prop where
  compute : o.unit < 1024
  free : (s.ctx o).st = .free
  err : (s.core o.unit).ctxErr = false
  forks : ∀ k < 8, ∀ x ∈ (s.sq (o.unit / 16) k).steps, ∀ p ∈ x.forksLeft, p.1 ≠ o.unit % 16

theorem outsideThreads_sq : OutsideThreads State.sq := ⟨fun _ _ => rfl, fun _ _ => rfl, fun _ _ => rfl⟩

theorem forkInsert_ne_nil (a : StepRef × Bool) (l : List (StepRef × Bool)) : forkInsert a l ≠ [] := by
  cases l with
  | nil => simp [forkInsert]
  | cons b l =>
    unfold forkInsert
    split <;> simp

theorem State.waitingForks_eq_nil_iff {s : State} {T c : Nat} :
    s.waitingForks T c = [] ↔ ∀ k < 8, ∀ x ∈ (s.sq T k).steps, ∀ p ∈ x.forksLeft, p.1 ≠ c := by
  have hf : ∀ l : List (StepRef × Bool), l.foldr forkInsert [] = [] ↔ l = [] := fun l => by cases l <;> simp [forkInsert_ne_nil]
  unfold State.waitingForks
  simp [hf, List.flatMap_eq_nil_iff, List.filter_eq_nil_iff]

namespace State.Killed

variable {s u : State} {o t : Tid}

/-- A state with the same cores and schedule contexts. -/
theorem of_threadSide (h : s.Killed o) (hu : u.threadSide = s.threadSide) : u.Killed o := by
  obtain ⟨hc, hq⟩ : u.cores = s.cores ∧ u.sq = s.sq := by simpa [State.threadSide] using hu
  obtain ⟨h1, h2, h3, h4⟩ := h
  refine ⟨h1, ?_, ?_, ?_⟩
  · simpa [State.ctx, State.core, h1, hc] using h2
  · simpa [State.core, hc] using h3
  · rwa [hq]

theorem forAll {α : Type} {l : List α} {f : State → α → State} (h : s.Killed o) (hf : ∀ u, ∀ a ∈ l, u.Killed o → (f u a).Killed o) :
    (forAll l s f).Killed o :=
  List.foldlRecOn (motive := fun u => u.Killed o) _ _ h fun u hu a ha => hf u a ha hu

/-- A thread in a state other than FREE is another. -/
theorem ne (h : s.Killed o) (ht : (s.ctx t).st ≠ .free) : o ≠ t := fun e => ht (e ▸ h.free)

theorem modCore {n : Nat} {f : Core → Core} (h : s.Killed o) (hctx : ∀ c, (f c).ctx = c.ctx := by intros; rfl)
    (herr : ∀ c, (f c).ctxErr = c.ctxErr := by intros; rfl) : (s.modCore n f).Killed o := by
  refine ⟨h.compute, by rw [s.ctx_modCore o hctx]; exact h.free, ?_, h.forks⟩
  by_cases hn : o.unit = n
  · rw [hn, State.core_modCore_same, herr, ← hn]
    exact h.err
  · rw [State.core_modCore_ne _ _ hn]
    exact h.err

theorem modCtx {f : Ctx → Ctx} (h : s.Killed o) (hf : o = t → ∀ c, (f c).st = c.st := by intros; rfl) : (s.modCtx t f).Killed o := by
  refine ⟨h.compute, ?_, ?_, ?_⟩
  · by_cases ht : o = t
    · rw [ht, State.ctx_modCtx_same, hf ht, ← ht]
      exact h.free
    · rw [s.ctx_modCtx_other (.inl h.compute) ht]
      exact h.free
  · rw [s.core_modCtx (π := Core.ctxErr) fun _ _ => rfl]
    exact h.err
  · rw [outsideThreads_sq.modCtx]
    exact h.forks

theorem modSq {T k : Nat} {f : SqCtx → SqCtx} (h : s.Killed o) (hf : ∀ q, ∀ x ∈ (f q).steps, ∃ y ∈ q.steps, x.forksLeft = y.forksLeft) :
    (s.modSq T k f).Killed o := by
  refine ⟨h.compute, h.free, h.err, fun j hj x hx => ?_⟩
  rw [State.sq_modSq] at hx
  split at hx
  · obtain ⟨y, hy, hxy⟩ := hf _ x hx
    rw [hxy]
    exact h.forks j hj y hy
  · exact h.forks j hj x hx

/-- Any change of another context. -/
theorem modCtx_ne {f : Ctx → Ctx} (h : s.Killed o) (ht : o ≠ t) : (s.modCtx t f).Killed o := h.modCtx fun e => absurd e ht

theorem modStep {r : StepRef} {f : Step → Step} (h : s.Killed o) (hf : ∀ x, (f x).forksLeft = x.forksLeft := by intros; rfl) : (s.modStep r f).Killed o := by
  refine h.modSq fun q x hx => ?_
  obtain ⟨y, hy, rfl⟩ := List.mem_map.mp hx
  refine ⟨y, hy, ?_⟩
  split
  · exact hf y
  · rfl

/-! ## Threads that wake, leave and retire -/

theorem schedule (h : s.Killed o) (n : Nat) (w : Option Nat) : (s.schedule n w).Killed o := by
  refine ⟨h.compute, ?_, ?_, ?_⟩
  · rw [s.ctx_schedule_of_not_ready (by simp [h.free])]
    exact h.free
  · rw [s.core_schedule (π := Core.ctxErr) fun _ _ => rfl]
    exact h.err
  · rw [outsideThreads_sq.schedule]
    exact h.forks

theorem makeReady (h : s.Killed o) (ht : o ≠ t) : (s.makeReady t).Killed o := by
  unfold State.makeReady
  split
  · exact (h.modCtx_ne ht).schedule _ _
  · exact h.modCtx_ne ht

theorem leave {st : CtxState} (h : s.Killed o) (ht : o ≠ t) : (s.leave t st).Killed o := by
  unfold State.leave
  have hm : (s.modCtx t (fun c => { c with st := st })).Killed o := h.modCtx_ne ht
  split
  · exact (hm.modCore (fun c => by split <;> rfl) (fun c => by split <;> rfl)).schedule _ _
  · exact hm

theorem haltNow (h : s.Killed o) (ht : o ≠ t) (a b : Nat) : (s.haltNow t a b).Killed o := by
  unfold State.haltNow
  exact (h.modCtx_ne ht).leave ht

theorem settleDebug (h : s.Killed o) (t : Tid) : (s.settleDebug t).Killed o := by
  have hne : ((s.ctx t).st = .running || (s.ctx t).st = .ready) = true → o ≠ t := fun ht => h.ne fun e => by simp [e] at ht
  unfold State.settleDebug
  dsimp only
  split
  next hc => exact h.haltNow (hne (by simp_all)) _ _
  split
  next hc => exact h.haltNow (hne (by simp_all)) _ _
  split
  · exact h.modCtx
  · exact h

theorem setReg (h : s.Killed o) (t : Tid) (r : Reg) (v : Word) : (s.setReg t r v).Killed o := by
  unfold State.setReg
  split
  · exact h
  · exact h.modCtx

theorem advance (h : s.Killed o) (t : Tid) (n : Nat) : (s.advance t n).Killed o := by
  unfold State.advance State.retired State.otcAdd
  dsimp only
  split
  · refine State.Killed.of_threadSide ?_ (State.threadSide_count ..)
    exact h.modCtx.modCtx.modCtx
  · exact h.modCtx.modCtx.modCtx

theorem endWait (h : s.Killed o) (ht : o ≠ t) (r : Reg) (v : Word) : (s.endWait t r v).Killed o := by
  unfold State.endWait
  exact (((h.setReg t r v).advance t 4).makeReady ht).settleDebug t

/-! ## Exceptions in another thread -/

theorem mailboxWake (h : s.Killed o) (core : Nat) : (s.mailboxWake core).Killed o := by
  have hu : (s.modCore core (fun c => { c with urgent := true })).Killed o := h.modCore
  unfold State.mailboxWake
  dsimp only
  split
  next hw _ => exact hu.endWait (hu.ne (by simp [hw])) _ _
  · exact hu.modCore

theorem writeMailbox (h : s.Killed o) (t : Tid) (pc addr : Word) (code orig level st : Nat) :
    (s.writeMailbox t pc addr code orig level st).Killed o := by
  have hstuck : (s.reportFault (tidTiller t) (.coreFault t.unit) none).Killed o := h.of_threadSide (State.threadSide_reportFault ..)
  unfold State.writeMailbox
  split
  · exact h.of_threadSide (s.threadSide_modCulm _ _)
  dsimp only
  split
  · exact hstuck
  split
  · exact hstuck
  split
  · exact hstuck
  · refine State.Killed.mailboxWake (State.Killed.modCtx (h.of_threadSide ?_)) _
    simp

theorem fence (h : s.Killed o) (ht : o ≠ t) (pc addr : Word) (code orig level : Nat) : (s.fence t pc addr code orig level).Killed o := by
  unfold State.fence
  exact (h.modCtx.leave ht).writeMailbox ..

theorem entered (h : s.Killed o) (ht : o ≠ t) (e : Exc) (n p : Nat) (d : XDesc) (segs : Option Segs) (spill : Bool) (sp : Word) :
    (s.entered t e n p d segs spill sp).Killed o := by
  unfold State.entered
  dsimp only
  have h1 : ∀ {f : Ctx → Ctx} {v : Word}, ((s.modCtx t f).setReg t 31 v).Killed o := (h.modCtx_ne ht).setReg _ _ _
  split
  · exact ((h1.modCtx).leave ht).writeMailbox ..
  · exact h1

theorem tryEnter (h : s.Killed o) (ht : o ≠ t) {e : Exc} {n p : Nat} {d : XDesc} (hu : s.tryEnter t e n p d = .done u) : u.Killed o := by
  unfold State.tryEnter at hu
  dsimp only at hu
  split at hu
  · cases hu
  split at hu
  · cases hu
  split at hu
  · cases hu
  next h1 =>
    split at hu
    · cases hu
    next h2 =>
      cases hu
      exact ((h.of_threadSide (State.threadSide_ite_entryWrite h1)).of_threadSide (State.threadSide_ite_entryWrite h2)).entered ht ..

theorem badDescriptor (h : s.Killed o) (ht : o ≠ t) (e : Exc) (p addr : Nat) : (s.badDescriptor t e p addr).Killed o := by
  unfold State.badDescriptor
  dsimp only
  split
  · exact h.fence ht ..
  split
  · exact h.fence ht ..
  split
  next hd => exact h.tryEnter ht hd
  · exact h.fence ht ..
  · exact h.fence ht ..

theorem stackEntry (h : s.Killed o) (ht : o ≠ t) (e : Exc) (n p det : Nat) (sp : Word) : (s.stackEntry t e n p det sp).Killed o := by
  unfold State.stackEntry
  split
  · exact h.fence ht ..
  dsimp only
  split
  · exact h.badDescriptor ht ..
  split
  next hd => exact h.tryEnter ht hd
  · exact h.badDescriptor ht ..
  · exact h.fence ht ..

theorem raise (h : s.Killed o) (ht : o ≠ t) (e : Exc) : (s.raise t e).Killed o := by
  unfold State.raise State.raiseX State.enterUnder
  split
  · split
    · exact h.badDescriptor ht ..
    · dsimp only
      split
      next hd => exact h.tryEnter ht hd
      · exact h.badDescriptor ht ..
      · exact h.stackEntry ht ..
  · exact h.fence ht ..

theorem raiseWaiting (h : s.Killed o) (ht : o ≠ t) (e : Exc) : (s.raiseWaiting t e).Killed o := by
  unfold State.raiseWaiting
  dsimp only
  split
  · exact (h.raise ht e).makeReady ht
  · exact h.raise ht e

/-! ## Channels and credits -/

theorem releaseChannels (h : s.Killed o) (t : Tid) : (s.releaseChannels t).Killed o := by
  have h1 : (match (s.ctx t).chCredit with | some k => s.returnChCredit k | none => s).Killed o := by
    split
    · exact h.of_threadSide (State.threadSide_returnChCredit ..)
    · exact h
  have h2 := h1.modCtx (t := t) (f := fun c => { c with stage := [], chCredit := none })
  unfold State.releaseChannels
  refine State.Killed.forAll (h2.of_threadSide ?_) fun u p _ hu => hu.of_threadSide (by simp)
  rfl

theorem modChan (h : s.Killed o) (c : ChanRef) (f : DmaChan → DmaChan) : (s.modChan c f).Killed o := by
  cases c with
  | core n ch =>
    unfold State.modChan
    exact h.modCore
  | tiller T ch => exact h.of_threadSide (s.threadSide_modTiller T fun _ => rfl)

theorem grantTo (h : s.Killed o) (T i : Nat) (who : CreditWho) (k : Nat) : (s.grantTo T i who k).Killed o := by
  cases who with
  | slot t sl seq => exact h.of_threadSide rfl
  | pregrant tl sc n core =>
    unfold State.grantTo
    refine h.modSq fun q x hx => ?_
    obtain ⟨y, hy, rfl⟩ := List.mem_map.mp hx
    refine ⟨y, hy, ?_⟩
    split <;> rfl
  | dma c =>
    unfold State.grantTo
    exact h.modChan c _
  | stolon port origin tag => exact h.of_threadSide (s.threadSide_send ..)

theorem serveInbox (h : s.Killed o) (T i fuel : Nat) : (s.serveInbox T i fuel).Killed o := by
  induction fuel generalizing s with
  | zero => exact h
  | succ fuel ih =>
    unfold State.serveInbox
    dsimp only
    split
    · exact h
    split
    · exact h
    · exact ih ((h.of_threadSide (s.threadSide_modInbox ..)).grantTo ..)

theorem returnCredits (h : s.Killed o) (T i gen k : Nat) : (s.returnCredits T i gen k).Killed o := by
  unfold State.returnCredits State.setAvail
  dsimp only
  split
  · exact (h.of_threadSide (s.threadSide_modInbox ..)).serveInbox ..
  · exact h

theorem releaseSlots (h : s.Killed o) (t : Tid) : (s.releaseSlots t).Killed o := by
  unfold State.releaseSlots
  refine h.forAll fun u k _ hu => ?_
  dsimp only
  split
  · exact (hu.modCtx).returnCredits ..
  · exact hu

/-! ## Tiles and gangs -/

theorem dropGangMmas (h : s.Killed o) (t : Tid) : (s.dropGangMmas t).Killed o := by
  unfold State.dropGangMmas
  refine h.forAll fun u l _ hu => hu.forAll fun u c _ hu => ?_
  dsimp only
  refine State.Killed.forAll hu.modCore fun u k _ hu => ?_
  split
  next hw _ => exact hu.raiseWaiting (hu.ne (by simp [hw])) _
  · exact hu

end State.Killed

theorem Core.emptyTiles_frame (c : Core) (l : List Nat) : (c.emptyTiles l).ctx = c.ctx ∧ (c.emptyTiles l).ctxErr = c.ctxErr :=
  List.foldlRecOn (motive := fun x : Core => x.ctx = c.ctx ∧ x.ctxErr = c.ctxErr) _ _ ⟨rfl, rfl⟩ fun _ hx _ _ => hx

theorem Core.releaseTiles_frame (c : Core) (k : Nat) : (c.releaseTiles k).ctx = c.ctx ∧ (c.releaseTiles k).ctxErr = c.ctxErr := by
  unfold Core.releaseTiles
  dsimp only
  split
  · split
    · exact ⟨rfl, rfl⟩
    · exact Core.emptyTiles_frame _ _
  · exact Core.emptyTiles_frame _ _

/-- A context that a GANG finds waiting waits. -/
theorem Core.waiting_of_gangWaiter {c : Core} {mask k : Nat} (h : c.gangWaiter mask = some k) : (sget {} c.ctx k).st = .waiting := by
  have hk := List.find?_some h
  split at hk
  next hw _ => exact hw
  · cases hk

namespace State.Killed

variable {s u : State} {o t : Tid}

theorem dissolve (h : s.Killed o) (core : Nat) : (s.dissolve core).Killed o := by
  unfold State.dissolve
  dsimp only
  refine State.Killed.forAll (h.forAll fun u t _ hu => hu.modCore.modCtx) fun u t _ hu => ?_
  split
  next hw _ => exact hu.raiseWaiting (hu.ne (by simp [hw])) _
  · exact hu

/-- The members of a gang that forms all wait for it, so none is the killed context. -/
theorem formGang (h : s.Killed o) (quad mask : Nat) : (s.formGang quad mask).Killed o := by
  unfold State.formGang
  dsimp only
  split
  · refine h.forAll fun u t ht hu => ?_
    obtain ⟨c, -, hc⟩ := List.mem_filterMap.mp ht
    obtain ⟨k, hk, rfl⟩ := Option.map_eq_some_iff.mp hc
    have hne : o ≠ ⟨c, k⟩ := by
      rintro rfl
      have hw := Core.waiting_of_gangWaiter hk
      have hf := h.free
      rw [State.ctx, if_pos h.compute, hw] at hf
      cases hf
    exact hu.modCore.modCtx.endWait hne _ _
  · exact h

theorem leaveGang (h : s.Killed o) (t : Tid) : (s.leaveGang t).Killed o := by
  unfold State.leaveGang
  split
  · split
    · exact (h.dissolve _).forAll fun u m _ hu => hu.formGang _ m
    · exact h
  · exact h

/-! ## The end of the thread -/

theorem abortSq (h : s.Killed o) (T k err : Nat) : (s.abortSq T k err).Killed o := by
  unfold State.abortSq
  refine h.modSq fun q x hx => ?_
  split at hx
  · exact ⟨x, (List.mem_filter.mp hx).1, rfl⟩
  · exact ⟨x, hx, rfl⟩

/-- A killed thread's step fails and its schedule context stops. -/
theorem leaveStep (h : s.Killed o) (t : Tid) : (s.leaveStep t none).Killed o := by
  unfold State.leaveStep
  dsimp only
  cases (s.ctx t).step with
  | none => exact h
  | some r =>
    dsimp only
    rw [if_pos rfl]
    cases (s.ctx t).dup <;> exact h.modCtx.modStep.abortSq _ _ _

theorem serveForks (h : s.Killed o) : (s.serveForks o.unit).Killed o := by
  have hf := State.waitingForks_eq_nil_iff.mpr h.forks
  unfold State.serveForks
  rw [hf]
  exact h

theorem wakeJoins (h : s.Killed o) (core : Nat) : (s.wakeJoins core).Killed o := by
  unfold State.wakeJoins
  refine h.forAll fun u j _ hu => ?_
  dsimp only
  split
  next hw _ =>
    split
    · exact hu.endWait (hu.ne (by simp [hw])) _ _
    · exact hu
  · exact hu

/-- What is left to do when a killed thread's context is FREE keeps it so. -/
theorem endThread_of_leave (h : ((s.modCtx o (fun c => { c with wait := none })).leave o .free).Killed o) : (s.endThread o none).Killed o := by
  unfold State.endThread
  refine State.Killed.wakeJoins (.serveForks (.leaveStep (.of_threadSide (.leaveGang (.modCore ?_ ?_ ?_) o) (State.threadSide_orphanReqs _ o)) o)) o.unit
  · exact ((h.modCtx.releaseChannels o).releaseSlots o).dropGangMmas o
  · exact fun c => (c.releaseTiles_frame o.ctx).1
  · exact fun c => (c.releaseTiles_frame o.ctx).2

/-- A thread that leaves its core for FREE stands killed if no fork waits there and ERR is clear. -/
theorem leave_free (hu : o.unit < 1024) (herr : (s.core o.unit).ctxErr = false)
    (hf : ∀ k < 8, ∀ x ∈ (s.sq (o.unit / 16) k).steps, ∀ p ∈ x.forksLeft, p.1 ≠ o.unit % 16) : (s.leave o .free).Killed o := by
  have h1 : (s.modCtx o (fun c => { c with st := .free })).Killed o := by
    refine ⟨hu, by rw [State.ctx_modCtx_same], ?_, ?_⟩
    · rwa [s.core_modCtx (π := Core.ctxErr) fun _ _ => rfl]
    · rwa [outsideThreads_sq.modCtx]
  unfold State.leave
  rw [if_pos hu]
  exact (h1.modCore (fun c => by split <;> rfl) (fun c => by split <;> rfl)).schedule _ _

/-- KILL of a pool context with no mailbox slot to clear (R135). -/
theorem kill (hu : o.unit < 1024) (h0 : o.ctx ≠ 0) (hst : (s.ctx o).st ≠ .free) (hm : (s.ctx o).mailbox = false)
    (herr : (s.core o.unit).ctxErr = false) (hf : s.waitingForks (o.unit / 16) (o.unit % 16) = []) : (s.kill o).Killed o := by
  have hc : s.clearMailbox o = s := by
    unfold State.clearMailbox
    rw [hm]
    rfl
  unfold State.kill
  rw [if_neg (not_or.mpr ⟨h0, hst⟩), hc]
  refine endThread_of_leave (leave_free hu ?_ ?_)
  · rwa [s.core_modCtx (π := Core.ctxErr) fun _ _ => rfl]
  · rw [outsideThreads_sq.modCtx]
    exact State.waitingForks_eq_nil_iff.mp hf

end State.Killed

end Sys2Proof.Machine
end

section
/-! SUPPORT. How an instruction of a compute thread ends: nothing due at the boundary after it, or a trap. -/

namespace Sys2Proof.Machine

variable {s u : State} {t o : Tid}

theorem State.clearCompute_iff : s.clearCompute t = true ↔ s.clear t 4 = true ∧ t.unit < 1024 := by
  simp [State.clearCompute]

/-- An instruction of a clear compute thread ends with what the debugger waits for; a trap that it has left due is taken first. -/
theorem State.computeOnly_ends (h : s.clearCompute t = true) (body : State → State) :
    s.computeOnly t body = .next ((body s).settleDebug t) ∨
      ((body s).ctx t).st = .running ∧ ((body s).ctx t).trapDue ≠ none ∧ ∃ e, s.computeOnly t body = .next (((body s).raise t e).settleDebug t) := by
  obtain ⟨hc, hu⟩ := State.clearCompute_iff.mp h
  have hf := State.fetch_clear hc
  obtain ⟨hok, hissue, hpend, -, -, -, hdef, htrap, -, hbp, -⟩ := State.clear_iff.mp hc
  simp only [State.computeOnly, State.issue, onUnit, State.boundary, hok, hissue, hpend, hdef, htrap, hf, hbp, hu, if_true, Bool.false_eq_true, false_and, if_false]
  split
  next hst htrap => exact .inr ⟨hst, by simp [htrap], _, rfl⟩
  · exact .inl rfl

/-- No trap is left due: the instruction ends with what the debugger waits for. -/
theorem State.computeOnly_of_trapDue (h : s.clearCompute t = true) {body : State → State} (ht : ((body s).ctx t).trapDue = none) :
    s.computeOnly t body = .next ((body s).settleDebug t) :=
  (State.computeOnly_ends h body).resolve_right fun hr => hr.2.1 ht

/-- At the boundary after its instruction neither a trap nor the debugger waits for a thread, and no single step is armed. -/
structure Ctx.Undisturbed (c : Ctx) : Prop where
  trap : c.trapDue = none
  armed : c.stepArmed = false
  pending : c.dbg.pending = false
  stepping : c.dbg.stepping = false
  skip : c.dbg.skip = false

theorem State.undisturbed_of_clear (h : s.clearCompute t = true) : (s.ctx t).Undisturbed := by
  obtain ⟨hc, -⟩ := State.clearCompute_iff.mp h
  obtain ⟨-, -, hpend, hskip, hstep, -, -, htrap, harmed, -⟩ := State.clear_iff.mp hc
  exact ⟨htrap, harmed, hpend, hstep, hskip⟩

theorem Ctx.Undisturbed.advance (h : (s.ctx t).Undisturbed) (len : Nat) : ((s.advance t len).ctx t).Undisturbed := by
  rw [State.ctx_advance]
  exact ⟨by simp [h.armed, h.trap], h.armed, h.pending, h.stepping, h.skip⟩

theorem Ctx.Undisturbed.setReg (h : (s.ctx t).Undisturbed) (r : Reg) (v : Word) : ((s.setReg t r v).ctx t).Undisturbed := by
  rw [State.ctx_setReg]
  exact ⟨h.trap, h.armed, h.pending, h.stepping, h.skip⟩

/-- An instruction after which nothing disturbs its thread is its body. -/
theorem State.computeOnly_undisturbed (h : s.clearCompute t = true) {body : State → State} (hb : ((body s).ctx t).Undisturbed) :
    s.computeOnly t body = .next (body s) := by
  rw [State.computeOnly_of_trapDue h hb.trap]
  simp [State.settleDebug, hb.pending, hb.stepping, hb.skip]

theorem State.running_of_clear (h : s.clearCompute t = true) : (s.ctx t).st = .running := by
  obtain ⟨hc, -⟩ := State.clearCompute_iff.mp h
  obtain ⟨-, hissue, -⟩ := State.clear_iff.mp hc
  have hst : s.up = true ∧ (s.ctx t).st = .running := by
    simp only [State.canIssue, Bool.and_eq_true, decide_eq_true_eq] at hissue
    exact hissue.1.1
  exact hst.2

/-! ## Registers -/

/-- A context with the same general registers reads the same. -/
theorem State.reg_congr {d : Tid} (h : (u.ctx d).g = (s.ctx d).g) (q : Reg) : u.reg d q = s.reg d q := by
  unfold State.reg
  rw [h]

/-- Retiring an instruction changes no general register of any thread. -/
theorem State.reg_advance_any (hu : t.unit < 1024) (len : Nat) (d : Tid) (q : Reg) : (s.advance t len).reg d q = s.reg d q := by
  refine State.reg_congr ?_ q
  by_cases hd : d = t
  · rw [hd, State.ctx_advance]
  · rw [s.ctx_advance_other (.inr hu) hd]

/-- A write of another thread's register. -/
theorem State.ctx_setReg_other (hu : o.unit < 1024 ∨ t.unit < 1024) (h : o ≠ t) (r : Reg) (v : Word) : (s.setReg t r v).ctx o = s.ctx o := by
  unfold State.setReg
  split
  · rfl
  · exact s.ctx_modCtx_other hu h _

theorem State.core_setReg {α : Type} {π : Core → α} (hπ : ∀ (c : Core) l, π { c with ctx := l } = π c) (t : Tid) (r : Reg) (v : Word) (n : Nat) :
    π ((s.setReg t r v).core n) = π (s.core n) := by
  unfold State.setReg
  split
  · rfl
  · exact s.core_modCtx hπ t _ n

/-! ## Reading as a compute thread -/

theorem outsideThreads_readAcc (h : Half) (a n : Nat) : OutsideThreads (fun s => s.readAcc h a n) := ⟨fun _ _ => rfl, fun _ _ => rfl, fun _ _ => rfl⟩

/-- The segments that a return restores are read from memory through the core's table of levels (R118). -/
theorem State.restoredSegs_congr (ht : t.unit < 1024) (hr : ∀ h a n, u.readAcc h a n = s.readAcc h a n) (hx : u.xdtb t = s.xdtb t) (n m : Nat) :
    u.restoredSegs t n m = s.restoredSegs t n m := by
  simp only [State.restoredSegs, State.levelRec, State.levelAt, State.readAs, State.local, if_pos ht, hr, hx]

end Sys2Proof.Machine
end

section
/-! SUPPORT. `CTX_CTL`: what each operation does to its object, and what a refused one leaves (R135). -/

namespace Sys2Proof.Machine

theorem field_eq_div_mod {n : Nat} (w : BitVec n) (lo width : Nat) : field w lo width = w.toNat / 2 ^ lo % 2 ^ width := by
  rw [field, Nat.shiftRight_eq_div_pow]

/-- The pool context that a word written to `CTX_CTL` names. -/
def ctlObject (t : Tid) (w : Word) : Tid := ⟨t.unit, field w 0 3⟩

theorem ctlObject_eq (t : Tid) (w : Word) : ctlObject t w = ⟨t.unit, w.toNat % 8⟩ := by
  simp [ctlObject, field_eq_div_mod]

/-- The state after a write of `CTX_CTL` but for the operation's own work: the fields and ERR are kept and the instruction retires. -/
def State.ctlWritten (s : State) (t : Tid) (w : Word) (err : Bool) : State :=
  (s.modCore t.unit (fun c => { c with ctxCtl := word (field w 0 3 + field w 4 3 * 16), ctxErr := err })).advance t 4

variable {s : State} {t : Tid} {w : Word} {err : Bool}

theorem State.ctxErr_ctlWritten (s : State) (t : Tid) (w : Word) (err : Bool) : ((s.ctlWritten t w err).core t.unit).ctxErr = err := by
  unfold State.ctlWritten
  rw [State.core_advance (π := Core.ctxErr) _ (fun _ _ => rfl), State.core_modCore_same]

theorem State.ctx_ctlWritten_same (s : State) (t : Tid) (w : Word) (err : Bool) : (s.ctlWritten t w err).ctx t = (s.advance t 4).ctx t := by
  unfold State.ctlWritten
  rw [State.ctx_advance, State.ctx_advance, s.ctx_modCore t]

theorem State.ctx_ctlWritten_other {o : Tid} (hu : t.unit < 1024) (h : o ≠ t) : (s.ctlWritten t w err).ctx o = s.ctx o := by
  unfold State.ctlWritten
  rw [State.ctx_advance_other _ (.inr hu) h, s.ctx_modCore o]

theorem OutsideThreads.ctlWritten {α : Type} {π : State → α} (hπ : OutsideThreads π) (s : State) (t : Tid) (w : Word) (err : Bool) :
    π (s.ctlWritten t w err) = π s := by
  unfold State.ctlWritten
  rw [hπ.advance]
  exact hπ.cores s _

theorem State.xdtb_ctlWritten (hu : t.unit < 1024) : (s.ctlWritten t w err).xdtb (ctlObject t w) = s.xdtb (ctlObject t w) := by
  unfold State.xdtb State.ctlWritten ctlObject
  rw [if_pos hu, if_pos hu, State.core_advance (π := Core.xdtb) _ (fun _ _ => rfl), State.core_modCore_same]

/-- A write of `CTX_CTL` by the supervisor, `ok` telling whether its object's state allows the operation. -/
theorem State.ctxCtl_supervisor {allowed : CtxState → Bool} (act : State → Tid → State) (hl : (s.ctx t).level ≤ 1) {ok : Bool}
    (hok : (decide ((ctlObject t w).ctx ≠ 0) && allowed (s.ctx (ctlObject t w)).st) = ok) :
    s.ctxCtl t w allowed act =
      if ok then act ((s.ctlWritten t w (!ok)).clearMailbox (ctlObject t w)) (ctlObject t w) else s.ctlWritten t w (!ok) := by
  subst hok
  exact if_neg (by omega)

/-- One that is allowed, no mailbox slot waiting to be cleared. -/
theorem State.ctxCtl_allowed {allowed : CtxState → Bool} (act : State → Tid → State) (hu : t.unit < 1024) (hl : (s.ctx t).level ≤ 1)
    (h0 : (ctlObject t w).ctx ≠ 0) (hm : (s.ctx (ctlObject t w)).mailbox = false) (ha : allowed (s.ctx (ctlObject t w)).st = true) :
    s.ctxCtl t w allowed act = act (s.ctlWritten t w false) (ctlObject t w) := by
  have hm' : ((s.ctlWritten t w false).ctx (ctlObject t w)).mailbox = false := by
    by_cases h : ctlObject t w = t
    · rw [h] at hm ⊢
      rwa [State.ctx_ctlWritten_same, State.ctx_advance]
    · rwa [State.ctx_ctlWritten_other hu h]
  rw [State.ctxCtl_supervisor (ok := true) act hl (by simp [h0, ha]), if_pos rfl, Bool.not_true, State.clearMailbox, if_neg (by simp [hm'])]

/-- One that its object's state refuses: ERR is set and nothing else is done. -/
theorem State.ctxCtl_refused {allowed : CtxState → Bool} (act : State → Tid → State) (hl : (s.ctx t).level ≤ 1)
    (ha : allowed (s.ctx (ctlObject t w)).st = false) : s.ctxCtl t w allowed act = s.ctlWritten t w true := by
  rw [State.ctxCtl_supervisor (ok := false) act hl (by simp [ha]), if_neg (by decide), Bool.not_false]

theorem State.ctxCtl_task {allowed : CtxState → Bool} (act : State → Tid → State) (hl : (s.ctx t).level = 2) : s.ctxCtl t w allowed act = s.privilege t := by
  unfold State.ctxCtl
  rw [if_pos hl]

/-- The commands that write `CTX_CTL`, each with the OP of its word. -/
def ctlCommands (t : Tid) (w : Word) : List (Nat × Instr) := [(1, .ctxKill t w), (2, .ctxReturn t w), (3, .ctxEnter t w), (4, .ctxContinue t w)]

/-- Each of them is a write of `CTX_CTL` that a FREE context refuses. -/
theorem exec_ctlCommand {p : Nat × Instr} (hp : p ∈ ctlCommands t w) (hop : w.toNat / 16 % 8 = p.1) :
    ∃ allowed act, allowed .free = false ∧ exec p.2 s = s.computeOnly t (fun s => s.ctxCtl t w allowed act) := by
  have hfield : field w 4 3 = p.1 := by rw [field_eq_div_mod]; exact hop
  simp only [ctlCommands, List.mem_cons, List.not_mem_nil, or_false] at hp
  obtain rfl | rfl | rfl | rfl := hp <;> exact ⟨_, _, rfl, congrArg (s.computeOnly t) (funext fun s => if_pos hfield)⟩

theorem exec_ctlCommand_free {p : Nat × Instr} (hc : s.clearCompute t = true) (hl : (s.ctx t).level ≤ 1) (hp : p ∈ ctlCommands t w)
    (hop : w.toNat / 16 % 8 = p.1) (hst : (s.ctx (ctlObject t w)).st = .free) : exec p.2 s = .next (s.ctlWritten t w true) := by
  obtain ⟨allowed, act, hfree, hx⟩ := exec_ctlCommand (s := s) hp hop
  have hr : s.ctxCtl t w allowed act = s.ctlWritten t w true := State.ctxCtl_refused act hl (by rw [hst, hfree])
  rw [hx, State.computeOnly_undisturbed hc, hr]
  rw [hr, State.ctx_ctlWritten_same]
  exact (State.undisturbed_of_clear hc).advance 4

theorem exec_ctlCommand_task {p : Nat × Instr} (hc : s.clearCompute t = true) (hl : (s.ctx t).level = 2) (ht : ((s.privilege t).ctx t).trapDue = none)
    (hp : p ∈ ctlCommands t w) (hop : w.toNat / 16 % 8 = p.1) : exec p.2 s = .next ((s.privilege t).settleDebug t) := by
  obtain ⟨allowed, act, -, hx⟩ := exec_ctlCommand (s := s) hp hop
  have hr : s.ctxCtl t w allowed act = s.privilege t := State.ctxCtl_task act hl
  rw [hx, State.computeOnly_of_trapDue hc (by rwa [hr]), hr]

/-! ## KILL -/

theorem exec_ctxKill (hc : s.clearCompute t = true) (hl : (s.ctx t).level ≤ 1) (h0 : (ctlObject t w).ctx ≠ 0)
    (hm : (s.ctx (ctlObject t w)).mailbox = false) (hop : w.toNat / 16 % 8 = 1) (hst : (s.ctx (ctlObject t w)).st ≠ .free)
    (hf : s.waitingForks (t.unit / 16) (t.unit % 16) = []) : Ends (exec (.ctxKill t w) s) (fun u => u.Killed (ctlObject t w)) := by
  obtain ⟨-, hu⟩ := State.clearCompute_iff.mp hc
  have hfield : field w 4 3 = 1 := by rw [field_eq_div_mod]; exact hop
  have hk : ((s.ctlWritten t w false).kill (ctlObject t w)).Killed (ctlObject t w) := by
    refine State.Killed.kill hu h0 ?_ ?_ (State.ctxErr_ctlWritten ..) ?_
    · by_cases h : ctlObject t w = t
      · rw [h] at hst ⊢
        rwa [State.ctx_ctlWritten_same, State.ctx_advance]
      · rwa [State.ctx_ctlWritten_other hu h]
    · by_cases h : ctlObject t w = t
      · rw [h] at hm ⊢
        rwa [State.ctx_ctlWritten_same, State.ctx_advance]
      · rwa [State.ctx_ctlWritten_other hu h]
    · have hq := outsideThreads_sq.ctlWritten s t w false
      rw [State.waitingForks_eq_nil_iff] at hf ⊢
      rwa [hq]
  have hb : (if field w 4 3 = 1 then s.ctxKill t w else s).Killed (ctlObject t w) := by
    rw [if_pos hfield, State.ctxKill, State.ctxCtl_allowed _ hu hl h0 hm (by simpa using hst)]
    exact hk
  obtain h | ⟨hrun, -, e, h⟩ := State.computeOnly_ends hc (fun s => if field w 4 3 = 1 then s.ctxKill t w else s)
  · exact ⟨_, h, hb.settleDebug t⟩
  · exact ⟨_, h, (hb.raise (hb.ne (by rw [hrun]; decide)) e).settleDebug t⟩

/-! ## RETURN, ENTER, CONTINUE -/

/-- The object's context as it was given back, but for what running it again sets: its state, its wait and its fetch buffer. -/
structure Ctx.Resumed (c d : Ctx) : Prop where
  runs : d.st = .ready ∨ d.st = .running
  pc : d.pc = c.pc
  level : d.level = c.level
  g : d.g = c.g
  segs : d.segs = c.segs
  entered : d.entered = c.entered

/-- A write of `CTX_CTL` whose operation changes only its object's context and makes it READY. -/
theorem State.ctxCtl_resumes {body : State → State} {v : State} (hc : s.clearCompute t = true) (hne : ctlObject t w ≠ t)
    (hb : body s = v.makeReady (ctlObject t w)) (hv : (s.ctlWritten t w false).onlyThread v (ctlObject t w)) :
    Ends (s.computeOnly t body) (fun u => (v.ctx (ctlObject t w)).Resumed (u.ctx (ctlObject t w)) ∧ (u.core t.unit).ctxErr = false ∧ u.mem = s.mem) := by
  obtain ⟨hclear, hu⟩ := State.clearCompute_iff.mp hc
  obtain ⟨htid, -⟩ := State.clear_iff.mp hclear
  obtain ⟨hrest, hcores, -, -, hothers⟩ := hv
  have ht : (v.ctx t) = (s.advance t 4).ctx t := by rw [hothers t htid hne.symm, State.ctx_ctlWritten_same]
  have hnext : (v.makeReady (ctlObject t w)).ctx t = (s.advance t 4).ctx t := by
    have hrun : (v.ctx t).st = .running := by
      rw [ht, State.ctx_advance]
      exact State.running_of_clear hc
    rw [v.ctx_makeReady_other (.inl hu) hne.symm (by simp [hrun]), ht]
  refine ⟨_, State.computeOnly_undisturbed hc ?_, ?_⟩
  · rw [hb, hnext]
    exact (State.undisturbed_of_clear hc).advance 4
  rw [hb]
  obtain ⟨st, l, hst, hctx⟩ := v.ctx_makeReady_same (t := ctlObject t w) hu
  refine ⟨by rw [hctx]; exact ⟨hst, rfl, rfl, rfl, rfl, rfl⟩, ?_, ?_⟩
  · rw [v.core_makeReady (π := Core.ctxErr) (fun _ _ => rfl) (fun _ _ => rfl)]
    exact (congrArg Core.ctxErr (hcores t.unit)).trans (State.ctxErr_ctlWritten ..)
  · rw [outsideThreads_mem.makeReady]
    exact (congrArg State.mem hrest).trans (outsideThreads_mem.ctlWritten ..)

theorem ctlObject_ok (hu : t.unit < 1024) : tidOk (ctlObject t w) = true := by
  have h8 : w.toNat % 8 < 8 := Nat.mod_lt _ (by decide)
  simp [tidOk, ctlObject_eq, hu, h8]

section
variable (hc : s.clearCompute t = true) (hl : (s.ctx t).level ≤ 1) (h0 : (ctlObject t w).ctx ≠ 0) (hm : (s.ctx (ctlObject t w)).mailbox = false)
include hc hl h0 hm

theorem exec_ctxContinue (hop : w.toNat / 16 % 8 = 4) (hst : (s.ctx (ctlObject t w)).st = .fenced ∨ (s.ctx (ctlObject t w)).st = .halted) :
    Ends (exec (.ctxContinue t w) s) (fun u =>
      (s.ctx (ctlObject t w)).Resumed (u.ctx (ctlObject t w)) ∧ (u.core t.unit).ctxErr = false ∧ u.mem = s.mem) := by
  obtain ⟨-, hu⟩ := State.clearCompute_iff.mp hc
  have hfield : field w 4 3 = 4 := by rw [field_eq_div_mod]; exact hop
  have hne : ctlObject t w ≠ t := fun h => by
    rw [h, State.running_of_clear hc] at hst
    simp at hst
  have hb : (if field w 4 3 = 4 then s.ctxContinue t w else s) = (s.ctlWritten t w false).restart (ctlObject t w) false := by
    rw [if_pos hfield, State.ctxContinue, State.ctxCtl_allowed _ hu hl h0 hm (by simpa using hst)]
  obtain ⟨u, hx, hr, hrest⟩ := State.ctxCtl_resumes (body := fun s => if field w 4 3 = 4 then s.ctxContinue t w else s) hc hne hb
    (State.onlyThread_modCtx _ _ _ (ctlObject_ok hu))
  refine ⟨u, hx, ?_, hrest⟩
  rw [State.ctx_modCtx_same, State.ctx_ctlWritten_other hu hne] at hr
  exact ⟨hr.runs, hr.pc, hr.level, hr.g, hr.segs, hr.entered⟩

theorem exec_ctxEnter {l c : Nat} {pc : Word} (hop : w.toNat / 16 % 8 = 3) (hst : (s.ctx (ctlObject t w)).st = .faulted)
    (he : (s.ctx (ctlObject t w)).entered = some (l, pc, c)) :
    Ends (exec (.ctxEnter t w) s) (fun u =>
      ({ s.ctx (ctlObject t w) with pc := pc, entered := none } : Ctx).Resumed (u.ctx (ctlObject t w)) ∧ (u.core t.unit).ctxErr = false ∧ u.mem = s.mem) := by
  obtain ⟨-, hu⟩ := State.clearCompute_iff.mp hc
  have hfield : field w 4 3 = 3 := by rw [field_eq_div_mod]; exact hop
  have hne : ctlObject t w ≠ t := fun h => by
    rw [h, State.running_of_clear hc] at hst
    cases hst
  have hb : (if field w 4 3 = 3 then s.ctxEnter t w else s) =
      ((s.ctlWritten t w false).modCtx (ctlObject t w) (fun c => { c with pc := pc, entered := none, fetchBuf := [] })).makeReady (ctlObject t w) := by
    rw [if_pos hfield, State.ctxEnter, State.ctxCtl_allowed _ hu hl h0 hm (by simp [hst]), State.ctx_ctlWritten_other hu hne, he]
  obtain ⟨u, hx, hr, hrest⟩ := State.ctxCtl_resumes (body := fun s => if field w 4 3 = 3 then s.ctxEnter t w else s) hc hne hb
    (State.onlyThread_modCtx _ _ _ (ctlObject_ok hu))
  refine ⟨u, hx, ?_, hrest⟩
  rw [State.ctx_modCtx_same, State.ctx_ctlWritten_other hu hne] at hr
  exact ⟨hr.runs, hr.pc, hr.level, hr.g, hr.segs, hr.entered⟩

end

/-! ## What RETURN restores (R118) -/

/-- RETX at level `n` with nothing spilled: to the same level, or to a less privileged one whose segments the save area gives. -/
theorem State.retx_unspilled {o : Tid} {n : Nat} {g : Segs} (hv : ((s.ctx o).saveSet n).valid = true) (hd : ((s.ctx o).saveSet n).depth = 0)
    (hg : (((s.ctx o).saveSet n).plv = n ∧ g = (s.ctx o).segs) ∨
      (n < ((s.ctx o).saveSet n).plv ∧ s.restoredSegs o n ((s.ctx o).saveSet n).plv = .ok g)) :
    ∃ r, s.retx o n = .ok (s.returned o n r none) ∧ r.getD (s.ctx o).segs = g := by
  unfold State.retx
  obtain ⟨hm, rfl⟩ | ⟨hm, hr⟩ := hg
  · exact ⟨none, by simp [hv, hd, hm], rfl⟩
  · exact ⟨some g, by simp [hv, hd, hm, hr, Nat.not_lt.mpr (Nat.le_of_lt hm), Except.map], rfl⟩

theorem Ctx.g_setSave (c : Ctx) (n : Nat) (x : SaveSet) : (c.setSave n x).g = c.g := by
  unfold Ctx.setSave
  split <;> rfl

theorem State.returned_none (s : State) (o : Tid) (n : Nat) (r : Option Segs) :
    ((s.returned o n r none).ctx o).pc = ((s.ctx o).saveSet n).pc ∧ ((s.returned o n r none).ctx o).level = ((s.ctx o).saveSet n).plv ∧
      ((s.returned o n r none).ctx o).segs = r.getD (s.ctx o).segs ∧ (s.returned o n r none).sp o = ((s.ctx o).saveSet n).sp ∧
      ∀ q, q ≠ 31 → (s.returned o n r none).reg o q = s.reg o q := by
  unfold State.returned
  refine ⟨by simp [State.ctx_setReg], by simp [State.ctx_setReg], by simp [State.ctx_setReg], by simp [State.sp], fun q hq => ?_⟩
  rw [State.reg_setReg_ne _ _ _ hq]
  exact State.reg_congr (by simp [Ctx.g_setSave]) q

theorem State.onlyThread_returned (s : State) (o : Tid) (n : Nat) (r : Option Segs) (x : Option (List Byte)) (ho : tidOk o = true) :
    s.onlyThread (s.returned o n r x) o :=
  State.onlyThread_trans (State.onlyThread_modCtx s o _ ho) (State.onlyThread_setReg _ o 31 _ ho)

theorem exec_ctxReturn {o : Tid} {x : SaveSet} {g : Segs} (hc : s.clearCompute t = true) (hl : (s.ctx t).level ≤ 1) (ho : ctlObject t w = o) (h0 : o.ctx ≠ 0)
    (hm : (s.ctx o).mailbox = false) (hop : w.toNat / 16 % 8 = 2) (hst : (s.ctx o).st = .faulted) (hx : (s.ctx o).saveSet (s.ctx o).level = x)
    (hv : x.valid = true) (hd : x.depth = 0)
    (hg : (x.plv = (s.ctx o).level ∧ g = (s.ctx o).segs) ∨ ((s.ctx o).level < x.plv ∧ s.restoredSegs o (s.ctx o).level x.plv = .ok g)) :
    Ends (exec (.ctxReturn t w) s) (fun u => ((u.ctx o).st = .ready ∨ (u.ctx o).st = .running) ∧ (u.ctx o).pc = x.pc ∧ (u.ctx o).level = x.plv ∧
      u.sp o = x.sp ∧ (u.ctx o).segs = g ∧ (∀ r, r ≠ 31 → u.reg o r = s.reg o r) ∧ (u.core t.unit).ctxErr = false ∧ u.mem = s.mem) := by
  subst ho hx
  obtain ⟨-, hu⟩ := State.clearCompute_iff.mp hc
  have hfield : field w 4 3 = 2 := by rw [field_eq_div_mod]; exact hop
  have hne : ctlObject t w ≠ t := fun h => by
    rw [h, State.running_of_clear hc] at hst
    cases hst
  have hctx : (s.ctlWritten t w false).ctx (ctlObject t w) = s.ctx (ctlObject t w) := State.ctx_ctlWritten_other hu hne
  have hsegs : ∀ n m, (s.ctlWritten t w false).restoredSegs (ctlObject t w) n m = s.restoredSegs (ctlObject t w) n m :=
    State.restoredSegs_congr hu (fun h a n => (outsideThreads_readAcc h a n).ctlWritten s t w false) (State.xdtb_ctlWritten hu)
  obtain ⟨r, hret, hr⟩ := State.retx_unspilled (s := s.ctlWritten t w false) (o := ctlObject t w) (n := (s.ctx (ctlObject t w)).level) (g := g)
    (by rwa [hctx]) (by rwa [hctx]) (by rwa [hctx, hsegs])
  have hb : (if field w 4 3 = 2 then s.ctxReturn t w else s) =
      ((s.ctlWritten t w false).returned (ctlObject t w) (s.ctx (ctlObject t w)).level r none).makeReady (ctlObject t w) := by
    rw [if_pos hfield, State.ctxReturn, State.ctxCtl_allowed _ hu hl h0 hm (by simp [hst]), hctx, hret]
  obtain ⟨u, hxe, hres, hrest⟩ := State.ctxCtl_resumes (body := fun s => if field w 4 3 = 2 then s.ctxReturn t w else s) hc hne hb
    (State.onlyThread_returned _ _ _ r none (ctlObject_ok hu))
  obtain ⟨hpc, hlevel, hseg, hsp, hregs⟩ := (s.ctlWritten t w false).returned_none (ctlObject t w) (s.ctx (ctlObject t w)).level r
  rw [hctx] at hpc hlevel hsp hr
  rw [hctx, hr] at hseg
  refine ⟨u, hxe, hres.runs, hres.pc.trans hpc, hres.level.trans hlevel, (State.reg_congr hres.g 31).trans hsp, hres.segs.trans hseg, fun q hq => ?_, hrest⟩
  rw [State.reg_congr hres.g, hregs q hq, State.reg_congr (congrArg Ctx.g hctx)]

end Sys2Proof.Machine
end

section
/-! SUPPORT. `CTX_DATA` over the general registers of another context (R134). -/

namespace Sys2Proof.Machine

variable {s : State} {t o : Tid} {err : Bool}

/-- The state with ERR of a thread's core as an access to `CTX_DATA` leaves it. -/
def State.setCtxErr (s : State) (t : Tid) (err : Bool) : State := s.modCore t.unit (fun c => { c with ctxErr := err })

@[simp] theorem State.ctx_setCtxErr (s : State) (t : Tid) (err : Bool) (d : Tid) : (s.setCtxErr t err).ctx d = s.ctx d := s.ctx_modCore d

@[simp] theorem State.reg_setCtxErr (s : State) (t : Tid) (err : Bool) (d : Tid) (r : Reg) : (s.setCtxErr t err).reg d r = s.reg d r :=
  State.reg_congr (by simp) r

theorem State.ctxErr_setCtxErr (s : State) (t : Tid) (err : Bool) : ((s.setCtxErr t err).core t.unit).ctxErr = err := by
  rw [State.setCtxErr, State.core_modCore_same]

/-- The register that `CTX_SEL` names. -/
def State.selReg (s : State) (t : Tid) : Nat := (s.core t.unit).ctxSel.toNat / 16 % 4096

theorem State.field_ctxSel (s : State) (t : Tid) : field (s.core t.unit).ctxSel 4 12 = s.selReg t := field_eq_div_mod _ 4 12

theorem State.ctxDataRead_object (ho : s.ctxObject t = some o) (hr : s.selReg t < 32) :
    s.ctxDataRead t = (s.reg o (bv 5 (s.selReg t)), s.setCtxErr t false) := by
  unfold State.ctxDataRead
  simp only [ho, s.field_ctxSel, if_pos hr]
  rfl

theorem State.ctxDataRead_none (ho : s.ctxObject t = none) : s.ctxDataRead t = (0, s.setCtxErr t true) := by
  unfold State.ctxDataRead
  simp only [ho]
  rfl

theorem State.ctxDataWrite_object (w : Word) (ho : s.ctxObject t = some o) (hr : s.selReg t < 32) :
    s.ctxDataWrite t w = (s.setReg o (bv 5 (s.selReg t)) w).setCtxErr t false := by
  unfold State.ctxDataWrite
  simp only [ho, s.field_ctxSel, if_pos hr]
  rfl

theorem State.ctxDataWrite_none (w : Word) (ho : s.ctxObject t = none) : s.ctxDataWrite t w = s.setCtxErr t true := by
  unfold State.ctxDataWrite
  simp only [ho]
  rfl

/-- A read of `CTX_DATA` by the supervisor that gives `v`. -/
theorem exec_ctxDataRead {v : Word} (hc : s.clearCompute t = true) (hl : (s.ctx t).level ≤ 1) (hv : s.ctxDataRead t = (v, s.setCtxErr t err)) (rd : Reg) :
    exec (.ctxDataAccess t (.read rd)) s = .next (((s.setCtxErr t err).setReg t rd v).advance t 4) := by
  have hb : s.ctxDataLoad t rd = ((s.setCtxErr t err).setReg t rd v).advance t 4 := by
    unfold State.ctxDataLoad
    rw [if_neg (by omega), hv]
  have hund : ((s.setCtxErr t err).ctx t).Undisturbed := by
    rw [State.ctx_setCtxErr]
    exact State.undisturbed_of_clear hc
  refine (State.computeOnly_undisturbed (body := fun s => s.ctxDataLoad t rd) hc ?_).trans (congrArg _ hb)
  rw [hb]
  exact (hund.setReg rd v).advance 4

/-- A write of `CTX_DATA` by the supervisor that leaves `v`, its own context as it was. -/
theorem exec_ctxDataWrite {ra : Reg} {v : State} (hc : s.clearCompute t = true) (hl : (s.ctx t).level ≤ 1) (hv : s.ctxDataWrite t (s.reg t ra) = v)
    (ht : v.ctx t = s.ctx t) : exec (.ctxDataAccess t (.write ra)) s = .next (v.advance t 4) := by
  have hb : s.ctxDataStore t (s.reg t ra) = v.advance t 4 := by
    unfold State.ctxDataStore
    rw [if_neg (by omega), hv]
  have hund : (v.ctx t).Undisturbed := by
    rw [ht]
    exact State.undisturbed_of_clear hc
  refine (State.computeOnly_undisturbed (body := fun s => s.ctxDataStore t (s.reg t ra)) hc ?_).trans (congrArg _ hb)
  rw [hb]
  exact hund.advance 4

/-- At level 2 both raise PRIVILEGE. -/
theorem exec_ctxDataAccess_task (hc : s.clearCompute t = true) (hl : (s.ctx t).level = 2) (ht : ((s.privilege t).ctx t).trapDue = none) (a : CtxAccess) :
    exec (.ctxDataAccess t a) s = .next ((s.privilege t).settleDebug t) := by
  cases a with
  | read rd =>
    have hb : s.ctxDataLoad t rd = s.privilege t := if_pos hl
    exact (State.computeOnly_of_trapDue (body := fun s => s.ctxDataLoad t rd) hc (by rwa [hb])).trans (by rw [hb])
  | write ra =>
    have hb : s.ctxDataStore t (s.reg t ra) = s.privilege t := if_pos hl
    exact (State.computeOnly_of_trapDue (body := fun s => s.ctxDataStore t (s.reg t ra)) hc (by rwa [hb])).trans (by rw [hb])

/-! ## What an access changes -/

section
variable (hc : s.clearCompute t = true) (hl : (s.ctx t).level ≤ 1)
include hc hl

/-- A read that reaches its object gives the register, and of the thread nothing but its destination is written. -/
theorem exec_ctxDataRead_object (ho : s.ctxObject t = some o) (hr : s.selReg t < 32) (rd : Reg) :
    Ends (exec (.ctxDataAccess t (.read rd)) s) (fun u => (rd ≠ 0 → u.reg t rd = s.reg o (bv 5 (s.selReg t))) ∧ (∀ r, r ≠ rd → u.reg t r = s.reg t r) ∧
      (u.core t.unit).ctxErr = false ∧ (u.ctx t).pc = (s.ctx t).pc + 4 ∧ u.mem = s.mem) := by
  rw [exec_ctxDataRead hc hl (State.ctxDataRead_object ho hr) rd]
  refine .next ⟨fun h => ?_, fun r h => ?_, ?_, ?_, ?_⟩
  · rw [State.reg_advance, State.reg_setReg_same, if_neg h]
  · rw [State.reg_advance, State.reg_setReg_ne _ _ _ h, State.reg_setCtxErr]
  · rw [State.core_advance (π := Core.ctxErr) _ (fun _ _ => rfl), State.core_setReg (π := Core.ctxErr) (fun _ _ => rfl), State.ctxErr_setCtxErr]
  · simp [State.ctx_advance, State.ctx_setReg, word]
  · rw [outsideThreads_mem.advance, outsideThreads_mem.setReg]
    rfl

/-- A write that reaches its object, another thread, writes the register and no other of it. -/
theorem exec_ctxDataWrite_object (ho : s.ctxObject t = some o) (hne : o ≠ t) (hr : s.selReg t < 32) (ra : Reg) :
    Ends (exec (.ctxDataAccess t (.write ra)) s) (fun u => (s.selReg t ≠ 0 → u.reg o (bv 5 (s.selReg t)) = s.reg t ra) ∧
      (∀ r, r ≠ bv 5 (s.selReg t) → u.reg o r = s.reg o r) ∧ (u.core t.unit).ctxErr = false ∧ (u.ctx t).pc = (s.ctx t).pc + 4 ∧ u.mem = s.mem) := by
  obtain ⟨-, hu⟩ := State.clearCompute_iff.mp hc
  have ht : ((s.setReg o (bv 5 (s.selReg t)) (s.reg t ra)).setCtxErr t false).ctx t = s.ctx t := by
    rw [State.ctx_setCtxErr, s.ctx_setReg_other (.inl hu) hne.symm]
  have h0 : s.selReg t ≠ 0 → bv 5 (s.selReg t) ≠ 0 := fun h e => h (by simpa [bv, Nat.mod_eq_of_lt hr] using congrArg BitVec.toNat e)
  rw [exec_ctxDataWrite hc hl (State.ctxDataWrite_object _ ho hr) ht]
  refine .next ⟨fun h => ?_, fun r h => ?_, ?_, ?_, ?_⟩
  · rw [State.reg_advance_any hu, State.reg_setCtxErr, State.reg_setReg_same, if_neg (h0 h)]
  · rw [State.reg_advance_any hu, State.reg_setCtxErr, State.reg_setReg_ne _ _ _ h]
  · rw [State.core_advance (π := Core.ctxErr) _ (fun _ _ => rfl), State.ctxErr_setCtxErr]
  · rw [State.ctx_advance, ht]
    rfl
  · rw [outsideThreads_mem.advance]
    exact outsideThreads_mem.setReg s o _ _

/-- A refused read gives zero. -/
theorem exec_ctxDataRead_refused (ho : s.ctxObject t = none) (rd : Reg) :
    Ends (exec (.ctxDataAccess t (.read rd)) s) (fun u => u.reg t rd = 0 ∧ (u.core t.unit).ctxErr = true) := by
  rw [exec_ctxDataRead hc hl (State.ctxDataRead_none ho) rd]
  refine .next ⟨?_, ?_⟩
  · rw [State.reg_advance, State.reg_setReg_same, ite_self]
  · rw [State.core_advance (π := Core.ctxErr) _ (fun _ _ => rfl), State.core_setReg (π := Core.ctxErr) (fun _ _ => rfl), State.ctxErr_setCtxErr]

/-- A refused write changes no general register of any thread. -/
theorem exec_ctxDataWrite_refused (ho : s.ctxObject t = none) (ra : Reg) :
    Ends (exec (.ctxDataAccess t (.write ra)) s) (fun u => (u.core t.unit).ctxErr = true ∧ ∀ (d : Tid) (r : Reg), u.reg d r = s.reg d r) := by
  obtain ⟨-, hu⟩ := State.clearCompute_iff.mp hc
  rw [exec_ctxDataWrite hc hl (State.ctxDataWrite_none _ ho) (State.ctx_setCtxErr ..)]
  refine .next ⟨?_, fun d r => ?_⟩
  · rw [State.core_advance (π := Core.ctxErr) _ (fun _ _ => rfl), State.ctxErr_setCtxErr]
  · rw [State.reg_advance_any hu, State.reg_setCtxErr]

end
end Sys2Proof.Machine
end

section
namespace Sys2Proof.Machine

/-- Settles O39. KILL: the object leaves its core for FREE, and `State.Killed` is kept by everything the end of a thread leads to and by
what the supervisor's own boundary then takes. RETURN, ENTER and CONTINUE change their object's context alone and make it READY
(`State.ctxCtl_resumes`). A FREE object refuses every operation, and level 2 stops each access before it begins. -/
theorem supervisorControlsContexts : Obligations.SupervisorControlsContexts := by
  unfold Obligations.SupervisorControlsContexts
  refine ⟨fun s t w o hc hl ho h0 hm => ?_, fun s t hc hl hr => ⟨fun o hobj hne => ⟨fun rd => ?read, fun ra => ?write⟩, fun hobj => ⟨fun rd => ?readRefused, fun ra => ?writeRefused⟩⟩,
    fun s t w rd hc hl ht => ⟨exec_ctxDataAccess_task hc hl ht _, exec_ctxDataAccess_task hc hl ht _, fun p hp hop => exec_ctlCommand_task hc hl ht hp hop⟩⟩
  case read => exact exec_ctxDataRead_object hc hl hobj hr rd
  case write => exact exec_ctxDataWrite_object hc hl hobj hne hr ra
  case readRefused => exact exec_ctxDataRead_refused hc hl hobj rd
  case writeRefused => exact exec_ctxDataWrite_refused hc hl hobj ra
  obtain ⟨hclear, hu⟩ := State.clearCompute_iff.mp hc
  obtain rfl : ctlObject t w = o := (ctlObject_eq t w).trans ho.symm
  refine ⟨fun hop hst hf => ?kill, fun hop hst hv hd g hg => ?resume, fun hop hst l pc c he => ?enter, fun hop hst => ?restart, fun p hp hop hst => ?free⟩
  case kill =>
    obtain ⟨u, hx, hk⟩ := exec_ctxKill hc hl h0 hm hop hst hf
    exact ⟨u, hx, hk.free, hk.err⟩
  case resume => exact exec_ctxReturn hc hl rfl h0 hm hop hst rfl hv hd hg
  case enter =>
    obtain ⟨u, hx, hres, herr, hmem⟩ := exec_ctxEnter hc hl h0 hm hop hst he
    exact ⟨u, hx, hres.runs, hres.pc, hres.entered, State.reg_congr hres.g, herr, hmem⟩
  case restart =>
    obtain ⟨u, hx, hres, herr, hmem⟩ := exec_ctxContinue hc hl h0 hm hop hst
    exact ⟨u, hx, hres.runs, hres.pc, hres.level, State.reg_congr hres.g, herr, hmem⟩
  case free =>
    have hne : ctlObject t w ≠ t := fun h => by
      rw [h, State.running_of_clear hc] at hst
      cases hst
    rw [exec_ctlCommand_free hc hl hp hop hst]
    refine .next ⟨State.ctxErr_ctlWritten .., State.ctx_ctlWritten_other hu hne, ?_, outsideThreads_mem.ctlWritten ..⟩
    rw [State.ctx_ctlWritten_same, State.ctx_advance]
    rfl

end Sys2Proof.Machine
end
